-- ==== Sys2Proof/Word.lean ====
section
/-! DEFINITION. The word types of the machine. -/

namespace Sys2Proof

/-- A byte of memory. -/
abbrev Byte := BitVec 8

/-- A 64-bit register, address or doubleword (R212). -/
abbrev W64 := BitVec 64

/-- A 32-bit word: half a bundle, a vector lane, an FP32 value (R200, R303). -/
abbrev W32 := BitVec 32

/-- Plain data by key: a list of (key, value) pairs, keys strictly rising, no entry equal to the default of the
table. Memory is one such table (its entries are `Host.Cell`s). -/
abbrev Table (α : Type) := List (Nat × α)

end Sys2Proof
end

