-- ==== Sys2Proof/Syntax.lean ====
section
/-! DEFINITION. The syntax of every instruction word and every event of spec/opcode_table.json: one constructor per
row. A word of a bundle carries its operand fields only; FMT and NX (R201, R205) belong to the bundle, not to the
word. An event row has no encoding; its constructor carries what the event is about, and the data that an input from
outside the machine brings with it. -/

namespace Sys2Proof

/-- Loads of R277 by MIN[2:0]: size and extension. -/
inductive LdMode where
  | b | h | w | d | bu | hu | wu
deriving DecidableEq, Repr

/-- Sizes of the plain stores of R281. -/
inductive StSize where
  | b | h | w | d
deriving DecidableEq, Repr

/-- The scopes of R98. -/
inductive Scope where
  | core | cluster | die | module | system
deriving DecidableEq, Repr

/-- Ordering suffix of an atomic (R293). -/
inductive AmoOrd where
  | relaxed | acq (s : Scope) | rel (s : Scope) | ar (s : Scope)
deriving DecidableEq, Repr

/-- OP of `amo` and `red` (R140, R293); `cas` is an instruction of its own. -/
inductive AmoOp where
  | swap | add | and | or | xor | smin | smax | umin | umax | fadd | fmin | fmax
deriving DecidableEq, Repr

/-- Functions of the special-function unit (R321). -/
inductive SfuFn where
  | rcp | rsqrt | sqrt | exp2 | log2 | sinpi | cospi | tanh | sigmoid | exp | map
deriving DecidableEq, Repr

/-- Conditions of integer compares (R247, R307). -/
inductive Cond where
  | eq | ne | lt | ge | ltu | geu
deriving DecidableEq, Repr

/-- Conditions of the vector floating compare (R311). -/
inductive FCmp where
  | eq | lt | le | un
deriving DecidableEq, Repr

/-- Rounding modes (R48, R249): nearest even, toward zero, toward plus and minus infinity, stochastic. -/
inductive Rm where
  | ne | rz | rp | rm | rs
deriving DecidableEq, Repr

/-- Element type of a vector floating instruction (R309 to R311). -/
inductive VTy where
  | s | bf | d
deriving DecidableEq, Repr

/-- Lane patterns of R208 and R305. -/
inductive Lp where
  | none | rot | rev | w8 | bc
deriving DecidableEq, Repr

/-- Operations of `vred` (R316). -/
inductive VRedOp where
  | add | smin | smax | umin | umax | and | or | xor | fadd | fmin | fmax | faddD
deriving DecidableEq, Repr

/-- A context by its logical site, physical core index and context number (R12, R176). -/
structure CtxRef where
  site : Nat
  core : Nat
  ctx : Nat
deriving DecidableEq, Repr

/-- Within the module: 64 sites, 256 cores a die, 4 contexts a core. -/
def CtxRef.ok (r : CtxRef) : Bool := decide (r.site < 64) && decide (r.core < 256) && decide (r.ctx < 4)

/-- Where an uncorrectable error lies (R94). Lines are physical line numbers (PA[51:7]). -/
inductive ErrWhere where
  | l1Line (site core line : Nat)
  | icLine (site core line : Nat)
  | rdcLine (site line : Nat)
  | l2Line (line : Nat)
  | memLine (line : Nat)
  | localWord (site core off : Nat)
  | regionEntry (site core slot : Nat)
deriving DecidableEq, Repr

/-- What the patrol scrubber finds in a line (R95). -/
inductive ScrubFind where
  | clean | corrected | uncorrectable
deriving DecidableEq, Repr

/-- An HDM decoder of a CXL port (R428): a host range in units of 256 MiB, the ways and granularity of its interleave as
logarithms (256 bytes is 0), and the device address that it starts at. -/
structure HdmDec where
  on : Bool
  base : Nat
  size : Nat
  ways : Nat
  gran : Nat
  dpa : Nat
deriving DecidableEq, Repr

/-- What the sensors of a site say at one time (R406): its hottest junction sensor, its regulators' overcurrent alarm and the
module's external input. -/
structure SiteSense where
  temp : Nat
  current : Bool
  ext : Bool
deriving DecidableEq, Repr

/-- A branch of a multicast copy, by the copy and its number among the copy's branches (R419). -/
structure McastBranch where
  copy : Nat
  branch : Nat
deriving DecidableEq, Repr

/-- A host access to device memory (R138): a read, which may leave the host holding the line, a write of bytes, or
the host giving a line up. -/
inductive HostMemOp where
  | read (bytes : Nat) (hold modify : Bool)
  | write (data : List (BitVec 8))
  | evict (data : Option (List (BitVec 8)))
  | decoder (idx : Nat) (dec : HdmDec)
deriving DecidableEq, Repr

/-- PLDM sensors (R437); a temperature reading comes with its value. -/
inductive Sensor where
  | coolantIn (v : BitVec 64) | coolantOut (v : BitVec 64) | sitePower (site : Nat) (v : BitVec 64)
  | melt (site : Nat) | thrstat (site : Nat)
deriving DecidableEq, Repr

/-- Kyist vendor-defined messages (R437). -/
inductive VendorMsg where
  | bootstat | grade | hubstate (hub : Nat) | testres (hub idx : Nat) | quote | certificate | identityKey
deriving DecidableEq, Repr

/-- What crosses a module link (R431): copies and their replies, push and pop and their replies, barrier packets. -/
inductive Flit where
  | copyReadReq (id pa len : Nat)
  | copyWriteReq (id pa : Nat) (data : List (BitVec 8))
  | copyReadReply (id : Nat) (data : List (BitVec 8))
  | copyWriteAck (id : Nat)
  | copyRefused (id : Nat)
  | copyPoisoned (id : Nat)
  | exchange (id : Nat) (push : Bool) (pa : Nat) (value : BitVec 64) (window page : Nat)
  | exchangeReply (id status : Nat) (value : BitVec 64)
  | barrier (group : Nat) (parity : Bool)
deriving DecidableEq, Repr

/-- Every row of spec/opcode_table.json: first the words of word A and word B
that have operand fields, then those that have none, then the events (Lean's compiler builds at most 245 constructors
that carry fields, so the words stand before the events). -/
inductive Instr where
  /-- LD: Plain load of 1, 2, 4 or 8 bytes at ga plus a scaled signed offset, sign- or zero-extended into gd (R277) -/
  | ld (d : BitVec 5) (a : BitVec 5) (m : LdMode) (o : BitVec 11)
  /-- LD_INDEXED: Plain load at ga + gb, size and extension chosen by MIN[2:0] (R277) -/
  | ldIndexed (d : BitVec 5) (a : BitVec 5) (b : BitVec 5) (m : LdMode)
  /-- LDX_B: Widening load of a 1-byte element through a format window, decoded and scaled by R53 (R278) -/
  | ldxB (d : BitVec 5) (a : BitVec 5) (o : BitVec 11)
  /-- LDX_H: Widening load of a 2-byte element through a format window, decoded and scaled by R53 (R278) -/
  | ldxH (d : BitVec 5) (a : BitVec 5) (o : BitVec 11)
  /-- LDK: Loads constant word kN of the context's own constant window into gd (R279) -/
  | ldk (d : BitVec 5) (k : BitVec 8)
  /-- PF_L1: Prefetches the 128-byte line into L1 or the remote-data cache; dropped on any failure (R280) -/
  | pfL1 (a : BitVec 5) (o : BitVec 11)
  /-- PF_L2: Prefetches the line into its home L2 slice and, for a remote line, the remote-data cache (R280) -/
  | pfL2 (a : BitVec 5) (o : BitVec 11)
  /-- ST: Plain store of 1, 2, 4 or 8 bytes of gs at ga plus a scaled offset; parks in the replay queue on a translation failure (R281) -/
  | st (s : BitVec 5) (a : BitVec 5) (m : StSize) (o : BitVec 11)
  /-- ST_INDEXED: Plain store of gs at ga + gb (R281) -/
  | stIndexed (s : BitVec 5) (a : BitVec 5) (b : BitVec 5) (m : StSize)
  /-- STX_B: Narrowing store of gs[31:0] into a 1-byte element through a format window by R55 (R282) -/
  | stxB (s : BitVec 5) (a : BitVec 5) (o : BitVec 11)
  /-- STX_H: Narrowing store of gs[31:0] into a 2-byte element through a format window by R55 (R282) -/
  | stxH (s : BitVec 5) (a : BitVec 5) (o : BitVec 11)
  /-- AMO: Atomic read-modify-write of a 4- or 8-byte word with the operation OP and optional acquire, release or both (R141) -/
  | amo (d : BitVec 5) (a : BitVec 5) (s : BitVec 5) (r : AmoOrd) (z : Bool) (o : AmoOp)
  /-- AMO_CAS: Atomic compare-and-swap with comparand g(2c) and swap value g(2c+1) (R141) -/
  | amoCas (d : BitVec 5) (a : BitVec 5) (c : BitVec 4) (r : AmoOrd) (z : Bool)
  /-- RED: Reduction: an atomic without return that travels to the home and may merge on the way (R152) -/
  | red (a : BitVec 5) (s : BitVec 5) (z : Bool) (o : AmoOp)
  /-- PUSH: Offers gs to an exchange object at scope S with pairing window w; the status lands in gd (R158) -/
  | push (d : BitVec 5) (a : BitVec 5) (s : BitVec 5) (w : BitVec 2) (e : Scope)
  /-- POP: Asks an exchange object for a value; parks until the reply gives the value or the status (R158) -/
  | pop (d : BitVec 5) (a : BitVec 5) (p : BitVec 5) (w : BitVec 2) (e : Scope)
  /-- FENCE: Orders the context's own accesses at scope S and, at module scope or wider, invalidates UNBOUND remote-data-cache lines (R117) -/
  | fence (e : Scope)
  /-- XFI: Captures earlier global stores in a cross-die fence slot and writes a token to gd (R120) -/
  | xfi (d : BitVec 5)
  /-- XFW: Waits until the accesses captured by a token are performed at module scope, then frees the slot (R122) -/
  | xfw (a : BitVec 5)
  /-- BIND: Binds or unbinds a synchronisation object and a region in the ASID's binding table and returns a status (R109) -/
  | bind (d : BitVec 5) (a : BitVec 5) (b : BitVec 5)
  /-- ACQ: Reads the object word at home and, at module scope or wider, refreshes the bound lines in the remote-data cache (R113) -/
  | acq (d : BitVec 5) (a : BitVec 5) (e : Scope)
  /-- REL: Waits for earlier accesses, writes back the bound region's dirty bytes and writes gs to the object word (R112) -/
  | rel (a : BitVec 5) (b : BitVec 5) (e : Scope)
  /-- WAITC: Waits until the four outstanding-operation counters are at or below their limits (R290) -/
  | waitc (l : BitVec 5) (s : BitVec 5) (c : BitVec 5) (t : BitVec 5)
  /-- WAITA: Arms watches on up to four words and waits until one differs from its expected value or the timeout ends (R291) -/
  | waita (d : BitVec 5) (a : BitVec 5) (b : BitVec 5) (t : BitVec 3) (n : BitVec 2)
  /-- ARRIVE: Records the core's arrival in girth group g and the phase bit (R194) -/
  | arrive (g : BitVec 3)
  /-- ARRIVE_SS: Superstep arrival, withheld until the context's stores, reductions and copies are performed (R195) -/
  | arriveSs (g : BitVec 3)
  /-- WAITB: Waits until the phase of girth group g has flipped since the context's last arrival (R194) -/
  | waitb (g : BitVec 3)
  /-- BR: Branches by a signed bundle displacement when the predicate, possibly negated, holds (R257) -/
  | br (p : BitVec 3) (n : Bool) (d : BitVec 20)
  /-- CALL: Conditional call that writes lr and branches by a displacement (R257) -/
  | call (p : BitVec 3) (n : Bool) (d : BitVec 20)
  /-- JR: Jumps to the address in ga (R258) -/
  | jr (a : BitVec 5)
  /-- CALLR: Writes lr and jumps to the address in ga (R258) -/
  | callr (a : BitVec 5)
  /-- MOV_JA0_FROM_G: Sets ja0 from ga (R258) -/
  | movJa0FromG (a : BitVec 5)
  /-- MOV_JA1_FROM_G: Sets ja1 from ga (R258) -/
  | movJa1FromG (a : BitVec 5)
  /-- MOV_LR_FROM_G: Sets lr from ga (R258) -/
  | movLrFromG (a : BitVec 5)
  /-- MOV_G_FROM_JA0: Copies ja0 into gd (R258) -/
  | movGFromJa0 (d : BitVec 5)
  /-- MOV_G_FROM_JA1: Copies ja1 into gd (R258) -/
  | movGFromJa1 (d : BitVec 5)
  /-- MOV_G_FROM_LR: Copies lr into gd (R258) -/
  | movGFromLr (d : BitVec 5)
  /-- RDPC: Writes the address of this bundle to gd (R258) -/
  | rdpc (d : BitVec 5)
  /-- MOV_G_FROM_LS: Copies lsN into gd (R258) -/
  | movGFromLs (d : BitVec 5) (n : BitVec 2)
  /-- MOV_G_FROM_LE: Copies leN into gd (R258) -/
  | movGFromLe (d : BitVec 5) (n : BitVec 2)
  /-- MOV_G_FROM_LC: Copies lcN, zero-extended, into gd (R258) -/
  | movGFromLc (d : BitVec 5) (n : BitVec 2)
  /-- MOV_LS_FROM_G: Sets lsN from ga, trapping on a misaligned address (R258) -/
  | movLsFromG (a : BitVec 5) (n : BitVec 2)
  /-- MOV_LE_FROM_G: Sets leN from ga, trapping on a misaligned address (R258) -/
  | movLeFromG (a : BitVec 5) (n : BitVec 2)
  /-- MOV_LC_FROM_G: Sets lcN from ga[31:0] (R258) -/
  | movLcFromG (a : BitVec 5) (n : BitVec 2)
  /-- LOOP: Sets up zero-overhead loop level L over a body ending IMM bundles ahead, run ga[31:0] times (R260) -/
  | loop (l : BitVec 2) (a : BitVec 5) (i : BitVec 14)
  /-- HALT_RET: Halts with the retain bit set, naming a successor launch record (R264) -/
  | haltRet (a : BitVec 5)
  /-- GANG: Waits until the four same-numbered contexts of the quad arrive, then writes the gang status (R184) -/
  | gang (d : BitVec 5)
  /-- ADDA: Address add of a signed 14-bit immediate (R254) -/
  | adda (d : BitVec 5) (a : BitVec 5) (i : BitVec 14)
  /-- MOVI: Moves a sign-extended 19-bit immediate into gd (R254) -/
  | movi (d : BitVec 5) (i : BitVec 19)
  /-- MOVK: Inserts a 16-bit immediate into halfword c of gd (R254) -/
  | movk (d : BitVec 5) (c : BitVec 2) (v : BitVec 16)
  /-- CSTEP: Steps a core name by signed row and column offsets within its rectangle (R256) -/
  | cstep (d : BitVec 5) (a : BitVec 5) (b : BitVec 5)
  /-- CWRAP: Steps a core name with wrap-around inside its rectangle (R256) -/
  | cwrap (d : BitVec 5) (a : BitVec 5) (b : BitVec 5)
  /-- CDIFF: Gives the row and column difference between two core names of one rectangle (R256) -/
  | cdiff (d : BitVec 5) (a : BitVec 5) (b : BitVec 5)
  /-- CRECT: Returns the RECT entry of a core name's rectangle (R256) -/
  | crect (d : BitVec 5) (a : BitVec 5)
  /-- CIDX: Returns the linear index of a core name within its rectangle (R256) -/
  | cidx (d : BitVec 5) (a : BitVec 5)
  /-- CCLUS: Returns the cluster core index of a named core in the issuing cluster (R256) -/
  | cclus (d : BitVec 5) (a : BitVec 5)
  /-- HGRANT: System-mode grant of a FREE task-space region to a target context, zero-filled (R285) -/
  | hgrant (d : BitVec 5) (a : BitVec 5) (b : BitVec 5)
  /-- HPASS_X: Passes a held region exclusive to a target, moving it to PASSING (R286) -/
  | hpassX (d : BitVec 5) (a : BitVec 5) (b : BitVec 5)
  /-- HPASS_S: Passes a region shared-read to a target (R286) -/
  | hpassS (d : BitVec 5) (a : BitVec 5) (b : BitVec 5)
  /-- HTAKE: Takes a region passed to the context, making it EXCLUSIVE (R286) -/
  | htake (d : BitVec 5) (a : BitVec 5)
  /-- HRECALL: Recalls a PASSING region back to the passer (R284) -/
  | hrecall (a : BitVec 5)
  /-- HREL: Releases a held region (R284) -/
  | hrel (a : BitVec 5)
  /-- VCLAIM: Claims up to w lane blocks of the octet without waiting and returns the granted width (R188) -/
  | vclaim (d : BitVec 5) (w : BitVec 4)
  /-- VRENEW: Recomputes the lane claim against demand and returns the new width (R189) -/
  | vrenew (d : BitVec 5) (w : BitVec 4)
  /-- VLD: Contiguous vector load through the base address's window (R319) -/
  | vld (v : BitVec 4) (a : BitVec 5) (k : BitVec 2) (o : BitVec 11)
  /-- VLD_S: Strided vector load with stride g(GA+1) (R319) -/
  | vldS (v : BitVec 4) (a : BitVec 5) (k : BitVec 2) (o : BitVec 11)
  /-- VLD_BC: Vector load of one element broadcast to every lane (R319) -/
  | vldBc (v : BitVec 4) (a : BitVec 5) (k : BitVec 2) (o : BitVec 11)
  /-- VLD_G: Gather load at ga plus the lanes of vI (R319) -/
  | vldG (v : BitVec 4) (a : BitVec 5) (k : BitVec 2) (i : BitVec 4)
  /-- VST: Contiguous vector store, checked in full before any write (R320) -/
  | vst (v : BitVec 4) (a : BitVec 5) (k : BitVec 2) (o : BitVec 11)
  /-- VST_S: Strided vector store (R320) -/
  | vstS (v : BitVec 4) (a : BitVec 5) (k : BitVec 2) (o : BitVec 11)
  /-- VST_G: Scatter store at ga plus the lanes of vI (R320) -/
  | vstG (v : BitVec 4) (a : BitVec 5) (k : BitVec 2) (i : BitVec 4)
  /-- SFUCMD: Enqueues a scalar-function or map request in the octet's SFU queue and sets the busy flag (R321) -/
  | sfucmd (d : BitVec 5) (a : BitVec 5) (b : BitVec 5) (e : Scope) (l : Bool) (q : Bool) (u : SfuFn)
  /-- SRD: Reads a system register into gd (R267) -/
  | srd (d : BitVec 5) (n : BitVec 12)
  /-- SWR: Writes ga to a system register (R267) -/
  | swr (a : BitVec 5) (n : BitVec 12)
  /-- SRSET: Returns a system register and ORs ga into it (R267) -/
  | srset (d : BitVec 5) (a : BitVec 5) (n : BitVec 12)
  /-- SRCLR: Returns a system register and clears the bits of ga in it (R267) -/
  | srclr (d : BitVec 5) (a : BitVec 5) (n : BitVec 12)
  /-- LEASE: Asks the hub for a sprint lease on the cluster of ga ms and returns a status (R404) -/
  | lease (d : BitVec 5) (a : BitVec 5)
  /-- LEASEQ: Returns LEASESTAT of the cluster (R403) -/
  | leaseq (d : BitVec 5)
  /-- LEASEEND: Ends the cluster's lease early when it belongs to the context's ASID (R405) -/
  | leaseend (d : BitVec 5)
  /-- DICTLD: Starts a background load of dictionary bank b from a 512-byte local image (R224) -/
  | dictld (a : BitVec 5) (b : BitVec 2)
  /-- DICTSEL: Makes bank b the active dictionary bank (R225) -/
  | dictsel (b : BitVec 2)
  /-- DICTRD: Reads one dictionary entry into gd after any load finishes (R227) -/
  | dictrd (d : BitVec 5) (a : BitVec 5) (b : BitVec 2)
  /-- TRAP: Raises the software trap, cause 0x05, with TVAL n (R270) -/
  | trap (n : BitVec 10)
  /-- TLBINV_VA: Drops every translation of a page in an ASID module-wide and waits for completion (R272) -/
  | tlbinvVa (a : BitVec 5) (b : BitVec 5)
  /-- TLBINV_ASID: Drops every non-global translation and binding of an ASID module-wide (R273) -/
  | tlbinvAsid (a : BitVec 5)
  /-- LARM: Arms a device-armable launch record and receives the bridle's status (R266) -/
  | larm (d : BitVec 5) (a : BitVec 5)
  /-- ADD: 64-bit integer add (R241) -/
  | add (d : BitVec 5) (a : BitVec 5) (b : BitVec 5)
  /-- SUB: 64-bit integer subtract (R241) -/
  | sub (d : BitVec 5) (a : BitVec 5) (b : BitVec 5)
  /-- NEG: Integer negate (R241) -/
  | neg (d : BitVec 5) (a : BitVec 5)
  /-- ABS: Integer absolute value (R241) -/
  | abs (d : BitVec 5) (a : BitVec 5)
  /-- ADD_W: 32-bit add, sign-extended (R241) -/
  | addW (d : BitVec 5) (a : BitVec 5) (b : BitVec 5)
  /-- SUB_W: 32-bit subtract, sign-extended (R241) -/
  | subW (d : BitVec 5) (a : BitVec 5) (b : BitVec 5)
  /-- ADD_SAT: Saturating signed add (R241) -/
  | addSat (d : BitVec 5) (a : BitVec 5) (b : BitVec 5)
  /-- SUB_SAT: Saturating signed subtract (R241) -/
  | subSat (d : BitVec 5) (a : BitVec 5) (b : BitVec 5)
  /-- AND: Bitwise AND (R242) -/
  | and (d : BitVec 5) (a : BitVec 5) (b : BitVec 5)
  /-- OR: Bitwise OR (R242) -/
  | or (d : BitVec 5) (a : BitVec 5) (b : BitVec 5)
  /-- XOR: Bitwise XOR (R242) -/
  | xor (d : BitVec 5) (a : BitVec 5) (b : BitVec 5)
  /-- ANDN: ga AND NOT gb (R242) -/
  | andn (d : BitVec 5) (a : BitVec 5) (b : BitVec 5)
  /-- ORN: ga OR NOT gb (R242) -/
  | orn (d : BitVec 5) (a : BitVec 5) (b : BitVec 5)
  /-- XNOR: NOT (ga XOR gb) (R242) -/
  | xnor (d : BitVec 5) (a : BitVec 5) (b : BitVec 5)
  /-- NOT: Bitwise NOT (R242) -/
  | not (d : BitVec 5) (a : BitVec 5)
  /-- SHL: Shift left (R242) -/
  | shl (d : BitVec 5) (a : BitVec 5) (b : BitVec 5)
  /-- SHR: Logical shift right (R242) -/
  | shr (d : BitVec 5) (a : BitVec 5) (b : BitVec 5)
  /-- SRA: Arithmetic shift right (R242) -/
  | sra (d : BitVec 5) (a : BitVec 5) (b : BitVec 5)
  /-- ROL: Rotate left (R242) -/
  | rol (d : BitVec 5) (a : BitVec 5) (b : BitVec 5)
  /-- ROR: Rotate right (R242) -/
  | ror (d : BitVec 5) (a : BitVec 5) (b : BitVec 5)
  /-- SHL_W: 32-bit shift left, sign-extended (R242) -/
  | shlW (d : BitVec 5) (a : BitVec 5) (b : BitVec 5)
  /-- SHR_W: 32-bit logical shift right, sign-extended (R242) -/
  | shrW (d : BitVec 5) (a : BitVec 5) (b : BitVec 5)
  /-- SRA_W: 32-bit arithmetic shift right, sign-extended (R242) -/
  | sraW (d : BitVec 5) (a : BitVec 5) (b : BitVec 5)
  /-- MUL: Low 64 bits of the product (R243) -/
  | mul (d : BitVec 5) (a : BitVec 5) (b : BitVec 5)
  /-- MULH: High 64 bits of the signed product (R243) -/
  | mulh (d : BitVec 5) (a : BitVec 5) (b : BitVec 5)
  /-- MULHU: High 64 bits of the unsigned product (R243) -/
  | mulhu (d : BitVec 5) (a : BitVec 5) (b : BitVec 5)
  /-- MUL_W: Low 32 bits of the product, sign-extended (R243) -/
  | mulW (d : BitVec 5) (a : BitVec 5) (b : BitVec 5)
  /-- DIV: Signed 64-bit divide (R244) -/
  | div (d : BitVec 5) (a : BitVec 5) (b : BitVec 5)
  /-- DIVU: Unsigned 64-bit divide (R244) -/
  | divu (d : BitVec 5) (a : BitVec 5) (b : BitVec 5)
  /-- REM: Signed 64-bit remainder (R244) -/
  | rem (d : BitVec 5) (a : BitVec 5) (b : BitVec 5)
  /-- REMU: Unsigned 64-bit remainder (R244) -/
  | remu (d : BitVec 5) (a : BitVec 5) (b : BitVec 5)
  /-- DIV_W: Signed 32-bit divide (R244) -/
  | divW (d : BitVec 5) (a : BitVec 5) (b : BitVec 5)
  /-- DIVU_W: Unsigned 32-bit divide, sign-extended (R244) -/
  | divuW (d : BitVec 5) (a : BitVec 5) (b : BitVec 5)
  /-- REM_W: Signed 32-bit remainder (R244) -/
  | remW (d : BitVec 5) (a : BitVec 5) (b : BitVec 5)
  /-- REMU_W: Unsigned 32-bit remainder, sign-extended (R244) -/
  | remuW (d : BitVec 5) (a : BitVec 5) (b : BitVec 5)
  /-- CMP: Integer compare of two registers into a predicate (R247) -/
  | cmp (d : BitVec 3) (a : BitVec 5) (b : BitVec 5) (c : Cond)
  /-- PAND: Predicate AND (R248) -/
  | pand (d : BitVec 3) (a : BitVec 3) (b : BitVec 3)
  /-- POR: Predicate OR (R248) -/
  | por (d : BitVec 3) (a : BitVec 3) (b : BitVec 3)
  /-- PXOR: Predicate XOR (R248) -/
  | pxor (d : BitVec 3) (a : BitVec 3) (b : BitVec 3)
  /-- PANDN: Predicate AND NOT (R248) -/
  | pandn (d : BitVec 3) (a : BitVec 3) (b : BitVec 3)
  /-- PNOT: Predicate NOT (R248) -/
  | pnot (d : BitVec 3) (a : BitVec 3)
  /-- PREAD: Copies p0 to p7 into gd (R248) -/
  | pread (d : BitVec 5)
  /-- PWRITE: Sets p1 to p7 from ga[7:1] (R248) -/
  | pwrite (a : BitVec 5)
  /-- PTEST: Sets a predicate when ga is non-zero (R248) -/
  | ptest (d : BitVec 3) (a : BitVec 5)
  /-- SEL: Selects ga or gb by predicate pN (R245) -/
  | sel (d : BitVec 5) (a : BitVec 5) (b : BitVec 5) (n : BitVec 3)
  /-- SMIN: Signed minimum (R245) -/
  | smin (d : BitVec 5) (a : BitVec 5) (b : BitVec 5)
  /-- SMAX: Signed maximum (R245) -/
  | smax (d : BitVec 5) (a : BitVec 5) (b : BitVec 5)
  /-- UMIN: Unsigned minimum (R245) -/
  | umin (d : BitVec 5) (a : BitVec 5) (b : BitVec 5)
  /-- UMAX: Unsigned maximum (R245) -/
  | umax (d : BitVec 5) (a : BitVec 5) (b : BitVec 5)
  /-- POPC: Counts set bits (R245) -/
  | popc (d : BitVec 5) (a : BitVec 5)
  /-- CLZ: Counts leading zero bits (R245) -/
  | clz (d : BitVec 5) (a : BitVec 5)
  /-- CTZ: Counts trailing zero bits (R245) -/
  | ctz (d : BitVec 5) (a : BitVec 5)
  /-- EXT: Extracts a bit field, zero-extended (R245) -/
  | ext (d : BitVec 5) (a : BitVec 5) (b : BitVec 5)
  /-- EXTS: Extracts a bit field, sign-extended (R245) -/
  | exts (d : BitVec 5) (a : BitVec 5) (b : BitVec 5)
  /-- INS: Inserts the low bits of ga into a field of gd (R245) -/
  | ins (d : BitVec 5) (a : BitVec 5) (b : BitVec 5)
  /-- ADDI: Adds a signed 14-bit immediate (R246) -/
  | addi (d : BitVec 5) (a : BitVec 5) (i : BitVec 14)
  /-- ANDI: AND with a sign-extended 11-bit immediate (R246) -/
  | andi (d : BitVec 5) (a : BitVec 5) (i : BitVec 11)
  /-- ORI: OR with a sign-extended 11-bit immediate (R246) -/
  | ori (d : BitVec 5) (a : BitVec 5) (i : BitVec 11)
  /-- XORI: XOR with a sign-extended 11-bit immediate (R246) -/
  | xori (d : BitVec 5) (a : BitVec 5) (i : BitVec 11)
  /-- SHLI: Shift left by an immediate (R246) -/
  | shli (d : BitVec 5) (a : BitVec 5) (n : BitVec 6)
  /-- SHRI: Logical shift right by an immediate (R246) -/
  | shri (d : BitVec 5) (a : BitVec 5) (n : BitVec 6)
  /-- SRAI: Arithmetic shift right by an immediate (R246) -/
  | srai (d : BitVec 5) (a : BitVec 5) (n : BitVec 6)
  /-- RORI: Rotate right by an immediate (R246) -/
  | rori (d : BitVec 5) (a : BitVec 5) (n : BitVec 6)
  /-- CMPI: Compares a register with a sign-extended immediate into a predicate (R247) -/
  | cmpi (d : BitVec 3) (a : BitVec 5) (c : Cond) (i : BitVec 11)
  /-- FADD: FP32 or FP64 add, rounded once (R250) -/
  | fadd (t : Bool) (d : BitVec 5) (a : BitVec 5) (b : BitVec 5) (r : Rm)
  /-- FSUB: FP32 or FP64 subtract (R250) -/
  | fsub (t : Bool) (d : BitVec 5) (a : BitVec 5) (b : BitVec 5) (r : Rm)
  /-- FMUL: FP32 or FP64 multiply (R250) -/
  | fmul (t : Bool) (d : BitVec 5) (a : BitVec 5) (b : BitVec 5) (r : Rm)
  /-- FDIV: FP32 or FP64 divide (R250) -/
  | fdiv (t : Bool) (d : BitVec 5) (a : BitVec 5) (b : BitVec 5) (r : Rm)
  /-- FSQRT: FP32 or FP64 square root (R250) -/
  | fsqrt (t : Bool) (d : BitVec 5) (a : BitVec 5) (r : Rm)
  /-- FMIN: Floating minimum by the rules of R140 (R250) -/
  | fmin (t : Bool) (d : BitVec 5) (a : BitVec 5) (b : BitVec 5)
  /-- FMAX: Floating maximum by the rules of R140 (R250) -/
  | fmax (t : Bool) (d : BitVec 5) (a : BitVec 5) (b : BitVec 5)
  /-- FABS: Clears the sign bit (R250) -/
  | fabs (t : Bool) (d : BitVec 5) (a : BitVec 5)
  /-- FNEG: Inverts the sign bit (R250) -/
  | fneg (t : Bool) (d : BitVec 5) (a : BitVec 5)
  /-- FMA: Fused multiply-add ga × gb + gc, rounded once (R251) -/
  | fma (t : Bool) (d : BitVec 5) (a : BitVec 5) (b : BitVec 5) (c : BitVec 5) (r : Rm)
  /-- FMS: Fused ga × gb − gc (R251) -/
  | fms (t : Bool) (d : BitVec 5) (a : BitVec 5) (b : BitVec 5) (c : BitVec 5) (r : Rm)
  /-- FNMA: Fused −(ga × gb) + gc (R251) -/
  | fnma (t : Bool) (d : BitVec 5) (a : BitVec 5) (b : BitVec 5) (c : BitVec 5) (r : Rm)
  /-- FNMS: Fused −(ga × gb) − gc (R251) -/
  | fnms (t : Bool) (d : BitVec 5) (a : BitVec 5) (b : BitVec 5) (c : BitVec 5) (r : Rm)
  /-- FEQ: Floating equal compare into a predicate (R252) -/
  | feq (d : BitVec 3) (a : BitVec 5) (b : BitVec 5) (t : Bool)
  /-- FLT: Floating less-than compare (R252) -/
  | flt (d : BitVec 3) (a : BitVec 5) (b : BitVec 5) (t : Bool)
  /-- FLE: Floating less-or-equal compare (R252) -/
  | fle (d : BitVec 3) (a : BitVec 5) (b : BitVec 5) (t : Bool)
  /-- FUN: Floating unordered compare (R252) -/
  | fun (d : BitVec 3) (a : BitVec 5) (b : BitVec 5) (t : Bool)
  /-- FCLASS: Writes the one-hot class mask of an FP32 or FP64 value (R252) -/
  | fclass (d : BitVec 5) (a : BitVec 5) (t : Bool)
  /-- CVT_S_D: Narrows FP64 to FP32 (R253) -/
  | cvtSD (d : BitVec 5) (a : BitVec 5) (r : Rm)
  /-- CVT_D_S: Widens FP32 to FP64 exactly (R253) -/
  | cvtDS (d : BitVec 5) (a : BitVec 5)
  /-- CVT_S_L: Converts a signed 64-bit integer to FP32 or FP64 (R253) -/
  | cvtSL (d : BitVec 5) (a : BitVec 5) (r : Rm) (t : Bool)
  /-- CVT_L_S: Converts FP32 or FP64 to a saturated signed 64-bit integer (R253) -/
  | cvtLS (d : BitVec 5) (a : BitVec 5) (r : Rm) (t : Bool)
  /-- CVT_S_LU: Converts an unsigned 64-bit integer to FP32 or FP64 (R253) -/
  | cvtSLu (d : BitVec 5) (a : BitVec 5) (r : Rm) (t : Bool)
  /-- CVT_LU_S: Converts FP32 or FP64 to a saturated unsigned 64-bit integer (R253) -/
  | cvtLuS (d : BitVec 5) (a : BitVec 5) (r : Rm) (t : Bool)
  /-- CVT_BF_S: Narrows FP32 to BF16 or FP16 (R253) -/
  | cvtBfS (d : BitVec 5) (a : BitVec 5) (r : Rm) (h : Bool)
  /-- CVT_E4_S: Narrows FP32 to E4M3 or E5M2 (R253) -/
  | cvtE4S (d : BitVec 5) (a : BitVec 5) (r : Rm) (e : Bool)
  /-- CVT_S_BF: Widens BF16 or FP16 to FP32 exactly (R253) -/
  | cvtSBf (d : BitVec 5) (a : BitVec 5) (h : Bool)
  /-- CVT_S_E4: Widens E4M3 or E5M2 to FP32 exactly (R253) -/
  | cvtSE4 (d : BitVec 5) (a : BitVec 5) (e : Bool)
  /-- VADD: Vector 32-bit add (R306) -/
  | vadd (v : BitVec 4) (s : BitVec 4) (t : BitVec 4) (l : Lp) (g : BitVec 2) (k : BitVec 2)
  /-- VSUB: Vector 32-bit subtract (R306) -/
  | vsub (v : BitVec 4) (s : BitVec 4) (t : BitVec 4) (l : Lp) (g : BitVec 2) (k : BitVec 2)
  /-- VADD_SAT: Vector signed saturating add (R306) -/
  | vaddSat (v : BitVec 4) (s : BitVec 4) (t : BitVec 4) (l : Lp) (g : BitVec 2) (k : BitVec 2)
  /-- VSUB_SAT: Vector signed saturating subtract (R306) -/
  | vsubSat (v : BitVec 4) (s : BitVec 4) (t : BitVec 4) (l : Lp) (g : BitVec 2) (k : BitVec 2)
  /-- VADDU_SAT: Vector unsigned saturating add (R306) -/
  | vadduSat (v : BitVec 4) (s : BitVec 4) (t : BitVec 4) (l : Lp) (g : BitVec 2) (k : BitVec 2)
  /-- VSUBU_SAT: Vector unsigned saturating subtract (R306) -/
  | vsubuSat (v : BitVec 4) (s : BitVec 4) (t : BitVec 4) (l : Lp) (g : BitVec 2) (k : BitVec 2)
  /-- VNEG: Vector negate (R306) -/
  | vneg (v : BitVec 4) (s : BitVec 4) (k : BitVec 2)
  /-- VAND: Vector AND (R306) -/
  | vand (v : BitVec 4) (s : BitVec 4) (t : BitVec 4) (l : Lp) (g : BitVec 2) (k : BitVec 2)
  /-- VOR: Vector OR (R306) -/
  | vor (v : BitVec 4) (s : BitVec 4) (t : BitVec 4) (l : Lp) (g : BitVec 2) (k : BitVec 2)
  /-- VXOR: Vector XOR (R306) -/
  | vxor (v : BitVec 4) (s : BitVec 4) (t : BitVec 4) (l : Lp) (g : BitVec 2) (k : BitVec 2)
  /-- VANDN: Vector AND NOT (R306) -/
  | vandn (v : BitVec 4) (s : BitVec 4) (t : BitVec 4) (l : Lp) (g : BitVec 2) (k : BitVec 2)
  /-- VNOT: Vector NOT (R306) -/
  | vnot (v : BitVec 4) (s : BitVec 4) (k : BitVec 2)
  /-- VSHL: Vector shift left (R306) -/
  | vshl (v : BitVec 4) (s : BitVec 4) (t : BitVec 4) (l : Lp) (g : BitVec 2) (k : BitVec 2)
  /-- VSHR: Vector logical shift right (R306) -/
  | vshr (v : BitVec 4) (s : BitVec 4) (t : BitVec 4) (l : Lp) (g : BitVec 2) (k : BitVec 2)
  /-- VSRA: Vector arithmetic shift right (R306) -/
  | vsra (v : BitVec 4) (s : BitVec 4) (t : BitVec 4) (l : Lp) (g : BitVec 2) (k : BitVec 2)
  /-- VMUL: Vector low 32-bit multiply (R306) -/
  | vmul (v : BitVec 4) (s : BitVec 4) (t : BitVec 4) (l : Lp) (g : BitVec 2) (k : BitVec 2)
  /-- VMULH: Vector signed high multiply (R306) -/
  | vmulh (v : BitVec 4) (s : BitVec 4) (t : BitVec 4) (l : Lp) (g : BitVec 2) (k : BitVec 2)
  /-- VMULHU: Vector unsigned high multiply (R306) -/
  | vmulhu (v : BitVec 4) (s : BitVec 4) (t : BitVec 4) (l : Lp) (g : BitVec 2) (k : BitVec 2)
  /-- VMLA: Vector multiply-accumulate into vd (R306) -/
  | vmla (v : BitVec 4) (s : BitVec 4) (t : BitVec 4) (l : Lp) (g : BitVec 2) (k : BitVec 2)
  /-- VSMIN: Vector signed minimum (R306) -/
  | vsmin (v : BitVec 4) (s : BitVec 4) (t : BitVec 4) (l : Lp) (g : BitVec 2) (k : BitVec 2)
  /-- VSMAX: Vector signed maximum (R306) -/
  | vsmax (v : BitVec 4) (s : BitVec 4) (t : BitVec 4) (l : Lp) (g : BitVec 2) (k : BitVec 2)
  /-- VUMIN: Vector unsigned minimum (R306) -/
  | vumin (v : BitVec 4) (s : BitVec 4) (t : BitVec 4) (l : Lp) (g : BitVec 2) (k : BitVec 2)
  /-- VUMAX: Vector unsigned maximum (R306) -/
  | vumax (v : BitVec 4) (s : BitVec 4) (t : BitVec 4) (l : Lp) (g : BitVec 2) (k : BitVec 2)
  /-- VABS: Vector absolute value (R306) -/
  | vabs (v : BitVec 4) (s : BitVec 4) (k : BitVec 2)
  /-- VCMP: Vector integer compare into a mask (R307) -/
  | vcmp (d : BitVec 2) (s : BitVec 4) (t : BitVec 4) (l : Lp) (g : BitVec 2) (k : BitVec 2) (c : Cond)
  /-- VFADD: Vector FP32, BF16 or FP64 add (R309) -/
  | vfadd (y : VTy) (v : BitVec 4) (s : BitVec 4) (t : BitVec 4) (l : Lp) (g : BitVec 2) (k : BitVec 2) (r : Rm)
  /-- VFSUB: Vector floating subtract (R309) -/
  | vfsub (y : VTy) (v : BitVec 4) (s : BitVec 4) (t : BitVec 4) (l : Lp) (g : BitVec 2) (k : BitVec 2) (r : Rm)
  /-- VFMUL: Vector floating multiply (R309) -/
  | vfmul (y : VTy) (v : BitVec 4) (s : BitVec 4) (t : BitVec 4) (l : Lp) (g : BitVec 2) (k : BitVec 2) (r : Rm)
  /-- VFMIN: Vector floating minimum (R309) -/
  | vfmin (y : VTy) (v : BitVec 4) (s : BitVec 4) (t : BitVec 4) (l : Lp) (g : BitVec 2) (k : BitVec 2)
  /-- VFMAX: Vector floating maximum (R309) -/
  | vfmax (y : VTy) (v : BitVec 4) (s : BitVec 4) (t : BitVec 4) (l : Lp) (g : BitVec 2) (k : BitVec 2)
  /-- VFMA: Vector fused vs × vt + vc (R310) -/
  | vfma (y : VTy) (v : BitVec 4) (s : BitVec 4) (t : BitVec 4) (c : BitVec 4) (l : Lp) (g : BitVec 2) (k : BitVec 2)
  /-- VFMS: Vector fused vs × vt − vc (R310) -/
  | vfms (y : VTy) (v : BitVec 4) (s : BitVec 4) (t : BitVec 4) (c : BitVec 4) (l : Lp) (g : BitVec 2) (k : BitVec 2)
  /-- VFCMP: Vector floating compare into a mask (R311) -/
  | vfcmp (d : BitVec 2) (s : BitVec 4) (t : BitVec 4) (l : Lp) (g : BitVec 2) (k : BitVec 2) (y : VTy) (c : FCmp)
  /-- VSEL: Selects vs or vt per lane by mask mN (R312) -/
  | vsel (v : BitVec 4) (s : BitVec 4) (t : BitVec 4) (l : Lp) (g : BitVec 2) (k : BitVec 2)
  /-- VMOV: Copies vt into active lanes of vd (R312) -/
  | vmov (v : BitVec 4) (t : BitVec 4) (l : Lp) (g : BitVec 2) (k : BitVec 2)
  /-- MAND: Mask AND (R313) -/
  | mand (d : BitVec 2) (s : BitVec 2) (t : BitVec 2)
  /-- MOR: Mask OR (R313) -/
  | mor (d : BitVec 2) (s : BitVec 2) (t : BitVec 2)
  /-- MXOR: Mask XOR (R313) -/
  | mxor (d : BitVec 2) (s : BitVec 2) (t : BitVec 2)
  /-- MANDN: Mask AND NOT (R313) -/
  | mandn (d : BitVec 2) (s : BitVec 2) (t : BitVec 2)
  /-- MNOT: Mask NOT (R313) -/
  | mnot (d : BitVec 2) (s : BitVec 2)
  /-- MALL: Sets every mask bit (R313) -/
  | mall (d : BitVec 2)
  /-- MNONE: Clears every mask bit (R313) -/
  | mnone (d : BitVec 2)
  /-- MMOV: Copies a mask (R313) -/
  | mmov (d : BitVec 2) (s : BitVec 2)
  /-- VBCAST: Broadcasts gs[31:0] to active lanes (R314) -/
  | vbcast (v : BitVec 4) (s : BitVec 4) (k : BitVec 2) (h : BitVec 1)
  /-- VINS: Inserts gs[31:0] into lane gs[39:32] (R314) -/
  | vins (v : BitVec 4) (s : BitVec 4) (h : BitVec 1)
  /-- VEXT: Extracts lane 0 of the transformed vt into gd (R314) -/
  | vext (d : BitVec 4) (t : BitVec 4) (l : Lp) (g : BitVec 2) (h : BitVec 1)
  /-- MRD: Reads 64 bits of a mask into gd (R314) -/
  | mrd (d : BitVec 4) (n : BitVec 2) (w : BitVec 2) (h : BitVec 1)
  /-- MWR: Writes 64 bits of a mask from gs (R314) -/
  | mwr (n : BitVec 2) (s : BitVec 4) (w : BitVec 2) (h : BitVec 1)
  /-- MPOPC: Counts the set bits of a mask below VL (R314) -/
  | mpopc (d : BitVec 4) (n : BitVec 2) (h : BitVec 1)
  /-- VLEN: Writes the vector length VL to gd (R314) -/
  | vlen (d : BitVec 4) (h : BitVec 1)
  /-- VCVT_S_W: Vector INT32 to FP32 (R315) -/
  | vcvtSW (v : BitVec 4) (s : BitVec 4) (r : Rm) (k : BitVec 2)
  /-- VCVT_W_S: Vector FP32 to saturated INT32 (R315) -/
  | vcvtWS (v : BitVec 4) (s : BitVec 4) (r : Rm) (k : BitVec 2)
  /-- VCVT_BF_S: Vector FP32 to BF16 in the low or high half (R315) -/
  | vcvtBfS (v : BitVec 4) (s : BitVec 4) (r : Rm) (k : BitVec 2) (h : Bool)
  /-- VCVT_S_BF: Vector BF16 half to FP32 (R315) -/
  | vcvtSBf (v : BitVec 4) (s : BitVec 4) (k : BitVec 2) (h : Bool)
  /-- VCVT_H_S: Vector FP32 to FP16 in the low or high half (R315) -/
  | vcvtHS (v : BitVec 4) (s : BitVec 4) (r : Rm) (k : BitVec 2) (h : Bool)
  /-- VCVT_S_H: Vector FP16 half to FP32 (R315) -/
  | vcvtSH (v : BitVec 4) (s : BitVec 4) (k : BitVec 2) (h : Bool)
  /-- VCVT_E_S: Vector FP32 to E4M3 or E5M2 in byte p (R315) -/
  | vcvtES (v : BitVec 4) (s : BitVec 4) (r : Rm) (p : BitVec 2) (k : BitVec 2) (e : Bool)
  /-- VCVT_S_E: Vector E4M3 or E5M2 byte p to FP32 (R315) -/
  | vcvtSE (v : BitVec 4) (s : BitVec 4) (p : BitVec 2) (k : BitVec 2) (e : Bool)
  /-- VCVT_B_W: Vector INT32 to saturated INT8 in byte p (R315) -/
  | vcvtBW (v : BitVec 4) (s : BitVec 4) (p : BitVec 2) (k : BitVec 2)
  /-- VCVT_W_B: Vector INT8 byte p to INT32 (R315) -/
  | vcvtWB (v : BitVec 4) (s : BitVec 4) (p : BitVec 2) (k : BitVec 2)
  /-- VCVT_D_S: Vector FP32 to FP64 elements (R315) -/
  | vcvtDS (v : BitVec 4) (s : BitVec 4) (k : BitVec 2)
  /-- VCVT_S_D: Vector FP64 elements to FP32 (R315) -/
  | vcvtSD (v : BitVec 4) (s : BitVec 4) (r : Rm) (k : BitVec 2)
  /-- VRED: Reduces the active lanes of vs into lane 0 of vd (R316) -/
  | vred (v : BitVec 4) (s : BitVec 4) (k : BitVec 2) (o : VRedOp)
  /-- VPERM: Permutes lanes of vs by indices in vt, across blocks (R317) -/
  | vperm (v : BitVec 4) (s : BitVec 4) (t : BitVec 4) (l : Lp) (g : BitVec 2) (k : BitVec 2)
  /-- VPERM_B: Permutes lanes of vs within each block (R317) -/
  | vpermB (v : BitVec 4) (s : BitVec 4) (t : BitVec 4) (l : Lp) (g : BitVec 2) (k : BitVec 2)
  /-- VCOMPRESS: Packs the active lanes of vs into the low lanes of vd (R317) -/
  | vcompress (v : BitVec 4) (s : BitVec 4) (k : BitVec 2)
  /-- SFUFENCE: Waits until the context's SFU busy flag is clear (R292) -/
  | sfufence
  /-- NOP: Word-A no-operation (R263) -/
  | nop
  /-- YIELD: Hands core ownership to the next READY context in ring order (R263) -/
  | yield
  /-- RET: Jumps to lr (R258) -/
  | ret
  /-- HALT: Takes the context to HALTING and starts the halt sequence of R198 (R264) -/
  | halt
  /-- SPLIT: Ends the gang, leaving four independent contexts (R186) -/
  | split
  /-- VREL: Returns every lane block to the pool (R300) -/
  | vrel
  /-- DICTFENCE: Waits for a dictionary load to finish and discards bundles decoded past it (R226) -/
  | dictfence
  /-- RFT: Returns from a trap to TRAPPC, restoring the mode and retranslating FAULTED replay entries (R271) -/
  | rft
  /-- TLBINV_ALL: Drops every cached translation and ASID table entry module-wide (R272) -/
  | tlbinvAll
  /-- ICSYNC: Waits for earlier stores and invalidates the core's instruction cache (R274) -/
  | icsync
  /-- ARITHMETIC_NO_OP: Word-B no-operation (R210) -/
  | arithmeticNoOp
  /-- MMA: Matrix command that multiplies A by B into an accumulator slot, started from the matrix queue in order (R337) -/
  | mma (site : Nat) (core : Nat) (steps : Option Nat)
  /-- MDIST: Matrix command that accumulates squared differences into a slot (R337) -/
  | mdist (site : Nat) (core : Nat) (steps : Option Nat)
  /-- TOPK: Matrix command that scores rows and merges the best KS into lists in local memory (R339) -/
  | topk (site : Nat) (core : Nat) (steps : Option Nat)
  /-- ACZ: Matrix command that claims a slot and sets it to zero (R341) -/
  | acz (site : Nat) (core : Nat)
  /-- ACL: Matrix command that claims a slot and loads it from memory (R341) -/
  | acl (site : Nat) (core : Nat)
  /-- EPI: Fused epilogue that scales, biases, activates and stores a slot's elements, then frees or keeps it (R342) -/
  | epi (site : Nat) (core : Nat) (steps : Option Nat)
  /-- OUTPUT_BUFFER_DRAIN: An epilogue output-buffer entry leaves as a store once replay-queue room allows (R343) -/
  | outputBufferDrain (site : Nat) (core : Nat)
  /-- ENGINE_COUNT_DOWN: A command, copy or SFU request whose writes are performed decrements oct or occ or clears the busy flag (R126) -/
  | engineCountDown (r : CtxRef)
  /-- CPCTL_GO: Writing GO arms the context's copy shadow set and increments occ (R350) -/
  | cpctlGo (r : CtxRef) (v : BitVec 64)
  /-- SHADOW_SWAP_IN: The copy engine swaps in the next armed shadow set, checks it and runs the copy (R350) -/
  | shadowSwapIn (site : Nat) (core : Nat) (steps : Option Nat)
  /-- FAULT_RECORD_CLEAR: Writing 1 to VALID of MXFAULT or CPFAULT clears the record (R329) -/
  | faultRecordClear (r : CtxRef) (copy : Bool)
  /-- SFU_REQUEST_START: The SFU starts the next queued request in queue order (R325) -/
  | sfuRequestStart (site : Nat) (octet : Nat)
  /-- SFU_RESULT: A request's result lands in gd after its latency, or a map finishes its steps (R325) -/
  | sfuResult (site : Nat) (octet : Nat)
  /-- MISS_RETRY: A die-TLB miss that found all miss entries busy is presented again after 16 core cycles (R40) -/
  | missRetry (r : CtxRef)
  /-- WALK: A hub walker takes a queued miss, walks the page table and sets A or D as needed (R36) -/
  | walk (site : Nat) (idx : Nat)
  /-- SLICE_REQUEST: An L2 slice takes, joins or refuses an arriving request with a retry hint (R84) -/
  | sliceRequest (id : Nat)
  /-- RETRY_TIMER_EXPIRY: A refused request's retry timer expires and the request is presented again, aged after four refusals (R85) -/
  | retryTimerExpiry (id : Nat)
  /-- MISS_FILL: A DRAM fill arrives at a slice miss entry and serves its joined requests (R84) -/
  | missFill (id : Nat)
  /-- RECALL: An owned line is recalled for another access and returned within 32 core cycles (R146) -/
  | recall (site : Nat) (core : Nat) (line : Nat)
  /-- OWNED_LINE_TIMEOUT: An owned line is returned after 1,024 hub cycles without an atomic (R146) -/
  | ownedLineTimeout (site : Nat) (core : Nat) (line : Nat)
  /-- FAR_ATOMIC: An atomic executes at the line's home slice (R145) -/
  | farAtomic (id : Nat)
  /-- REDUCTION_PACKET_ARRIVAL: A reduction packet reaching a queue merges with a waiting packet of the same word and operation (R153) -/
  | reductionPacketArrival (id : Nat)
  /-- REDUCTION_APPLY: The home applies a (merged) reduction and acknowledges every contributor (R153) -/
  | reductionApply (id : Nat)
  /-- BUCKLE_ARRIVAL: A push or pop packet arrives at a switch, pairs with a waiting opposite packet, waits or departs (R162) -/
  | buckleArrival (id : Nat)
  /-- WINDOW_EXPIRY: A packet's pairing window ends and it departs toward the home (R162) -/
  | windowExpiry (id : Nat)
  /-- EXCHANGE_APPLY: The home applies a push or pop to the bag or stack descriptor and storage (R161) -/
  | exchangeApply (id : Nat)
  /-- WATCH_NOTIFY: A home or bank change of a watched word fires the waita (R291) -/
  | watchNotify (r : CtxRef)
  /-- WATCH_POLL: A watched global word without a hub entry is polled every 256 hub cycles (R291) -/
  | watchPoll (r : CtxRef)
  /-- WAITA_TIMEOUT: waita ends with 4 when its timeout passes (R291) -/
  | waitaTimeout (r : CtxRef)
  /-- REPLY_ARRIVAL: An off-core reply lands and its PARKED context becomes READY, or is spilled into the save image (R178) -/
  | replyArrival (id : Nat)
  /-- FLOOR_ISSUE: A READY context whose count reaches 13 issues one cycle in place of the owner (R180) -/
  | floorIssue (r : CtxRef)
  /-- TRAP_ENTRY: A synchronous or asynchronous cause enters the handler, saving TRAPPC, TSTAT, TCAUSE and TVAL (R372) -/
  | trapEntry (r : CtxRef)
  /-- END_CONTEXT: A fatal cause records a trap record, discards the context's work, frees it and may roll back its group (R383) -/
  | endContext (r : CtxRef)
  /-- PREEMPTION_ACCEPT: A context accepts a pre-emption request and the resident handler drains and saves it (R374) -/
  | preemptionAccept (r : CtxRef)
  /-- RESUMPTION: The bridle resumes a PREEMPTED context once reservations are met and the core restores its state (R378) -/
  | resumption (r : CtxRef)
  /-- HALT_SEQUENCE: A HALTING context, once its counters drain, fences, releases resources, performs handle transitions and becomes FREE (R198) -/
  | haltSequence (r : CtxRef)
  /-- GANG_TIMEOUT: A gang not formed within 65,536 core cycles returns status 2 (R184) -/
  | gangTimeout (r : CtxRef)
  /-- PHASE_COMPLETE: All member cores of a girth group have arrived; the phase bit flips and waiters complete (R193) -/
  | phaseComplete (site : Nat) (group : Nat)
  /-- GIRTH_TIMEOUT: A waitb exceeds the group timeout and takes cause 0x10 with the missing-member mask (R196) -/
  | girthTimeout (r : CtxRef)
  /-- BARRIER_PACKET: A hub barrier packet from another die or module reports arrivals of a spanning group (R298) -/
  | barrierPacket (site : Nat) (group : Nat) (src : Nat)
  /-- NPCOUNT_LIMIT: NPCOUNT reaches NPLIM and the context ends with cause 0x11 (R380) -/
  | npcountLimit (r : CtxRef)
  /-- DICTIONARY_LOAD_COMPLETE: A background dictld finishes writing its bank and LOADING falls to 0 (R224) -/
  | dictionaryLoadComplete (r : CtxRef)
  /-- REPLAY_ENTRY_ISSUE: The replay queue performs the next entry of a page once the previous one is acknowledged (R130) -/
  | replayEntryIssue (site : Nat) (core : Nat) (idx : Nat)
  /-- BANK_POWER_GATE: A task-space bank idle for 1,024 core cycles with no covering region is gated and loses its contents (R68) -/
  | bankPowerGate (site : Nat) (core : Nat) (bank : Nat)
  /-- RETAIN_TIMEOUT: RETAINTO expires before the successor is dispatched and the RETAINED regions become FREE (R77) -/
  | retainTimeout (site : Nat) (core : Nat) (slot : Nat)
  /-- UNCORRECTABLE_ERROR: An uncorrectable error is found and handled by where it lies: refetch, poison, cause 0x30 or zeroing (R94) -/
  | uncorrectableError (e : ErrWhere)
  /-- PATROL_SCRUB: The hub scrubs the next DRAM line, correcting or poisoning it (R95) -/
  | patrolScrub (site : Nat) (find : ScrubFind)
  /-- ARM: The owning bridle reads and validates a launch record and makes it ARMED (R357) -/
  | arm (rec : Nat)
  /-- COMPLETE: After every task halts the record returns to IDLE and decrements or cancels its successors (R357) -/
  | complete (rec : Nat)
  /-- BLOCK_DEAL: The owning bridle deals the next block to a die's bridle once its task-record store has room (R359) -/
  | blockDeal (rec : Nat)
  /-- DISPATCH: In a hub cycle with a FREE context the die's bridle places a task record, grants footprints and writes identity (R360) -/
  | dispatch (site : Nat)
  /-- HQTAIL_WRITE: A host write of the tail pointer makes new ring entries available for consumption (R368) -/
  | hqtailWrite (site : Nat) (slot : Nat) (v : BitVec 64)
  /-- NOP_ENTRY: A NOP ring entry is consumed and retired (R368) -/
  | nopEntry (site : Nat) (slot : Nat)
  /-- LAUNCH_ENTRY: A LAUNCH ring entry waits for its record to be IDLE and then arms it (R368) -/
  | launchEntry (site : Nat) (slot : Nat)
  /-- SIGNAL_ENTRY: A SIGNAL entry waits for earlier entries to retire and writes its value at system scope (R368) -/
  | signalEntry (site : Nat) (slot : Nat)
  /-- HQCTL_WRITE: A host write of HQCTL enables the slot or clears its ERROR state (R367) -/
  | hqctlWrite (site : Nat) (slot : Nat) (v : BitVec 64)
  /-- HQDESC_WRITE: A write of HQDESC saves the slot to its descriptor and loads another or empties the slot (R369) -/
  | hqdescWrite (site : Nat) (slot : Nat) (v : BitVec 64)
  /-- ROW_WITHHOLD: Every 100 µs the bridle withholds or releases a row by temperature and power budget (R396) -/
  | rowWithhold (site : Nat) (row : Nat) (temp : Nat) (power : Nat)
  /-- TQCONS_WRITE: Consuming trap records frees entries and lets held fatal records be written (R381) -/
  | tqconsWrite (site : Nat) (v : BitVec 64)
  /-- PRE_EMPT: PREEMPT OP 0 with GO requests pre-emption of the named contexts (R379) -/
  | preEmpt (site : Nat) (core : Nat) (ctxm : BitVec 4)
  /-- PRE_EMPT_AND_HOLD: PREEMPT OP 1 requests pre-emption and holds the contexts (R379) -/
  | preEmptAndHold (site : Nat) (core : Nat) (ctxm : BitVec 4)
  /-- RESUME_HELD_CONTEXTS: PREEMPT OP 2 lets held contexts be chosen for resumption (R379) -/
  | resumeHeldContexts (site : Nat) (core : Nat) (ctxm : BitVec 4)
  /-- HALT_TREE_STOP: HTCTL STOP stops every core of the partition at a bundle boundary (R384) -/
  | haltTreeStop (site : Nat)
  /-- HALT_TREE_RELEASE: HTCTL RELEASE returns every STOPPED context to its prior state, optionally with cause 0x23 (R384) -/
  | haltTreeRelease (site : Nat)
  /-- SELF_TEST_START: Each PERIOD the self-test engine requests held pre-emption of the next core (R386) -/
  | selfTestStart (site : Nat)
  /-- SELF_TEST_WITHDRAW: After 2 × NPLIM without acceptance the engine withdraws and counts a skip (R386) -/
  | selfTestWithdraw (site : Nat)
  /-- SELF_TEST_RESULT: A finished test resumes a passing core or retires a failing one, migrating or ending its contexts (R386) -/
  | selfTestResult (site : Nat) (pass : Bool)
  /-- OPEN_INTERVAL: CKCMD OP 1 opens a checkpoint interval and starts undo logging for a group (R387) -/
  | openInterval (site : Nat) (group : Nat)
  /-- CLOSE_INTERVAL: CKCMD OP 2 closes the group's interval, making its records dead (R387) -/
  | closeInterval (site : Nat) (group : Nat)
  /-- ROLL_BACK: Rollback ends the group's contexts and restores its logged lines newest first (R388) -/
  | rollBack (site : Nat) (group : Nat)
  /-- COPY_DRAM_TO_KEEP: CKCMD OP 4 copies each site's DRAM into its keep chiplet (R387) -/
  | copyDramToKeep (site : Nat)
  /-- COPY_KEEP_TO_DRAM: CKCMD OP 5 copies each keep chiplet back into DRAM (R387) -/
  | copyKeepToDram (site : Nat)
  /-- STALL_SAMPLE: Every 10 µs each core computes its stall ratio and may step its divider (R393) -/
  | stallSample (site : Nat) (core : Nat) (idle : Nat) (cycles : Nat) (energy : Nat)
  /-- MELT_ESTIMATE: Every 100 µs the hub updates the melt fraction and enters or leaves refreeze (R394) -/
  | meltEstimate (site : Nat) (frac : Nat)
  /-- LEASE_TIMER_EXPIRY: A lease's timer expires and the cluster goes to RAMPDOWN with cause 0x21 (R402) -/
  | leaseTimerExpiry (site : Nat) (cluster : Nat)
  /-- RAMPUP_COMPLETE: Every row reaches its target and the cluster enters SPRINT (R402) -/
  | rampupComplete (site : Nat) (cluster : Nat)
  /-- RAMPDOWN_COMPLETE: Cores and rows have stepped down and the lease returns to IDLE (R402) -/
  | rampdownComplete (site : Nat) (cluster : Nat)
  /-- VOLTAGE_STEP: The regulator moves a row's voltage one code per 100 ns toward its target (R389) -/
  | voltageStep (site : Nat) (row : Nat)
  /-- THROTTLE_START: A junction, current, coolant, external or FORCE alarm starts the site's fast throttle within 1 µs (R406) -/
  | throttleStart (site : Nat) (sense : SiteSense)
  /-- THROTTLE_END: After every alarm has been clear for THOLD µs the throttle ends (R406) -/
  | throttleEnd (site : Nat)
  /-- LEASECFG_KILL: Writing KILL ends every lease of the site with TVAL 4 (R402) -/
  | leasecfgKill (site : Nat) (v : BitVec 64)
  /-- ENERGY_FLUSH: At least once per ms each hub adds its accumulated energy to the table by merged reductions (R410) -/
  | energyFlush (site : Nat)
  /-- DIE_GATE: A compute die idle for DELAY µs is power-gated after its remote-data cache is flushed (R411) -/
  | dieGate (site : Nat)
  /-- DIE_WAKE: A gated die leaves the gate on dispatch, access, PREEMPT or stop within 20 µs (R412) -/
  | dieWake (site : Nat)
  /-- DEBUG_DICTIONARY_WRITE: A debug write of a dictionary entry takes effect only while the context is STOPPED and not loading (R233) -/
  | debugDictionaryWrite (r : CtxRef) (bank : Nat) (idx : Nat) (v : BitVec 64)
  /-- HUBERR_ERRNT_CLEAR: Writing 1 to ERRNT clears it so the next no-target access is logged with its address (R453) -/
  | huberrErrntClear (hub : Nat)
  /-- POISONADDR_VALID_CLEAR: Writing 1 to VALID of POISONADDR clears it (R96) -/
  | poisonaddrValidClear (hub : Nat)
  /-- HOST_MEM_ACCESS: A host CXL.mem or CXL.cache access to device memory, with back-invalidation as needed (R138) -/
  | hostMemAccess (port : Nat) (addr : Nat) (op : HostMemOp)
  /-- BISNP_RESPONSE: The host's response to a back-invalidate snoop lets the home proceed (R138) -/
  | bisnpResponse (line : Nat) (data : Option (List (BitVec 8)))
  /-- HOST_BAR0_ACCESS: A host access through BAR 0 reaches hub registers, through the bring-up aperture or by logical site (R420) -/
  | hostBar0Access (port : Nat) (off : Nat) (wr : Option (BitVec 64))
  /-- HOST_BAR2_ACCESS: A host access through BAR 2 reaches core local memory or engine registers (R421) -/
  | hostBar2Access (port : Nat) (off : Nat) (size : Nat) (wr : Option (BitVec 64))
  /-- POWER_ON: Power-on of the main rails begins a start with every hub OFF (R422) -/
  | powerOn
  /-- BOOTCMD_START: Writing START at an edge hub begins a start (R426) -/
  | bootcmdStart (hub : Nat)
  /-- CLOCK_LOCK: A hub locks to the reference clock or a neighbour's offer, records PARENT and becomes CLOCKED (R422) -/
  | clockLock (hub : Nat)
  /-- LINK_TRAIN: The link to PARENT or the test port trains and the hub becomes LINKED (R422) -/
  | linkTrain (hub : Nat)
  /-- HUB_TEST_RESULT: Hub test finishes, leaving the hub TESTED or FAILED and filling TESTRES (R422) -/
  | hubTestResult (hub : Nat) (logic : Bool) (res : List (BitVec 64))
  /-- CLOCKED_TIMEOUT: A CLOCKED hub not LINKED within 10 ms becomes FAILED (R422) -/
  | clockedTimeout (hub : Nat)
  /-- HUB_TEST_TIMEOUT: A hub test not finished within 500 ms leaves the hub FAILED (R422) -/
  | hubTestTimeout (hub : Nat)
  /-- COMMIT: Verifies the signed manifest and moves matching TESTED hubs to CONFIGURED (R426) -/
  | commit (hub : Nat)
  /-- SERVE: Checks the configured tables and moves every named hub to SERVING, or refuses with CFGERR (R426) -/
  | serve (hub : Nat)
  /-- CONFIG_SET_WRITE: A write to a configuration-set register returns a CONFIGURED hub to TESTED (R422) -/
  | configSetWrite (hub : Nat) (off : Nat) (v : BitVec 64)
  /-- START_FAILURE: No SERVE within 10 s fails the start, updating BOOTSTAT and entering halter mode on the third failure (R427) -/
  | startFailure
  /-- STANDBY_POWER_REMOVAL: Removal of standby power ends halter mode (R427) -/
  | standbyPowerRemoval
  /-- QUOTE: QCTL GO signs an attestation quote over QNONCE into QBUF (R436) -/
  | quote (hub : Nat)
  /-- MCTP_CONTROL: An MCTP control message over the sideband is answered (R437) -/
  | mctpControl (hub : Nat) (msg : Nat)
  /-- PLDM_SENSOR_READ: A PLDM request reads a platform sensor (R437) -/
  | pldmSensorRead (hub : Nat) (sensor : Sensor)
  /-- COOLANT_ALARM_EFFECTER: A PLDM effecter raises or clears the coolant alarm (R437) -/
  | coolantAlarmEffecter (hub : Nat) (on : Bool)
  /-- VENDOR_MESSAGE: A Kyist vendor message reads status registers, requests a quote or reads the certificate (R437) -/
  | vendorMessage (hub : Nat) (msg : VendorMsg)
  /-- MODULE_LINK_FLIT: A module-link flit is received, checked by CRC and replayed on failure (R430) -/
  | moduleLinkFlit (port : Nat) (crcOk : Bool) (flit : Flit)
  /-- MODULE_LINK_DOWN: A module link goes down and pending cross-module traffic is failed or held (R433) -/
  | moduleLinkDown (port : Nat)
  /-- MODULE_LINK_RETRAIN: A module link retrains and held replies and barrier packets are delivered (R433) -/
  | moduleLinkRetrain (port : Nat) (peer : Nat)
  /-- PEER_REPLY_TIMEOUT: A push or pop reply across a down link not delivered within 1 s gives cause 0x30 (R433) -/
  | peerReplyTimeout (id : Nat)
  /-- MULTICAST_BRANCH: A residual multicast copy sends a branch when its downstream credit returns (R419) -/
  | multicastBranch (b : McastBranch)
  /-- REGISTER_WRITE: A write to a register with no behaviour of its own sets its RW fields (R6) -/
  | registerWrite (hub : Nat) (off : Nat) (v : BitVec 64)
  /-- WRITE_ACKNOWLEDGED: The home's or bank's acknowledgement of a plain, narrowing or vector store, or of a remote-data-cache write-back, reaches the core; the write counts as performed and ocs decrements (R276) -/
  | writeAcknowledged (id : Nat)
  /-- MAIN_POWER_LOSS: Module power is lost, and only acknowledged keep-tier writes held in the power-fail-protected buffer survive (R91) -/
  | mainPowerLoss
  /-- STANDBY_POWER_APPLIED: Standby power is applied, which resets the standby store behind BOOTSTAT.STARTS and powers the sideband endpoints (R427) -/
  | standbyPowerApplied
  /-- HOST_PORT_TRAIN: A CXL port's link trains, at some width and rate, and becomes usable for host traffic and for HAPDEC claims (R428) -/
  | hostPortTrain (port : Nat) (up : Bool)
  /-- TEST_PORT_ACCESS: A memory-access command on the edge test port reads or writes an 8-byte register through the bring-up aperture (R420) -/
  | testPortAccess (hub : Nat) (off : Nat) (wr : Option (BitVec 64))
  /-- QUEUE_SWITCH_COMPLETE: A host-queue slot in SWITCHING finishes saving to the outgoing descriptor and either loads the new one and becomes ACTIVE, or becomes EMPTY (R369) -/
  | queueSwitchComplete (site : Nat) (slot : Nat)
  /-- QUOTE_DONE: Signing ends, the quote is written to QBUF, and QCTL.BUSY clears while DONE sets (R436) -/
  | quoteDone (hub : Nat)
  /-- CHECKPOINT_OP_DONE: A CKCMD operation, such as a DRAM-to-keep or keep-to-DRAM copy, finishes on every site and CKCMD.DONE sets (R387) -/
  | checkpointOpDone (site : Nat)
deriving DecidableEq, Repr

end Sys2Proof
end

