-- ==== Sys2Proof/WellFormed.lean ====
section
/-! DEFINITION. What makes a term of the syntax an instruction: the operand rules of R211 that the types of the
syntax do not already say, and, for events, that the unit they name exists. A word whose fields give an ill-formed
term raises cause 0x02. -/

namespace Sys2Proof

/-- `i` is an instruction the spec defines. -/
def Instr.wf : Instr → Bool
  | .ld _ _ _ _ => true
  | .ldIndexed _ _ _ _ => true
  | .ldxB _ _ _ => true
  | .ldxH _ _ _ => true
  | .ldk _ _ => true
  | .pfL1 _ _ => true
  | .pfL2 _ _ => true
  | .st _ _ _ _ => true
  | .stIndexed _ _ _ _ => true
  | .stxB _ _ _ => true
  | .stxH _ _ _ => true
  | .amo _ _ _ _ _ _ => true
  | .amoCas _ _ _ _ _ => true
  | .red _ _ _ o => o != AmoOp.swap
  | .push _ _ _ _ _ => true
  | .pop d _ p _ _ => !(d == 0#5 && p == 0#5) && decide (p.toNat < 8)
  | .fence _ => true
  | .xfi _ => true
  | .xfw _ => true
  | .bind _ _ b => b.toNat % 2 == 0
  | .acq _ _ _ => true
  | .rel _ _ _ => true
  | .waitc _ _ _ _ => true
  | .waita _ a b _ n => decide (a.toNat + n.toNat ≤ 31) && decide (b.toNat + n.toNat ≤ 31)
  | .arrive _ => true
  | .arriveSs _ => true
  | .waitb _ => true
  | .br _ _ _ => true
  | .call _ _ _ => true
  | .jr _ => true
  | .callr _ => true
  | .movJa0FromG _ => true
  | .movJa1FromG _ => true
  | .movLrFromG _ => true
  | .movGFromJa0 _ => true
  | .movGFromJa1 _ => true
  | .movGFromLr _ => true
  | .rdpc _ => true
  | .movGFromLs _ _ => true
  | .movGFromLe _ _ => true
  | .movGFromLc _ _ => true
  | .movLsFromG _ _ => true
  | .movLeFromG _ _ => true
  | .movLcFromG _ _ => true
  | .loop _ _ i => i != 0#14
  | .haltRet _ => true
  | .gang _ => true
  | .adda _ _ _ => true
  | .movi _ _ => true
  | .movk _ _ _ => true
  | .cstep _ _ _ => true
  | .cwrap _ _ _ => true
  | .cdiff _ _ _ => true
  | .crect _ _ => true
  | .cidx _ _ => true
  | .cclus _ _ => true
  | .hgrant _ _ _ => true
  | .hpassX _ _ _ => true
  | .hpassS _ _ _ => true
  | .htake _ _ => true
  | .hrecall _ => true
  | .hrel _ => true
  | .vclaim _ w => decide (w.toNat ≤ 8)
  | .vrenew _ w => decide (w.toNat ≤ 8)
  | .vld _ _ _ _ => true
  | .vldS _ a _ _ => a.toNat % 2 == 0
  | .vldBc _ _ _ _ => true
  | .vldG _ _ _ _ => true
  | .vst _ _ _ _ => true
  | .vstS _ a _ _ => a.toNat % 2 == 0
  | .vstG _ _ _ _ => true
  | .sfucmd _ _ b _ _ _ u => u == SfuFn.map || b == 0#5
  | .srd _ _ => true
  | .swr _ _ => true
  | .srset _ _ _ => true
  | .srclr _ _ _ => true
  | .lease _ _ => true
  | .leaseq _ => true
  | .leaseend _ => true
  | .dictld _ _ => true
  | .dictsel _ => true
  | .dictrd _ _ _ => true
  | .trap _ => true
  | .tlbinvVa _ _ => true
  | .tlbinvAsid _ => true
  | .larm _ _ => true
  | .add _ _ _ => true
  | .sub _ _ _ => true
  | .neg _ _ => true
  | .abs _ _ => true
  | .addW _ _ _ => true
  | .subW _ _ _ => true
  | .addSat _ _ _ => true
  | .subSat _ _ _ => true
  | .and _ _ _ => true
  | .or _ _ _ => true
  | .xor _ _ _ => true
  | .andn _ _ _ => true
  | .orn _ _ _ => true
  | .xnor _ _ _ => true
  | .not _ _ => true
  | .shl _ _ _ => true
  | .shr _ _ _ => true
  | .sra _ _ _ => true
  | .rol _ _ _ => true
  | .ror _ _ _ => true
  | .shlW _ _ _ => true
  | .shrW _ _ _ => true
  | .sraW _ _ _ => true
  | .mul _ _ _ => true
  | .mulh _ _ _ => true
  | .mulhu _ _ _ => true
  | .mulW _ _ _ => true
  | .div _ _ _ => true
  | .divu _ _ _ => true
  | .rem _ _ _ => true
  | .remu _ _ _ => true
  | .divW _ _ _ => true
  | .divuW _ _ _ => true
  | .remW _ _ _ => true
  | .remuW _ _ _ => true
  | .cmp _ _ _ _ => true
  | .pand _ _ _ => true
  | .por _ _ _ => true
  | .pxor _ _ _ => true
  | .pandn _ _ _ => true
  | .pnot _ _ => true
  | .pread _ => true
  | .pwrite _ => true
  | .ptest _ _ => true
  | .sel _ _ _ _ => true
  | .smin _ _ _ => true
  | .smax _ _ _ => true
  | .umin _ _ _ => true
  | .umax _ _ _ => true
  | .popc _ _ => true
  | .clz _ _ => true
  | .ctz _ _ => true
  | .ext _ _ _ => true
  | .exts _ _ _ => true
  | .ins _ _ _ => true
  | .addi _ _ _ => true
  | .andi _ _ _ => true
  | .ori _ _ _ => true
  | .xori _ _ _ => true
  | .shli _ _ _ => true
  | .shri _ _ _ => true
  | .srai _ _ _ => true
  | .rori _ _ _ => true
  | .cmpi _ _ _ _ => true
  | .fadd _ _ _ _ _ => true
  | .fsub _ _ _ _ _ => true
  | .fmul _ _ _ _ _ => true
  | .fdiv _ _ _ _ _ => true
  | .fsqrt _ _ _ _ => true
  | .fmin _ _ _ _ => true
  | .fmax _ _ _ _ => true
  | .fabs _ _ _ => true
  | .fneg _ _ _ => true
  | .fma _ _ _ _ _ r => r != Rm.rs
  | .fms _ _ _ _ _ r => r != Rm.rs
  | .fnma _ _ _ _ _ r => r != Rm.rs
  | .fnms _ _ _ _ _ r => r != Rm.rs
  | .feq _ _ _ _ => true
  | .flt _ _ _ _ => true
  | .fle _ _ _ _ => true
  | .fun _ _ _ _ => true
  | .fclass _ _ _ => true
  | .cvtSD _ _ _ => true
  | .cvtDS _ _ => true
  | .cvtSL _ _ _ _ => true
  | .cvtLS _ _ _ _ => true
  | .cvtSLu _ _ _ _ => true
  | .cvtLuS _ _ _ _ => true
  | .cvtBfS _ _ _ _ => true
  | .cvtE4S _ _ _ _ => true
  | .cvtSBf _ _ _ => true
  | .cvtSE4 _ _ _ => true
  | .vadd _ _ _ _ _ _ => true
  | .vsub _ _ _ _ _ _ => true
  | .vaddSat _ _ _ _ _ _ => true
  | .vsubSat _ _ _ _ _ _ => true
  | .vadduSat _ _ _ _ _ _ => true
  | .vsubuSat _ _ _ _ _ _ => true
  | .vneg _ _ _ => true
  | .vand _ _ _ _ _ _ => true
  | .vor _ _ _ _ _ _ => true
  | .vxor _ _ _ _ _ _ => true
  | .vandn _ _ _ _ _ _ => true
  | .vnot _ _ _ => true
  | .vshl _ _ _ _ _ _ => true
  | .vshr _ _ _ _ _ _ => true
  | .vsra _ _ _ _ _ _ => true
  | .vmul _ _ _ _ _ _ => true
  | .vmulh _ _ _ _ _ _ => true
  | .vmulhu _ _ _ _ _ _ => true
  | .vmla _ _ _ _ _ _ => true
  | .vsmin _ _ _ _ _ _ => true
  | .vsmax _ _ _ _ _ _ => true
  | .vumin _ _ _ _ _ _ => true
  | .vumax _ _ _ _ _ _ => true
  | .vabs _ _ _ => true
  | .vcmp _ _ _ _ _ _ _ => true
  | .vfadd _ _ _ _ _ _ _ r => r != Rm.rs
  | .vfsub _ _ _ _ _ _ _ r => r != Rm.rs
  | .vfmul _ _ _ _ _ _ _ r => r != Rm.rs
  | .vfmin _ _ _ _ _ _ _ => true
  | .vfmax _ _ _ _ _ _ _ => true
  | .vfma _ _ _ _ _ _ _ _ => true
  | .vfms _ _ _ _ _ _ _ _ => true
  | .vfcmp _ _ _ _ _ _ y _ => y != VTy.bf
  | .vsel _ _ _ _ _ _ => true
  | .vmov _ _ _ _ _ => true
  | .mand _ _ _ => true
  | .mor _ _ _ => true
  | .mxor _ _ _ => true
  | .mandn _ _ _ => true
  | .mnot _ _ => true
  | .mall _ => true
  | .mnone _ => true
  | .mmov _ _ => true
  | .vbcast _ _ _ _ => true
  | .vins _ _ _ => true
  | .vext _ _ _ _ _ => true
  | .mrd _ _ _ _ => true
  | .mwr _ _ _ _ => true
  | .mpopc _ _ _ => true
  | .vlen _ _ => true
  | .vcvtSW _ _ _ _ => true
  | .vcvtWS _ _ _ _ => true
  | .vcvtBfS _ _ _ _ _ => true
  | .vcvtSBf _ _ _ _ => true
  | .vcvtHS _ _ _ _ _ => true
  | .vcvtSH _ _ _ _ => true
  | .vcvtES _ _ _ _ _ _ => true
  | .vcvtSE _ _ _ _ _ => true
  | .vcvtBW _ _ _ _ => true
  | .vcvtWB _ _ _ _ => true
  | .vcvtDS _ _ _ => true
  | .vcvtSD _ _ _ _ => true
  | .vred _ _ _ _ => true
  | .vperm _ _ _ _ _ _ => true
  | .vpermB _ _ _ _ _ _ => true
  | .vcompress _ _ _ => true
  | .sfufence => true
  | .nop => true
  | .yield => true
  | .ret => true
  | .halt => true
  | .split => true
  | .vrel => true
  | .dictfence => true
  | .rft => true
  | .tlbinvAll => true
  | .icsync => true
  | .arithmeticNoOp => true
  | .mma site core _ => decide (site < 64) && decide (core < 256)
  | .mdist site core _ => decide (site < 64) && decide (core < 256)
  | .topk site core _ => decide (site < 64) && decide (core < 256)
  | .acz site core => decide (site < 64) && decide (core < 256)
  | .acl site core => decide (site < 64) && decide (core < 256)
  | .epi site core _ => decide (site < 64) && decide (core < 256)
  | .outputBufferDrain site core => decide (site < 64) && decide (core < 256)
  | .engineCountDown r => r.ok
  | .cpctlGo r _ => r.ok
  | .shadowSwapIn site core _ => decide (site < 64) && decide (core < 256)
  | .faultRecordClear r _ => r.ok
  | .sfuRequestStart site octet => decide (site < 64) && decide (octet < 32)
  | .sfuResult site octet => decide (site < 64) && decide (octet < 32)
  | .missRetry r => r.ok
  | .walk site _ => decide (site < 64)
  | .sliceRequest _ => true
  | .retryTimerExpiry _ => true
  | .missFill _ => true
  | .recall site core _ => decide (site < 64) && decide (core < 256)
  | .ownedLineTimeout site core _ => decide (site < 64) && decide (core < 256)
  | .farAtomic _ => true
  | .reductionPacketArrival _ => true
  | .reductionApply _ => true
  | .buckleArrival _ => true
  | .windowExpiry _ => true
  | .exchangeApply _ => true
  | .watchNotify r => r.ok
  | .watchPoll r => r.ok
  | .waitaTimeout r => r.ok
  | .replyArrival _ => true
  | .floorIssue r => r.ok
  | .trapEntry r => r.ok
  | .endContext r => r.ok
  | .preemptionAccept r => r.ok
  | .resumption r => r.ok
  | .haltSequence r => r.ok
  | .gangTimeout r => r.ok
  | .phaseComplete site group => decide (site < 64) && decide (group < 8)
  | .girthTimeout r => r.ok
  | .barrierPacket site group src => decide (site < 64) && decide (group < 8) && decide (src < 128)
  | .npcountLimit r => r.ok
  | .dictionaryLoadComplete r => r.ok
  | .replayEntryIssue site core _ => decide (site < 64) && decide (core < 256)
  | .bankPowerGate site core bank => decide (site < 64) && decide (core < 256) && decide (bank < 16)
  | .retainTimeout site core slot => decide (site < 64) && decide (core < 256) && decide (slot < 32)
  | .uncorrectableError _ => true
  | .patrolScrub site _ => decide (site < 64)
  | .arm rec => decide (rec < 65536)
  | .complete rec => decide (rec < 65536)
  | .blockDeal rec => decide (rec < 65536)
  | .dispatch site => decide (site < 64)
  | .hqtailWrite site slot _ => decide (site < 64) && decide (slot < 4)
  | .nopEntry site slot => decide (site < 64) && decide (slot < 4)
  | .launchEntry site slot => decide (site < 64) && decide (slot < 4)
  | .signalEntry site slot => decide (site < 64) && decide (slot < 4)
  | .hqctlWrite site slot _ => decide (site < 64) && decide (slot < 4)
  | .hqdescWrite site slot _ => decide (site < 64) && decide (slot < 4)
  | .rowWithhold site row _ _ => decide (site < 64) && decide (row < 16)
  | .tqconsWrite site _ => decide (site < 64)
  | .preEmpt site core _ => decide (site < 64) && decide (core < 256)
  | .preEmptAndHold site core _ => decide (site < 64) && decide (core < 256)
  | .resumeHeldContexts site core _ => decide (site < 64) && decide (core < 256)
  | .haltTreeStop site => decide (site < 64)
  | .haltTreeRelease site => decide (site < 64)
  | .selfTestStart site => decide (site < 64)
  | .selfTestWithdraw site => decide (site < 64)
  | .selfTestResult site _ => decide (site < 64)
  | .openInterval site group => decide (site < 64) && decide (group < 4096)
  | .closeInterval site group => decide (site < 64) && decide (group < 4096)
  | .rollBack site group => decide (site < 64) && decide (group < 4096)
  | .copyDramToKeep site => decide (site < 64)
  | .copyKeepToDram site => decide (site < 64)
  | .stallSample site core _ _ _ => decide (site < 64) && decide (core < 256)
  | .meltEstimate site _ => decide (site < 64)
  | .leaseTimerExpiry site cluster => decide (site < 64) && decide (cluster < 4)
  | .rampupComplete site cluster => decide (site < 64) && decide (cluster < 4)
  | .rampdownComplete site cluster => decide (site < 64) && decide (cluster < 4)
  | .voltageStep site row => decide (site < 64) && decide (row < 16)
  | .throttleStart site _ => decide (site < 64)
  | .throttleEnd site => decide (site < 64)
  | .leasecfgKill site _ => decide (site < 64)
  | .energyFlush site => decide (site < 64)
  | .dieGate site => decide (site < 64)
  | .dieWake site => decide (site < 64)
  | .debugDictionaryWrite r bank idx _ => r.ok && decide (bank < 4) && decide (idx < 64)
  | .huberrErrntClear hub => decide (hub < 64)
  | .poisonaddrValidClear hub => decide (hub < 64)
  | .hostMemAccess port _ _ => decide (port < 16)
  | .bisnpResponse _ _ => true
  | .hostBar0Access port _ _ => decide (port < 16)
  | .hostBar2Access port _ _ _ => decide (port < 16)
  | .powerOn => true
  | .bootcmdStart hub => decide (hub < 64)
  | .clockLock hub => decide (hub < 64)
  | .linkTrain hub => decide (hub < 64)
  | .hubTestResult hub _ _ => decide (hub < 64)
  | .clockedTimeout hub => decide (hub < 64)
  | .hubTestTimeout hub => decide (hub < 64)
  | .commit hub => decide (hub < 64)
  | .serve hub => decide (hub < 64)
  | .configSetWrite hub _ _ => decide (hub < 64)
  | .startFailure => true
  | .standbyPowerRemoval => true
  | .quote hub => decide (hub < 64)
  | .mctpControl hub _ => decide (hub < 64)
  | .pldmSensorRead hub _ => decide (hub < 64)
  | .coolantAlarmEffecter hub _ => decide (hub < 64)
  | .vendorMessage hub _ => decide (hub < 64)
  | .moduleLinkFlit port _ _ => decide (port < 32)
  | .moduleLinkDown port => decide (port < 32)
  | .moduleLinkRetrain port _ => decide (port < 32)
  | .peerReplyTimeout _ => true
  | .multicastBranch _ => true
  | .registerWrite hub _ _ => decide (hub < 64)
  | .writeAcknowledged _ => true
  | .mainPowerLoss => true
  | .standbyPowerApplied => true
  | .hostPortTrain port _ => decide (port < 16)
  | .testPortAccess hub _ _ => decide (hub < 64)
  | .queueSwitchComplete site slot => decide (site < 64) && decide (slot < 4)
  | .quoteDone hub => decide (hub < 64)
  | .checkpointOpDone site => decide (site < 64)

end Sys2Proof
end

