-- ==== Sys2Proof/Decode.lean ====
section
/-! DEFINITION. Decoding and encoding of instruction words and bundles (R200 to R202, R207 to R211, R218), written
from the forms of spec/07_formats_dictionary.md and the encoding of each instruction's own rule. -/

namespace Sys2Proof

/-- Bits [lo + n - 1 : lo] of a word. -/
def fld (w : W32) (lo n : Nat) : BitVec n := w.extractLsb' lo n

/-- The code of each value of `LdMode` (R277). -/
def LdMode.code : LdMode → Nat
  | .b => 0
  | .h => 1
  | .w => 2
  | .d => 3
  | .bu => 4
  | .hu => 5
  | .wu => 6

/-- The value that a code names; a code without one is reserved (R277). -/
def LdMode.ofCode : Nat → Option LdMode
  | 0 => some .b
  | 1 => some .h
  | 2 => some .w
  | 3 => some .d
  | 4 => some .bu
  | 5 => some .hu
  | 6 => some .wu
  | _ => none

/-- The code of each value of `StSize` (R281). -/
def StSize.code : StSize → Nat
  | .b => 0
  | .h => 1
  | .w => 2
  | .d => 3

/-- The value that a code names; a code without one is reserved (R281). -/
def StSize.ofCode : Nat → Option StSize
  | 0 => some .b
  | 1 => some .h
  | 2 => some .w
  | 3 => some .d
  | _ => none

/-- The code of each value of `Scope` (R98). -/
def Scope.code : Scope → Nat
  | .core => 0
  | .cluster => 1
  | .die => 2
  | .module => 3
  | .system => 4

/-- The value that a code names; a code without one is reserved (R98). -/
def Scope.ofCode : Nat → Option Scope
  | 0 => some .core
  | 1 => some .cluster
  | 2 => some .die
  | 3 => some .module
  | 4 => some .system
  | _ => none

/-- The code of each value of `AmoOp` (R293). -/
def AmoOp.code : AmoOp → Nat
  | .swap => 0
  | .add => 1
  | .and => 2
  | .or => 3
  | .xor => 4
  | .smin => 5
  | .smax => 6
  | .umin => 7
  | .umax => 8
  | .fadd => 9
  | .fmin => 10
  | .fmax => 11

/-- The value that a code names; a code without one is reserved (R293). -/
def AmoOp.ofCode : Nat → Option AmoOp
  | 0 => some .swap
  | 1 => some .add
  | 2 => some .and
  | 3 => some .or
  | 4 => some .xor
  | 5 => some .smin
  | 6 => some .smax
  | 7 => some .umin
  | 8 => some .umax
  | 9 => some .fadd
  | 10 => some .fmin
  | 11 => some .fmax
  | _ => none

/-- The code of each value of `SfuFn` (R321). -/
def SfuFn.code : SfuFn → Nat
  | .rcp => 0
  | .rsqrt => 1
  | .sqrt => 2
  | .exp2 => 3
  | .log2 => 4
  | .sinpi => 5
  | .cospi => 6
  | .tanh => 7
  | .sigmoid => 8
  | .exp => 9
  | .map => 12

/-- The value that a code names; a code without one is reserved (R321). -/
def SfuFn.ofCode : Nat → Option SfuFn
  | 0 => some .rcp
  | 1 => some .rsqrt
  | 2 => some .sqrt
  | 3 => some .exp2
  | 4 => some .log2
  | 5 => some .sinpi
  | 6 => some .cospi
  | 7 => some .tanh
  | 8 => some .sigmoid
  | 9 => some .exp
  | 12 => some .map
  | _ => none

/-- The code of each value of `Cond` (R247). -/
def Cond.code : Cond → Nat
  | .eq => 0
  | .ne => 1
  | .lt => 2
  | .ge => 3
  | .ltu => 4
  | .geu => 5

/-- The value that a code names; a code without one is reserved (R247). -/
def Cond.ofCode : Nat → Option Cond
  | 0 => some .eq
  | 1 => some .ne
  | 2 => some .lt
  | 3 => some .ge
  | 4 => some .ltu
  | 5 => some .geu
  | _ => none

/-- The code of each value of `FCmp` (R311). -/
def FCmp.code : FCmp → Nat
  | .eq => 0
  | .lt => 1
  | .le => 2
  | .un => 3

/-- The value that a code names; a code without one is reserved (R311). -/
def FCmp.ofCode : Nat → Option FCmp
  | 0 => some .eq
  | 1 => some .lt
  | 2 => some .le
  | 3 => some .un
  | _ => none

/-- The code of each value of `Rm` (R249). -/
def Rm.code : Rm → Nat
  | .ne => 0
  | .rz => 1
  | .rp => 2
  | .rm => 3
  | .rs => 4

/-- The value that a code names; a code without one is reserved (R249). -/
def Rm.ofCode : Nat → Option Rm
  | 0 => some .ne
  | 1 => some .rz
  | 2 => some .rp
  | 3 => some .rm
  | 4 => some .rs
  | _ => none

/-- The code of each value of `VTy` (R309). -/
def VTy.code : VTy → Nat
  | .s => 0
  | .bf => 1
  | .d => 2

/-- The value that a code names; a code without one is reserved (R309). -/
def VTy.ofCode : Nat → Option VTy
  | 0 => some .s
  | 1 => some .bf
  | 2 => some .d
  | _ => none

/-- The code of each value of `Lp` (R208). -/
def Lp.code : Lp → Nat
  | .none => 0
  | .rot => 1
  | .rev => 2
  | .w8 => 3
  | .bc => 4

/-- The value that a code names; a code without one is reserved (R208). -/
def Lp.ofCode : Nat → Option Lp
  | 0 => some .none
  | 1 => some .rot
  | 2 => some .rev
  | 3 => some .w8
  | 4 => some .bc
  | _ => Option.none

/-- The code of each value of `VRedOp` (R316). -/
def VRedOp.code : VRedOp → Nat
  | .add => 0
  | .smin => 1
  | .smax => 2
  | .umin => 3
  | .umax => 4
  | .and => 5
  | .or => 6
  | .xor => 7
  | .fadd => 8
  | .fmin => 9
  | .fmax => 10
  | .faddD => 11

/-- The value that a code names; a code without one is reserved (R316). -/
def VRedOp.ofCode : Nat → Option VRedOp
  | 0 => some .add
  | 1 => some .smin
  | 2 => some .smax
  | 3 => some .umin
  | 4 => some .umax
  | 5 => some .and
  | 6 => some .or
  | 7 => some .xor
  | 8 => some .fadd
  | 9 => some .fmin
  | 10 => some .fmax
  | 11 => some .faddD
  | _ => none

/-- ORD of R293: 0 relaxed, 1 to 5 acquire, 6 to 10 release, 11 to 15 both, each with its scope code. -/
def AmoOrd.code : AmoOrd → Nat
  | .relaxed => 0
  | .acq s => 1 + s.code
  | .rel s => 6 + s.code
  | .ar s => 11 + s.code

/-- The ordering that an ORD code names (R293). -/
def AmoOrd.ofCode (n : Nat) : Option AmoOrd :=
  if n = 0 then some .relaxed
  else if n ≤ 5 then (Scope.ofCode (n - 1)).map .acq
  else if n ≤ 10 then (Scope.ofCode (n - 6)).map .rel
  else (Scope.ofCode (n - 11)).map .ar

/-- A flag of one bit. -/
def flagOf (b : BitVec 1) : Bool := b == 1#1

/-- Word A, major opcode 0x01: LD. -/
def decA01 (w : W32) : Option Instr :=
  (LdMode.ofCode (fld w 11 3).toNat).bind fun m => some (.ld (fld w 19 5) (fld w 14 5) m (fld w 0 11))

/-- Word A, major opcode 0x02: LD_INDEXED. -/
def decA02 (w : W32) : Option Instr :=
  if fld w 3 6 = 0 then
    (LdMode.ofCode (fld w 0 3).toNat).bind fun m => some (.ldIndexed (fld w 19 5) (fld w 14 5) (fld w 9 5) m)
  else none

/-- Word A, major opcode 0x03: LDX_B, LDX_H. -/
def decA03 (w : W32) : Option Instr :=
  if fld w 11 3 = 0 then
    some (.ldxB (fld w 19 5) (fld w 14 5) (fld w 0 11))
  else if fld w 11 3 = 1 then
    some (.ldxH (fld w 19 5) (fld w 14 5) (fld w 0 11))
  else none

/-- Word A, major opcode 0x04: LDK. -/
def decA04 (w : W32) : Option Instr :=
  if fld w 0 11 = 0 then
    some (.ldk (fld w 19 5) (fld w 11 8))
  else none

/-- Word A, major opcode 0x05: PF_L1, PF_L2. -/
def decA05 (w : W32) : Option Instr :=
  if fld w 11 3 = 0 ∧ fld w 19 5 = 0 then
    some (.pfL1 (fld w 14 5) (fld w 0 11))
  else if fld w 11 3 = 1 ∧ fld w 19 5 = 0 then
    some (.pfL2 (fld w 14 5) (fld w 0 11))
  else none

/-- Word A, major opcode 0x08: ST. -/
def decA08 (w : W32) : Option Instr :=
  (StSize.ofCode (fld w 11 3).toNat).bind fun m => some (.st (fld w 19 5) (fld w 14 5) m (fld w 0 11))

/-- Word A, major opcode 0x09: ST_INDEXED. -/
def decA09 (w : W32) : Option Instr :=
  if fld w 3 6 = 0 then
    (StSize.ofCode (fld w 0 3).toNat).bind fun m => some (.stIndexed (fld w 19 5) (fld w 14 5) (fld w 9 5) m)
  else none

/-- Word A, major opcode 0x0A: STX_B, STX_H. -/
def decA0A (w : W32) : Option Instr :=
  if fld w 11 3 = 0 then
    some (.stxB (fld w 19 5) (fld w 14 5) (fld w 0 11))
  else if fld w 11 3 = 1 then
    some (.stxH (fld w 19 5) (fld w 14 5) (fld w 0 11))
  else none

/-- Word A, major opcode 0x10: AMO. -/
def decA10 (w : W32) : Option Instr :=
  (AmoOrd.ofCode (fld w 5 4).toNat).bind fun r => (AmoOp.ofCode (fld w 0 4).toNat).bind fun o => some (.amo (fld w 19 5) (fld w 14 5) (fld w 9 5) r (flagOf (fld w 4 1)) o)

/-- Word A, major opcode 0x11: AMO_CAS. -/
def decA11 (w : W32) : Option Instr :=
  if fld w 5 5 = 0 then
    (AmoOrd.ofCode (fld w 1 4).toNat).bind fun r => some (.amoCas (fld w 19 5) (fld w 14 5) (fld w 10 4) r (flagOf (fld w 0 1)))
  else none

/-- Word A, major opcode 0x12: RED. -/
def decA12 (w : W32) : Option Instr :=
  if fld w 5 4 = 0 ∧ fld w 19 5 = 0 then
    (AmoOp.ofCode (fld w 0 4).toNat).bind fun o => some (.red (fld w 14 5) (fld w 9 5) (flagOf (fld w 4 1)) o)
  else none

/-- Word A, major opcode 0x13: PUSH. -/
def decA13 (w : W32) : Option Instr :=
  if fld w 5 4 = 0 then
    (Scope.ofCode (fld w 0 3).toNat).bind fun e => some (.push (fld w 19 5) (fld w 14 5) (fld w 9 5) (fld w 3 2) e)
  else none

/-- Word A, major opcode 0x14: POP. -/
def decA14 (w : W32) : Option Instr :=
  if fld w 5 4 = 0 then
    (Scope.ofCode (fld w 0 3).toNat).bind fun e => some (.pop (fld w 19 5) (fld w 14 5) (fld w 9 5) (fld w 3 2) e)
  else none

/-- Word A, major opcode 0x18: FENCE, XFI, XFW. -/
def decA18 (w : W32) : Option Instr :=
  if fld w 3 21 = 0 then
    (Scope.ofCode (fld w 0 3).toNat).bind fun e => some (.fence e)
  else if fld w 0 19 = 8 then
    some (.xfi (fld w 19 5))
  else if fld w 0 14 = 16 ∧ fld w 19 5 = 0 then
    some (.xfw (fld w 14 5))
  else none

/-- Word A, major opcode 0x19: BIND, ACQ, REL. -/
def decA19 (w : W32) : Option Instr :=
  if fld w 0 9 = 0 then
    some (.bind (fld w 19 5) (fld w 14 5) (fld w 9 5))
  else if fld w 3 11 = 1 then
    (Scope.ofCode (fld w 0 3).toNat).bind fun e => some (.acq (fld w 19 5) (fld w 14 5) e)
  else if fld w 3 6 = 2 ∧ fld w 19 5 = 0 then
    (Scope.ofCode (fld w 0 3).toNat).bind fun e => some (.rel (fld w 14 5) (fld w 9 5) e)
  else none

/-- Word A, major opcode 0x1A: WAITC, WAITA, SFUFENCE. -/
def decA1A (w : W32) : Option Instr :=
  if fld w 0 4 = 0 then
    some (.waitc (fld w 19 5) (fld w 14 5) (fld w 9 5) (fld w 4 5))
  else if fld w 0 4 = 1 then
    some (.waita (fld w 19 5) (fld w 14 5) (fld w 9 5) (fld w 6 3) (fld w 4 2))
  else if fld w 0 24 = 2 then
    some (.sfufence)
  else none

/-- Word A, major opcode 0x1B: ARRIVE, ARRIVE_SS, WAITB. -/
def decA1B (w : W32) : Option Instr :=
  if fld w 3 21 = 0 then
    some (.arrive (fld w 0 3))
  else if fld w 3 21 = 1 then
    some (.arriveSs (fld w 0 3))
  else if fld w 3 21 = 2 then
    some (.waitb (fld w 0 3))
  else none

/-- Word A, major opcode 0x21: BR. -/
def decA21 (w : W32) : Option Instr :=
  some (.br (fld w 21 3) (flagOf (fld w 20 1)) (fld w 0 20))

/-- Word A, major opcode 0x22: CALL. -/
def decA22 (w : W32) : Option Instr :=
  some (.call (fld w 21 3) (flagOf (fld w 20 1)) (fld w 0 20))

/-- Word A, major opcode 0x23: JR, CALLR, MOV_JA0_FROM_G, MOV_JA1_FROM_G, MOV_LR_FROM_G, MOV_G_FROM_JA0, MOV_G_FROM_JA1, MOV_G_FROM_LR, RDPC, MOV_G_FROM_LS, MOV_G_FROM_LE, MOV_G_FROM_LC, MOV_LS_FROM_G, MOV_LE_FROM_G, MOV_LC_FROM_G, RET. -/
def decA23 (w : W32) : Option Instr :=
  if fld w 0 14 = 0 ∧ fld w 19 5 = 0 then
    some (.jr (fld w 14 5))
  else if fld w 0 14 = 1 ∧ fld w 19 5 = 0 then
    some (.callr (fld w 14 5))
  else if fld w 0 14 = 3 ∧ fld w 19 5 = 0 then
    some (.movJa0FromG (fld w 14 5))
  else if fld w 0 14 = 4 ∧ fld w 19 5 = 0 then
    some (.movJa1FromG (fld w 14 5))
  else if fld w 0 14 = 5 ∧ fld w 19 5 = 0 then
    some (.movLrFromG (fld w 14 5))
  else if fld w 0 19 = 6 then
    some (.movGFromJa0 (fld w 19 5))
  else if fld w 0 19 = 7 then
    some (.movGFromJa1 (fld w 19 5))
  else if fld w 0 19 = 8 then
    some (.movGFromLr (fld w 19 5))
  else if fld w 0 19 = 12 then
    some (.rdpc (fld w 19 5))
  else if fld w 2 17 = 4 then
    some (.movGFromLs (fld w 19 5) (fld w 0 2))
  else if fld w 2 17 = 5 then
    some (.movGFromLe (fld w 19 5) (fld w 0 2))
  else if fld w 2 17 = 6 then
    some (.movGFromLc (fld w 19 5) (fld w 0 2))
  else if fld w 2 12 = 8 ∧ fld w 19 5 = 0 then
    some (.movLsFromG (fld w 14 5) (fld w 0 2))
  else if fld w 2 12 = 9 ∧ fld w 19 5 = 0 then
    some (.movLeFromG (fld w 14 5) (fld w 0 2))
  else if fld w 2 12 = 10 ∧ fld w 19 5 = 0 then
    some (.movLcFromG (fld w 14 5) (fld w 0 2))
  else if fld w 0 24 = 2 then
    some (.ret)
  else none

/-- Word A, major opcode 0x24: LOOP. -/
def decA24 (w : W32) : Option Instr :=
  if fld w 21 3 = 0 then
    some (.loop (fld w 19 2) (fld w 14 5) (fld w 0 14))
  else none

/-- Word A, major opcode 0x25: HALT_RET, HALT. -/
def decA25 (w : W32) : Option Instr :=
  if fld w 0 14 = 1 ∧ fld w 19 5 = 0 then
    some (.haltRet (fld w 14 5))
  else if fld w 0 24 = 0 then
    some (.halt)
  else none

/-- Word A, major opcode 0x26: GANG, SPLIT. -/
def decA26 (w : W32) : Option Instr :=
  if fld w 0 19 = 0 then
    some (.gang (fld w 19 5))
  else if fld w 0 24 = 1 then
    some (.split)
  else none

/-- Word A, major opcode 0x28: ADDA. -/
def decA28 (w : W32) : Option Instr :=
  some (.adda (fld w 19 5) (fld w 14 5) (fld w 0 14))

/-- Word A, major opcode 0x29: MOVI. -/
def decA29 (w : W32) : Option Instr :=
  some (.movi (fld w 19 5) (fld w 0 19))

/-- Word A, major opcode 0x2A: MOVK. -/
def decA2A (w : W32) : Option Instr :=
  if fld w 18 1 = 0 then
    some (.movk (fld w 19 5) (fld w 16 2) (fld w 0 16))
  else none

/-- Word A, major opcode 0x2B: CSTEP, CWRAP, CDIFF, CRECT, CIDX, CCLUS. -/
def decA2B (w : W32) : Option Instr :=
  if fld w 0 9 = 0 then
    some (.cstep (fld w 19 5) (fld w 14 5) (fld w 9 5))
  else if fld w 0 9 = 1 then
    some (.cwrap (fld w 19 5) (fld w 14 5) (fld w 9 5))
  else if fld w 0 9 = 2 then
    some (.cdiff (fld w 19 5) (fld w 14 5) (fld w 9 5))
  else if fld w 0 14 = 3 then
    some (.crect (fld w 19 5) (fld w 14 5))
  else if fld w 0 14 = 4 then
    some (.cidx (fld w 19 5) (fld w 14 5))
  else if fld w 0 14 = 5 then
    some (.cclus (fld w 19 5) (fld w 14 5))
  else none

/-- Word A, major opcode 0x30: HGRANT, HPASS_X, HPASS_S, HTAKE, HRECALL, HREL. -/
def decA30 (w : W32) : Option Instr :=
  if fld w 0 9 = 0 then
    some (.hgrant (fld w 19 5) (fld w 14 5) (fld w 9 5))
  else if fld w 0 9 = 1 then
    some (.hpassX (fld w 19 5) (fld w 14 5) (fld w 9 5))
  else if fld w 0 9 = 2 then
    some (.hpassS (fld w 19 5) (fld w 14 5) (fld w 9 5))
  else if fld w 0 14 = 3 then
    some (.htake (fld w 19 5) (fld w 14 5))
  else if fld w 0 14 = 4 ∧ fld w 19 5 = 0 then
    some (.hrecall (fld w 14 5))
  else if fld w 0 14 = 5 ∧ fld w 19 5 = 0 then
    some (.hrel (fld w 14 5))
  else none

/-- Word A, major opcode 0x31: VCLAIM, VRENEW, VREL. -/
def decA31 (w : W32) : Option Instr :=
  if fld w 4 15 = 0 then
    some (.vclaim (fld w 19 5) (fld w 0 4))
  else if fld w 4 15 = 256 then
    some (.vrenew (fld w 19 5) (fld w 0 4))
  else if fld w 0 24 = 8192 then
    some (.vrel)
  else none

/-- Word A, major opcode 0x32: VLD, VLD_S, VLD_BC, VLD_G. -/
def decA32 (w : W32) : Option Instr :=
  if fld w 11 2 = 0 then
    some (.vld (fld w 20 4) (fld w 15 5) (fld w 13 2) (fld w 0 11))
  else if fld w 11 2 = 1 then
    some (.vldS (fld w 20 4) (fld w 15 5) (fld w 13 2) (fld w 0 11))
  else if fld w 11 2 = 2 then
    some (.vldBc (fld w 20 4) (fld w 15 5) (fld w 13 2) (fld w 0 11))
  else if fld w 4 9 = 384 then
    some (.vldG (fld w 20 4) (fld w 15 5) (fld w 13 2) (fld w 0 4))
  else none

/-- Word A, major opcode 0x33: VST, VST_S, VST_G. -/
def decA33 (w : W32) : Option Instr :=
  if fld w 11 2 = 0 then
    some (.vst (fld w 20 4) (fld w 15 5) (fld w 13 2) (fld w 0 11))
  else if fld w 11 2 = 1 then
    some (.vstS (fld w 20 4) (fld w 15 5) (fld w 13 2) (fld w 0 11))
  else if fld w 4 9 = 384 then
    some (.vstG (fld w 20 4) (fld w 15 5) (fld w 13 2) (fld w 0 4))
  else none

/-- Word A, major opcode 0x34: SFUCMD. -/
def decA34 (w : W32) : Option Instr :=
  (Scope.ofCode (fld w 6 3).toNat).bind fun e => (SfuFn.ofCode (fld w 0 4).toNat).bind fun u => some (.sfucmd (fld w 19 5) (fld w 14 5) (fld w 9 5) e (flagOf (fld w 5 1)) (flagOf (fld w 4 1)) u)

/-- Word A, major opcode 0x38: SRD, SWR, SRSET, SRCLR. -/
def decA38 (w : W32) : Option Instr :=
  if fld w 12 7 = 0 then
    some (.srd (fld w 19 5) (fld w 0 12))
  else if fld w 12 2 = 1 ∧ fld w 19 5 = 0 then
    some (.swr (fld w 14 5) (fld w 0 12))
  else if fld w 12 2 = 2 then
    some (.srset (fld w 19 5) (fld w 14 5) (fld w 0 12))
  else if fld w 12 2 = 3 then
    some (.srclr (fld w 19 5) (fld w 14 5) (fld w 0 12))
  else none

/-- Word A, major opcode 0x39: LEASE, LEASEQ, LEASEEND. -/
def decA39 (w : W32) : Option Instr :=
  if fld w 0 14 = 0 then
    some (.lease (fld w 19 5) (fld w 14 5))
  else if fld w 0 19 = 1 then
    some (.leaseq (fld w 19 5))
  else if fld w 0 19 = 2 then
    some (.leaseend (fld w 19 5))
  else none

/-- Word A, major opcode 0x3A: DICTLD, DICTSEL, DICTRD, DICTFENCE. -/
def decA3A (w : W32) : Option Instr :=
  if fld w 0 12 = 0 ∧ fld w 19 5 = 0 then
    some (.dictld (fld w 14 5) (fld w 12 2))
  else if fld w 0 12 = 512 ∧ fld w 14 10 = 0 then
    some (.dictsel (fld w 12 2))
  else if fld w 0 12 = 1536 then
    some (.dictrd (fld w 19 5) (fld w 14 5) (fld w 12 2))
  else if fld w 0 24 = 1024 then
    some (.dictfence)
  else none

/-- Word A, major opcode 0x3B: TRAP, TLBINV_VA, TLBINV_ASID, LARM, RFT, TLBINV_ALL, ICSYNC. -/
def decA3B (w : W32) : Option Instr :=
  if fld w 0 9 = 0 ∧ fld w 19 5 = 0 then
    some (.trap (fld w 9 10))
  else if fld w 0 9 = 2 ∧ fld w 19 5 = 0 then
    some (.tlbinvVa (fld w 14 5) (fld w 9 5))
  else if fld w 0 14 = 3 ∧ fld w 19 5 = 0 then
    some (.tlbinvAsid (fld w 14 5))
  else if fld w 0 14 = 6 then
    some (.larm (fld w 19 5) (fld w 14 5))
  else if fld w 0 24 = 1 then
    some (.rft)
  else if fld w 0 24 = 4 then
    some (.tlbinvAll)
  else if fld w 0 24 = 5 then
    some (.icsync)
  else none

/-- Word A, major opcode 0x20: NOP, YIELD. -/
def decA20 (w : W32) : Option Instr :=
  if fld w 0 24 = 0 then
    some (.nop)
  else if fld w 0 24 = 1 then
    some (.yield)
  else none

/-- The instruction that the bits [29:0] of a word A give, by its major opcode (R209); fields only, before `Instr.wf`. -/
def fieldsA (w : W32) : Option Instr :=
  match (fld w 24 6).toNat with
  | 0x01 => decA01 w
  | 0x02 => decA02 w
  | 0x03 => decA03 w
  | 0x04 => decA04 w
  | 0x05 => decA05 w
  | 0x08 => decA08 w
  | 0x09 => decA09 w
  | 0x0A => decA0A w
  | 0x10 => decA10 w
  | 0x11 => decA11 w
  | 0x12 => decA12 w
  | 0x13 => decA13 w
  | 0x14 => decA14 w
  | 0x18 => decA18 w
  | 0x19 => decA19 w
  | 0x1A => decA1A w
  | 0x1B => decA1B w
  | 0x21 => decA21 w
  | 0x22 => decA22 w
  | 0x23 => decA23 w
  | 0x24 => decA24 w
  | 0x25 => decA25 w
  | 0x26 => decA26 w
  | 0x28 => decA28 w
  | 0x29 => decA29 w
  | 0x2A => decA2A w
  | 0x2B => decA2B w
  | 0x30 => decA30 w
  | 0x31 => decA31 w
  | 0x32 => decA32 w
  | 0x33 => decA33 w
  | 0x34 => decA34 w
  | 0x38 => decA38 w
  | 0x39 => decA39 w
  | 0x3A => decA3A w
  | 0x3B => decA3B w
  | 0x20 => decA20 w
  | _ => none

/-- Word B, major opcode 0x01: ADD, SUB, NEG, ABS, ADD_W, SUB_W, ADD_SAT, SUB_SAT. -/
def decB01 (w : W32) : Option Instr :=
  if fld w 0 9 = 0 then
    some (.add (fld w 19 5) (fld w 14 5) (fld w 9 5))
  else if fld w 0 9 = 1 then
    some (.sub (fld w 19 5) (fld w 14 5) (fld w 9 5))
  else if fld w 0 14 = 2 then
    some (.neg (fld w 19 5) (fld w 14 5))
  else if fld w 0 14 = 3 then
    some (.abs (fld w 19 5) (fld w 14 5))
  else if fld w 0 9 = 4 then
    some (.addW (fld w 19 5) (fld w 14 5) (fld w 9 5))
  else if fld w 0 9 = 5 then
    some (.subW (fld w 19 5) (fld w 14 5) (fld w 9 5))
  else if fld w 0 9 = 6 then
    some (.addSat (fld w 19 5) (fld w 14 5) (fld w 9 5))
  else if fld w 0 9 = 7 then
    some (.subSat (fld w 19 5) (fld w 14 5) (fld w 9 5))
  else none

/-- Word B, major opcode 0x02: AND, OR, XOR, ANDN, ORN, XNOR, NOT. -/
def decB02 (w : W32) : Option Instr :=
  if fld w 0 9 = 0 then
    some (.and (fld w 19 5) (fld w 14 5) (fld w 9 5))
  else if fld w 0 9 = 1 then
    some (.or (fld w 19 5) (fld w 14 5) (fld w 9 5))
  else if fld w 0 9 = 2 then
    some (.xor (fld w 19 5) (fld w 14 5) (fld w 9 5))
  else if fld w 0 9 = 3 then
    some (.andn (fld w 19 5) (fld w 14 5) (fld w 9 5))
  else if fld w 0 9 = 4 then
    some (.orn (fld w 19 5) (fld w 14 5) (fld w 9 5))
  else if fld w 0 9 = 5 then
    some (.xnor (fld w 19 5) (fld w 14 5) (fld w 9 5))
  else if fld w 0 14 = 6 then
    some (.not (fld w 19 5) (fld w 14 5))
  else none

/-- Word B, major opcode 0x03: SHL, SHR, SRA, ROL, ROR, SHL_W, SHR_W, SRA_W. -/
def decB03 (w : W32) : Option Instr :=
  if fld w 0 9 = 0 then
    some (.shl (fld w 19 5) (fld w 14 5) (fld w 9 5))
  else if fld w 0 9 = 1 then
    some (.shr (fld w 19 5) (fld w 14 5) (fld w 9 5))
  else if fld w 0 9 = 2 then
    some (.sra (fld w 19 5) (fld w 14 5) (fld w 9 5))
  else if fld w 0 9 = 3 then
    some (.rol (fld w 19 5) (fld w 14 5) (fld w 9 5))
  else if fld w 0 9 = 4 then
    some (.ror (fld w 19 5) (fld w 14 5) (fld w 9 5))
  else if fld w 0 9 = 5 then
    some (.shlW (fld w 19 5) (fld w 14 5) (fld w 9 5))
  else if fld w 0 9 = 6 then
    some (.shrW (fld w 19 5) (fld w 14 5) (fld w 9 5))
  else if fld w 0 9 = 7 then
    some (.sraW (fld w 19 5) (fld w 14 5) (fld w 9 5))
  else none

/-- Word B, major opcode 0x04: MUL, MULH, MULHU, MUL_W. -/
def decB04 (w : W32) : Option Instr :=
  if fld w 0 9 = 0 then
    some (.mul (fld w 19 5) (fld w 14 5) (fld w 9 5))
  else if fld w 0 9 = 1 then
    some (.mulh (fld w 19 5) (fld w 14 5) (fld w 9 5))
  else if fld w 0 9 = 2 then
    some (.mulhu (fld w 19 5) (fld w 14 5) (fld w 9 5))
  else if fld w 0 9 = 3 then
    some (.mulW (fld w 19 5) (fld w 14 5) (fld w 9 5))
  else none

/-- Word B, major opcode 0x05: DIV, DIVU, REM, REMU, DIV_W, DIVU_W, REM_W, REMU_W. -/
def decB05 (w : W32) : Option Instr :=
  if fld w 0 9 = 0 then
    some (.div (fld w 19 5) (fld w 14 5) (fld w 9 5))
  else if fld w 0 9 = 1 then
    some (.divu (fld w 19 5) (fld w 14 5) (fld w 9 5))
  else if fld w 0 9 = 2 then
    some (.rem (fld w 19 5) (fld w 14 5) (fld w 9 5))
  else if fld w 0 9 = 3 then
    some (.remu (fld w 19 5) (fld w 14 5) (fld w 9 5))
  else if fld w 0 9 = 4 then
    some (.divW (fld w 19 5) (fld w 14 5) (fld w 9 5))
  else if fld w 0 9 = 5 then
    some (.divuW (fld w 19 5) (fld w 14 5) (fld w 9 5))
  else if fld w 0 9 = 6 then
    some (.remW (fld w 19 5) (fld w 14 5) (fld w 9 5))
  else if fld w 0 9 = 7 then
    some (.remuW (fld w 19 5) (fld w 14 5) (fld w 9 5))
  else none

/-- Word B, major opcode 0x06: CMP. -/
def decB06 (w : W32) : Option Instr :=
  if fld w 3 6 = 0 ∧ fld w 22 2 = 0 then
    (Cond.ofCode (fld w 0 3).toNat).bind fun c => some (.cmp (fld w 19 3) (fld w 14 5) (fld w 9 5) c)
  else none

/-- Word B, major opcode 0x07: PAND, POR, PXOR, PANDN, PNOT, PREAD, PWRITE, PTEST. -/
def decB07 (w : W32) : Option Instr :=
  if fld w 0 9 = 0 ∧ fld w 12 2 = 0 ∧ fld w 17 2 = 0 ∧ fld w 22 2 = 0 then
    some (.pand (fld w 19 3) (fld w 14 3) (fld w 9 3))
  else if fld w 0 9 = 1 ∧ fld w 12 2 = 0 ∧ fld w 17 2 = 0 ∧ fld w 22 2 = 0 then
    some (.por (fld w 19 3) (fld w 14 3) (fld w 9 3))
  else if fld w 0 9 = 2 ∧ fld w 12 2 = 0 ∧ fld w 17 2 = 0 ∧ fld w 22 2 = 0 then
    some (.pxor (fld w 19 3) (fld w 14 3) (fld w 9 3))
  else if fld w 0 9 = 3 ∧ fld w 12 2 = 0 ∧ fld w 17 2 = 0 ∧ fld w 22 2 = 0 then
    some (.pandn (fld w 19 3) (fld w 14 3) (fld w 9 3))
  else if fld w 0 14 = 4 ∧ fld w 17 2 = 0 ∧ fld w 22 2 = 0 then
    some (.pnot (fld w 19 3) (fld w 14 3))
  else if fld w 0 19 = 5 then
    some (.pread (fld w 19 5))
  else if fld w 0 14 = 6 ∧ fld w 19 5 = 0 then
    some (.pwrite (fld w 14 5))
  else if fld w 0 14 = 7 ∧ fld w 22 2 = 0 then
    some (.ptest (fld w 19 3) (fld w 14 5))
  else none

/-- Word B, major opcode 0x08: SEL, SMIN, SMAX, UMIN, UMAX, POPC, CLZ, CTZ, EXT, EXTS, INS. -/
def decB08 (w : W32) : Option Instr :=
  if fld w 3 6 = 0 then
    some (.sel (fld w 19 5) (fld w 14 5) (fld w 9 5) (fld w 0 3))
  else if fld w 0 9 = 8 then
    some (.smin (fld w 19 5) (fld w 14 5) (fld w 9 5))
  else if fld w 0 9 = 9 then
    some (.smax (fld w 19 5) (fld w 14 5) (fld w 9 5))
  else if fld w 0 9 = 10 then
    some (.umin (fld w 19 5) (fld w 14 5) (fld w 9 5))
  else if fld w 0 9 = 11 then
    some (.umax (fld w 19 5) (fld w 14 5) (fld w 9 5))
  else if fld w 0 14 = 12 then
    some (.popc (fld w 19 5) (fld w 14 5))
  else if fld w 0 14 = 13 then
    some (.clz (fld w 19 5) (fld w 14 5))
  else if fld w 0 14 = 14 then
    some (.ctz (fld w 19 5) (fld w 14 5))
  else if fld w 0 9 = 16 then
    some (.ext (fld w 19 5) (fld w 14 5) (fld w 9 5))
  else if fld w 0 9 = 17 then
    some (.exts (fld w 19 5) (fld w 14 5) (fld w 9 5))
  else if fld w 0 9 = 18 then
    some (.ins (fld w 19 5) (fld w 14 5) (fld w 9 5))
  else none

/-- Word B, major opcode 0x09: ADDI. -/
def decB09 (w : W32) : Option Instr :=
  some (.addi (fld w 19 5) (fld w 14 5) (fld w 0 14))

/-- Word B, major opcode 0x0A: ANDI, ORI, XORI, SHLI, SHRI, SRAI, RORI. -/
def decB0A (w : W32) : Option Instr :=
  if fld w 11 3 = 0 then
    some (.andi (fld w 19 5) (fld w 14 5) (fld w 0 11))
  else if fld w 11 3 = 1 then
    some (.ori (fld w 19 5) (fld w 14 5) (fld w 0 11))
  else if fld w 11 3 = 2 then
    some (.xori (fld w 19 5) (fld w 14 5) (fld w 0 11))
  else if fld w 6 8 = 96 then
    some (.shli (fld w 19 5) (fld w 14 5) (fld w 0 6))
  else if fld w 6 8 = 128 then
    some (.shri (fld w 19 5) (fld w 14 5) (fld w 0 6))
  else if fld w 6 8 = 160 then
    some (.srai (fld w 19 5) (fld w 14 5) (fld w 0 6))
  else if fld w 6 8 = 192 then
    some (.rori (fld w 19 5) (fld w 14 5) (fld w 0 6))
  else none

/-- Word B, major opcode 0x0B: CMPI. -/
def decB0B (w : W32) : Option Instr :=
  if fld w 22 2 = 0 then
    (Cond.ofCode (fld w 11 3).toNat).bind fun c => some (.cmpi (fld w 19 3) (fld w 14 5) c (fld w 0 11))
  else none

/-- Word B, major opcode 0x10 and 0x12: FADD, FSUB, FMUL, FDIV, FSQRT, FMIN, FMAX, FABS, FNEG. -/
def decB10 (w : W32) : Option Instr :=
  if fld w 0 6 = 0 then
    (Rm.ofCode (fld w 6 3).toNat).bind fun r => some (.fadd (flagOf (fld w 25 1)) (fld w 19 5) (fld w 14 5) (fld w 9 5) r)
  else if fld w 0 6 = 1 then
    (Rm.ofCode (fld w 6 3).toNat).bind fun r => some (.fsub (flagOf (fld w 25 1)) (fld w 19 5) (fld w 14 5) (fld w 9 5) r)
  else if fld w 0 6 = 2 then
    (Rm.ofCode (fld w 6 3).toNat).bind fun r => some (.fmul (flagOf (fld w 25 1)) (fld w 19 5) (fld w 14 5) (fld w 9 5) r)
  else if fld w 0 6 = 3 then
    (Rm.ofCode (fld w 6 3).toNat).bind fun r => some (.fdiv (flagOf (fld w 25 1)) (fld w 19 5) (fld w 14 5) (fld w 9 5) r)
  else if fld w 0 6 = 4 ∧ fld w 9 5 = 0 then
    (Rm.ofCode (fld w 6 3).toNat).bind fun r => some (.fsqrt (flagOf (fld w 25 1)) (fld w 19 5) (fld w 14 5) r)
  else if fld w 0 9 = 5 then
    some (.fmin (flagOf (fld w 25 1)) (fld w 19 5) (fld w 14 5) (fld w 9 5))
  else if fld w 0 9 = 6 then
    some (.fmax (flagOf (fld w 25 1)) (fld w 19 5) (fld w 14 5) (fld w 9 5))
  else if fld w 0 14 = 7 then
    some (.fabs (flagOf (fld w 25 1)) (fld w 19 5) (fld w 14 5))
  else if fld w 0 14 = 8 then
    some (.fneg (flagOf (fld w 25 1)) (fld w 19 5) (fld w 14 5))
  else none

/-- Word B, major opcode 0x11 and 0x13: FMA, FMS, FNMA, FNMS. -/
def decB11 (w : W32) : Option Instr :=
  if fld w 2 2 = 0 then
    (Rm.ofCode (fld w 0 2).toNat).bind fun r => some (.fma (flagOf (fld w 25 1)) (fld w 19 5) (fld w 14 5) (fld w 9 5) (fld w 4 5) r)
  else if fld w 2 2 = 1 then
    (Rm.ofCode (fld w 0 2).toNat).bind fun r => some (.fms (flagOf (fld w 25 1)) (fld w 19 5) (fld w 14 5) (fld w 9 5) (fld w 4 5) r)
  else if fld w 2 2 = 2 then
    (Rm.ofCode (fld w 0 2).toNat).bind fun r => some (.fnma (flagOf (fld w 25 1)) (fld w 19 5) (fld w 14 5) (fld w 9 5) (fld w 4 5) r)
  else if fld w 2 2 = 3 then
    (Rm.ofCode (fld w 0 2).toNat).bind fun r => some (.fnms (flagOf (fld w 25 1)) (fld w 19 5) (fld w 14 5) (fld w 9 5) (fld w 4 5) r)
  else none

/-- Word B, major opcode 0x14: FEQ, FLT, FLE, FUN, FCLASS. -/
def decB14 (w : W32) : Option Instr :=
  if fld w 0 2 = 0 ∧ fld w 3 6 = 0 ∧ fld w 22 2 = 0 then
    some (.feq (fld w 19 3) (fld w 14 5) (fld w 9 5) (flagOf (fld w 2 1)))
  else if fld w 0 2 = 1 ∧ fld w 3 6 = 0 ∧ fld w 22 2 = 0 then
    some (.flt (fld w 19 3) (fld w 14 5) (fld w 9 5) (flagOf (fld w 2 1)))
  else if fld w 0 2 = 2 ∧ fld w 3 6 = 0 ∧ fld w 22 2 = 0 then
    some (.fle (fld w 19 3) (fld w 14 5) (fld w 9 5) (flagOf (fld w 2 1)))
  else if fld w 0 2 = 3 ∧ fld w 3 6 = 0 ∧ fld w 22 2 = 0 then
    some (.fun (fld w 19 3) (fld w 14 5) (fld w 9 5) (flagOf (fld w 2 1)))
  else if fld w 1 13 = 4 then
    some (.fclass (fld w 19 5) (fld w 14 5) (flagOf (fld w 0 1)))
  else none

/-- Word B, major opcode 0x15: CVT_S_D, CVT_D_S, CVT_S_L, CVT_L_S, CVT_S_LU, CVT_LU_S, CVT_BF_S, CVT_E4_S, CVT_S_BF, CVT_S_E4. -/
def decB15 (w : W32) : Option Instr :=
  if fld w 0 6 = 0 ∧ fld w 9 5 = 0 then
    (Rm.ofCode (fld w 6 3).toNat).bind fun r => some (.cvtSD (fld w 19 5) (fld w 14 5) r)
  else if fld w 0 14 = 1 then
    some (.cvtDS (fld w 19 5) (fld w 14 5))
  else if fld w 1 5 = 1 ∧ fld w 9 5 = 0 then
    (Rm.ofCode (fld w 6 3).toNat).bind fun r => some (.cvtSL (fld w 19 5) (fld w 14 5) r (flagOf (fld w 0 1)))
  else if fld w 1 5 = 2 ∧ fld w 9 5 = 0 then
    (Rm.ofCode (fld w 6 3).toNat).bind fun r => some (.cvtLS (fld w 19 5) (fld w 14 5) r (flagOf (fld w 0 1)))
  else if fld w 1 5 = 3 ∧ fld w 9 5 = 0 then
    (Rm.ofCode (fld w 6 3).toNat).bind fun r => some (.cvtSLu (fld w 19 5) (fld w 14 5) r (flagOf (fld w 0 1)))
  else if fld w 1 5 = 4 ∧ fld w 9 5 = 0 then
    (Rm.ofCode (fld w 6 3).toNat).bind fun r => some (.cvtLuS (fld w 19 5) (fld w 14 5) r (flagOf (fld w 0 1)))
  else if fld w 1 5 = 5 ∧ fld w 9 5 = 0 then
    (Rm.ofCode (fld w 6 3).toNat).bind fun r => some (.cvtBfS (fld w 19 5) (fld w 14 5) r (flagOf (fld w 0 1)))
  else if fld w 1 5 = 6 ∧ fld w 9 5 = 0 then
    (Rm.ofCode (fld w 6 3).toNat).bind fun r => some (.cvtE4S (fld w 19 5) (fld w 14 5) r (flagOf (fld w 0 1)))
  else if fld w 1 13 = 7 then
    some (.cvtSBf (fld w 19 5) (fld w 14 5) (flagOf (fld w 0 1)))
  else if fld w 1 13 = 8 then
    some (.cvtSE4 (fld w 19 5) (fld w 14 5) (flagOf (fld w 0 1)))
  else none

/-- Word B, major opcode 0x18: VADD, VSUB, VADD_SAT, VSUB_SAT, VADDU_SAT, VSUBU_SAT, VNEG. -/
def decB18 (w : W32) : Option Instr :=
  if fld w 0 5 = 0 then
    (Lp.ofCode (fld w 9 3).toNat).bind fun l => some (.vadd (fld w 20 4) (fld w 16 4) (fld w 12 4) l (fld w 7 2) (fld w 5 2))
  else if fld w 0 5 = 1 then
    (Lp.ofCode (fld w 9 3).toNat).bind fun l => some (.vsub (fld w 20 4) (fld w 16 4) (fld w 12 4) l (fld w 7 2) (fld w 5 2))
  else if fld w 0 5 = 2 then
    (Lp.ofCode (fld w 9 3).toNat).bind fun l => some (.vaddSat (fld w 20 4) (fld w 16 4) (fld w 12 4) l (fld w 7 2) (fld w 5 2))
  else if fld w 0 5 = 3 then
    (Lp.ofCode (fld w 9 3).toNat).bind fun l => some (.vsubSat (fld w 20 4) (fld w 16 4) (fld w 12 4) l (fld w 7 2) (fld w 5 2))
  else if fld w 0 5 = 4 then
    (Lp.ofCode (fld w 9 3).toNat).bind fun l => some (.vadduSat (fld w 20 4) (fld w 16 4) (fld w 12 4) l (fld w 7 2) (fld w 5 2))
  else if fld w 0 5 = 5 then
    (Lp.ofCode (fld w 9 3).toNat).bind fun l => some (.vsubuSat (fld w 20 4) (fld w 16 4) (fld w 12 4) l (fld w 7 2) (fld w 5 2))
  else if fld w 0 5 = 6 ∧ fld w 7 9 = 0 then
    some (.vneg (fld w 20 4) (fld w 16 4) (fld w 5 2))
  else none

/-- Word B, major opcode 0x19: VAND, VOR, VXOR, VANDN, VNOT, VSHL, VSHR, VSRA. -/
def decB19 (w : W32) : Option Instr :=
  if fld w 0 5 = 0 then
    (Lp.ofCode (fld w 9 3).toNat).bind fun l => some (.vand (fld w 20 4) (fld w 16 4) (fld w 12 4) l (fld w 7 2) (fld w 5 2))
  else if fld w 0 5 = 1 then
    (Lp.ofCode (fld w 9 3).toNat).bind fun l => some (.vor (fld w 20 4) (fld w 16 4) (fld w 12 4) l (fld w 7 2) (fld w 5 2))
  else if fld w 0 5 = 2 then
    (Lp.ofCode (fld w 9 3).toNat).bind fun l => some (.vxor (fld w 20 4) (fld w 16 4) (fld w 12 4) l (fld w 7 2) (fld w 5 2))
  else if fld w 0 5 = 3 then
    (Lp.ofCode (fld w 9 3).toNat).bind fun l => some (.vandn (fld w 20 4) (fld w 16 4) (fld w 12 4) l (fld w 7 2) (fld w 5 2))
  else if fld w 0 5 = 4 ∧ fld w 7 9 = 0 then
    some (.vnot (fld w 20 4) (fld w 16 4) (fld w 5 2))
  else if fld w 0 5 = 5 then
    (Lp.ofCode (fld w 9 3).toNat).bind fun l => some (.vshl (fld w 20 4) (fld w 16 4) (fld w 12 4) l (fld w 7 2) (fld w 5 2))
  else if fld w 0 5 = 6 then
    (Lp.ofCode (fld w 9 3).toNat).bind fun l => some (.vshr (fld w 20 4) (fld w 16 4) (fld w 12 4) l (fld w 7 2) (fld w 5 2))
  else if fld w 0 5 = 7 then
    (Lp.ofCode (fld w 9 3).toNat).bind fun l => some (.vsra (fld w 20 4) (fld w 16 4) (fld w 12 4) l (fld w 7 2) (fld w 5 2))
  else none

/-- Word B, major opcode 0x1A: VMUL, VMULH, VMULHU, VMLA. -/
def decB1A (w : W32) : Option Instr :=
  if fld w 0 5 = 0 then
    (Lp.ofCode (fld w 9 3).toNat).bind fun l => some (.vmul (fld w 20 4) (fld w 16 4) (fld w 12 4) l (fld w 7 2) (fld w 5 2))
  else if fld w 0 5 = 1 then
    (Lp.ofCode (fld w 9 3).toNat).bind fun l => some (.vmulh (fld w 20 4) (fld w 16 4) (fld w 12 4) l (fld w 7 2) (fld w 5 2))
  else if fld w 0 5 = 2 then
    (Lp.ofCode (fld w 9 3).toNat).bind fun l => some (.vmulhu (fld w 20 4) (fld w 16 4) (fld w 12 4) l (fld w 7 2) (fld w 5 2))
  else if fld w 0 5 = 3 then
    (Lp.ofCode (fld w 9 3).toNat).bind fun l => some (.vmla (fld w 20 4) (fld w 16 4) (fld w 12 4) l (fld w 7 2) (fld w 5 2))
  else none

/-- Word B, major opcode 0x1B: VSMIN, VSMAX, VUMIN, VUMAX, VABS. -/
def decB1B (w : W32) : Option Instr :=
  if fld w 0 5 = 0 then
    (Lp.ofCode (fld w 9 3).toNat).bind fun l => some (.vsmin (fld w 20 4) (fld w 16 4) (fld w 12 4) l (fld w 7 2) (fld w 5 2))
  else if fld w 0 5 = 1 then
    (Lp.ofCode (fld w 9 3).toNat).bind fun l => some (.vsmax (fld w 20 4) (fld w 16 4) (fld w 12 4) l (fld w 7 2) (fld w 5 2))
  else if fld w 0 5 = 2 then
    (Lp.ofCode (fld w 9 3).toNat).bind fun l => some (.vumin (fld w 20 4) (fld w 16 4) (fld w 12 4) l (fld w 7 2) (fld w 5 2))
  else if fld w 0 5 = 3 then
    (Lp.ofCode (fld w 9 3).toNat).bind fun l => some (.vumax (fld w 20 4) (fld w 16 4) (fld w 12 4) l (fld w 7 2) (fld w 5 2))
  else if fld w 0 5 = 4 ∧ fld w 7 9 = 0 then
    some (.vabs (fld w 20 4) (fld w 16 4) (fld w 5 2))
  else none

/-- Word B, major opcode 0x1C: VCMP. -/
def decB1C (w : W32) : Option Instr :=
  if fld w 22 2 = 0 then
    (Lp.ofCode (fld w 9 3).toNat).bind fun l => (Cond.ofCode (fld w 0 5).toNat).bind fun c => some (.vcmp (fld w 20 2) (fld w 16 4) (fld w 12 4) l (fld w 7 2) (fld w 5 2) c)
  else none

/-- Word B, major opcode 0x20 and 0x22 and 0x24: VFADD, VFSUB, VFMUL, VFMIN, VFMAX. -/
def decB20 (w : W32) : Option Instr :=
  if fld w 0 3 = 0 then
    (VTy.ofCode (fld w 25 2).toNat).bind fun y => (Lp.ofCode (fld w 9 3).toNat).bind fun l => (Rm.ofCode (fld w 3 2).toNat).bind fun r => some (.vfadd y (fld w 20 4) (fld w 16 4) (fld w 12 4) l (fld w 7 2) (fld w 5 2) r)
  else if fld w 0 3 = 1 then
    (VTy.ofCode (fld w 25 2).toNat).bind fun y => (Lp.ofCode (fld w 9 3).toNat).bind fun l => (Rm.ofCode (fld w 3 2).toNat).bind fun r => some (.vfsub y (fld w 20 4) (fld w 16 4) (fld w 12 4) l (fld w 7 2) (fld w 5 2) r)
  else if fld w 0 3 = 2 then
    (VTy.ofCode (fld w 25 2).toNat).bind fun y => (Lp.ofCode (fld w 9 3).toNat).bind fun l => (Rm.ofCode (fld w 3 2).toNat).bind fun r => some (.vfmul y (fld w 20 4) (fld w 16 4) (fld w 12 4) l (fld w 7 2) (fld w 5 2) r)
  else if fld w 0 5 = 3 then
    (VTy.ofCode (fld w 25 2).toNat).bind fun y => (Lp.ofCode (fld w 9 3).toNat).bind fun l => some (.vfmin y (fld w 20 4) (fld w 16 4) (fld w 12 4) l (fld w 7 2) (fld w 5 2))
  else if fld w 0 5 = 4 then
    (VTy.ofCode (fld w 25 2).toNat).bind fun y => (Lp.ofCode (fld w 9 3).toNat).bind fun l => some (.vfmax y (fld w 20 4) (fld w 16 4) (fld w 12 4) l (fld w 7 2) (fld w 5 2))
  else none

/-- Word B, major opcode 0x21 and 0x23 and 0x25: VFMA, VFMS. -/
def decB21 (w : W32) : Option Instr :=
  if fld w 0 1 = 0 then
    (VTy.ofCode (fld w 25 2).toNat).bind fun y => (Lp.ofCode (fld w 5 3).toNat).bind fun l => some (.vfma y (fld w 20 4) (fld w 16 4) (fld w 12 4) (fld w 8 4) l (fld w 3 2) (fld w 1 2))
  else if fld w 0 1 = 1 then
    (VTy.ofCode (fld w 25 2).toNat).bind fun y => (Lp.ofCode (fld w 5 3).toNat).bind fun l => some (.vfms y (fld w 20 4) (fld w 16 4) (fld w 12 4) (fld w 8 4) l (fld w 3 2) (fld w 1 2))
  else none

/-- Word B, major opcode 0x26: VFCMP. -/
def decB26 (w : W32) : Option Instr :=
  if fld w 22 2 = 0 then
    (Lp.ofCode (fld w 9 3).toNat).bind fun l => (VTy.ofCode (fld w 3 2).toNat).bind fun y => (FCmp.ofCode (fld w 0 3).toNat).bind fun c => some (.vfcmp (fld w 20 2) (fld w 16 4) (fld w 12 4) l (fld w 7 2) (fld w 5 2) y c)
  else none

/-- Word B, major opcode 0x27: VSEL, VMOV. -/
def decB27 (w : W32) : Option Instr :=
  if fld w 0 5 = 0 then
    (Lp.ofCode (fld w 9 3).toNat).bind fun l => some (.vsel (fld w 20 4) (fld w 16 4) (fld w 12 4) l (fld w 7 2) (fld w 5 2))
  else if fld w 0 5 = 1 ∧ fld w 16 4 = 0 then
    (Lp.ofCode (fld w 9 3).toNat).bind fun l => some (.vmov (fld w 20 4) (fld w 12 4) l (fld w 7 2) (fld w 5 2))
  else none

/-- Word B, major opcode 0x28: MAND, MOR, MXOR, MANDN, MNOT, MALL, MNONE, MMOV. -/
def decB28 (w : W32) : Option Instr :=
  if fld w 0 12 = 0 ∧ fld w 14 2 = 0 ∧ fld w 18 2 = 0 ∧ fld w 22 2 = 0 then
    some (.mand (fld w 20 2) (fld w 16 2) (fld w 12 2))
  else if fld w 0 12 = 1 ∧ fld w 14 2 = 0 ∧ fld w 18 2 = 0 ∧ fld w 22 2 = 0 then
    some (.mor (fld w 20 2) (fld w 16 2) (fld w 12 2))
  else if fld w 0 12 = 2 ∧ fld w 14 2 = 0 ∧ fld w 18 2 = 0 ∧ fld w 22 2 = 0 then
    some (.mxor (fld w 20 2) (fld w 16 2) (fld w 12 2))
  else if fld w 0 12 = 3 ∧ fld w 14 2 = 0 ∧ fld w 18 2 = 0 ∧ fld w 22 2 = 0 then
    some (.mandn (fld w 20 2) (fld w 16 2) (fld w 12 2))
  else if fld w 0 16 = 4 ∧ fld w 18 2 = 0 ∧ fld w 22 2 = 0 then
    some (.mnot (fld w 20 2) (fld w 16 2))
  else if fld w 0 20 = 5 ∧ fld w 22 2 = 0 then
    some (.mall (fld w 20 2))
  else if fld w 0 20 = 6 ∧ fld w 22 2 = 0 then
    some (.mnone (fld w 20 2))
  else if fld w 0 16 = 7 ∧ fld w 18 2 = 0 ∧ fld w 22 2 = 0 then
    some (.mmov (fld w 20 2) (fld w 16 2))
  else none

/-- Word B, major opcode 0x29: VBCAST, VINS, VEXT, MRD, MWR, MPOPC, VLEN. -/
def decB29 (w : W32) : Option Instr :=
  if fld w 0 4 = 0 ∧ fld w 7 9 = 0 then
    some (.vbcast (fld w 20 4) (fld w 16 4) (fld w 5 2) (fld w 4 1))
  else if fld w 0 4 = 1 ∧ fld w 5 11 = 0 then
    some (.vins (fld w 20 4) (fld w 16 4) (fld w 4 1))
  else if fld w 0 4 = 2 ∧ fld w 5 2 = 0 ∧ fld w 16 4 = 0 then
    (Lp.ofCode (fld w 9 3).toNat).bind fun l => some (.vext (fld w 20 4) (fld w 12 4) l (fld w 7 2) (fld w 4 1))
  else if fld w 0 4 = 3 ∧ fld w 5 7 = 0 ∧ fld w 14 2 = 0 ∧ fld w 18 2 = 0 then
    some (.mrd (fld w 20 4) (fld w 16 2) (fld w 12 2) (fld w 4 1))
  else if fld w 0 4 = 4 ∧ fld w 5 7 = 0 ∧ fld w 14 2 = 0 ∧ fld w 22 2 = 0 then
    some (.mwr (fld w 20 2) (fld w 16 4) (fld w 12 2) (fld w 4 1))
  else if fld w 0 4 = 5 ∧ fld w 5 11 = 0 ∧ fld w 18 2 = 0 then
    some (.mpopc (fld w 20 4) (fld w 16 2) (fld w 4 1))
  else if fld w 0 4 = 6 ∧ fld w 5 15 = 0 then
    some (.vlen (fld w 20 4) (fld w 4 1))
  else none

/-- Word B, major opcode 0x30: VCVT_S_W, VCVT_W_S, VCVT_BF_S, VCVT_S_BF, VCVT_H_S, VCVT_S_H, VCVT_E_S, VCVT_S_E, VCVT_B_W, VCVT_W_B, VCVT_D_S, VCVT_S_D. -/
def decB30 (w : W32) : Option Instr :=
  if fld w 0 5 = 0 ∧ fld w 7 5 = 0 ∧ fld w 15 1 = 0 then
    (Rm.ofCode (fld w 12 3).toNat).bind fun r => some (.vcvtSW (fld w 20 4) (fld w 16 4) r (fld w 5 2))
  else if fld w 0 5 = 1 ∧ fld w 7 5 = 0 ∧ fld w 15 1 = 0 then
    (Rm.ofCode (fld w 12 3).toNat).bind fun r => some (.vcvtWS (fld w 20 4) (fld w 16 4) r (fld w 5 2))
  else if fld w 1 4 = 1 ∧ fld w 7 5 = 0 ∧ fld w 15 1 = 0 then
    (Rm.ofCode (fld w 12 3).toNat).bind fun r => some (.vcvtBfS (fld w 20 4) (fld w 16 4) r (fld w 5 2) (flagOf (fld w 0 1)))
  else if fld w 1 4 = 2 ∧ fld w 7 9 = 0 then
    some (.vcvtSBf (fld w 20 4) (fld w 16 4) (fld w 5 2) (flagOf (fld w 0 1)))
  else if fld w 1 4 = 3 ∧ fld w 7 5 = 0 ∧ fld w 15 1 = 0 then
    (Rm.ofCode (fld w 12 3).toNat).bind fun r => some (.vcvtHS (fld w 20 4) (fld w 16 4) r (fld w 5 2) (flagOf (fld w 0 1)))
  else if fld w 1 4 = 4 ∧ fld w 7 9 = 0 then
    some (.vcvtSH (fld w 20 4) (fld w 16 4) (fld w 5 2) (flagOf (fld w 0 1)))
  else if fld w 1 4 = 5 ∧ fld w 7 2 = 0 ∧ fld w 11 1 = 0 ∧ fld w 15 1 = 0 then
    (Rm.ofCode (fld w 12 3).toNat).bind fun r => some (.vcvtES (fld w 20 4) (fld w 16 4) r (fld w 9 2) (fld w 5 2) (flagOf (fld w 0 1)))
  else if fld w 1 4 = 6 ∧ fld w 7 2 = 0 ∧ fld w 11 5 = 0 then
    some (.vcvtSE (fld w 20 4) (fld w 16 4) (fld w 9 2) (fld w 5 2) (flagOf (fld w 0 1)))
  else if fld w 0 5 = 14 ∧ fld w 7 2 = 0 ∧ fld w 11 5 = 0 then
    some (.vcvtBW (fld w 20 4) (fld w 16 4) (fld w 9 2) (fld w 5 2))
  else if fld w 0 5 = 15 ∧ fld w 7 2 = 0 ∧ fld w 11 5 = 0 then
    some (.vcvtWB (fld w 20 4) (fld w 16 4) (fld w 9 2) (fld w 5 2))
  else if fld w 0 5 = 16 ∧ fld w 7 9 = 0 then
    some (.vcvtDS (fld w 20 4) (fld w 16 4) (fld w 5 2))
  else if fld w 0 5 = 17 ∧ fld w 7 5 = 0 ∧ fld w 15 1 = 0 then
    (Rm.ofCode (fld w 12 3).toNat).bind fun r => some (.vcvtSD (fld w 20 4) (fld w 16 4) r (fld w 5 2))
  else none

/-- Word B, major opcode 0x31: VRED. -/
def decB31 (w : W32) : Option Instr :=
  if fld w 7 9 = 0 then
    (VRedOp.ofCode (fld w 0 5).toNat).bind fun o => some (.vred (fld w 20 4) (fld w 16 4) (fld w 5 2) o)
  else none

/-- Word B, major opcode 0x32: VPERM, VPERM_B, VCOMPRESS. -/
def decB32 (w : W32) : Option Instr :=
  if fld w 0 5 = 0 then
    (Lp.ofCode (fld w 9 3).toNat).bind fun l => some (.vperm (fld w 20 4) (fld w 16 4) (fld w 12 4) l (fld w 7 2) (fld w 5 2))
  else if fld w 0 5 = 1 then
    (Lp.ofCode (fld w 9 3).toNat).bind fun l => some (.vpermB (fld w 20 4) (fld w 16 4) (fld w 12 4) l (fld w 7 2) (fld w 5 2))
  else if fld w 0 5 = 2 ∧ fld w 7 9 = 0 then
    some (.vcompress (fld w 20 4) (fld w 16 4) (fld w 5 2))
  else none

/-- Word B, major opcode 0x00: ARITHMETIC_NO_OP. -/
def decB00 (w : W32) : Option Instr :=
  if fld w 0 24 = 0 then
    some (.arithmeticNoOp)
  else none

/-- The instruction that the bits [29:0] of a word B give, by its major opcode (R210); fields only, before `Instr.wf`. -/
def fieldsB (w : W32) : Option Instr :=
  match (fld w 24 6).toNat with
  | 0x01 => decB01 w
  | 0x02 => decB02 w
  | 0x03 => decB03 w
  | 0x04 => decB04 w
  | 0x05 => decB05 w
  | 0x06 => decB06 w
  | 0x07 => decB07 w
  | 0x08 => decB08 w
  | 0x09 => decB09 w
  | 0x0A => decB0A w
  | 0x0B => decB0B w
  | 0x10 => decB10 w
  | 0x12 => decB10 w
  | 0x11 => decB11 w
  | 0x13 => decB11 w
  | 0x14 => decB14 w
  | 0x15 => decB15 w
  | 0x18 => decB18 w
  | 0x19 => decB19 w
  | 0x1A => decB1A w
  | 0x1B => decB1B w
  | 0x1C => decB1C w
  | 0x20 => decB20 w
  | 0x22 => decB20 w
  | 0x24 => decB20 w
  | 0x21 => decB21 w
  | 0x23 => decB21 w
  | 0x25 => decB21 w
  | 0x26 => decB26 w
  | 0x27 => decB27 w
  | 0x28 => decB28 w
  | 0x29 => decB29 w
  | 0x30 => decB30 w
  | 0x31 => decB31 w
  | 0x32 => decB32 w
  | 0x00 => decB00 w
  | _ => none

/-- Why a bundle or a word is no instruction: the cases of R202 (cause 0x01) and R211 (cause 0x02). -/
inductive DecodeError where
  /-- FMT is 11. -/
  | reservedFormat
  /-- A lone bundle whose word B is not zero. -/
  | loneTail
  /-- Major opcode 0x00 in word A. -/
  | zeroMajor
  /-- A dictionary bundle that breaks the layout of R218. -/
  | dictLayout
  /-- A word with a reserved major opcode, an undefined MIN, a reserved operand or a set bit in an unused field. -/
  | illegalWord (w : W32)
deriving DecidableEq, Repr

/-- Word A of a pair, a lone bundle or an A-class expansion; bits [31:30] are not part of the word. -/
def decodeA (w : W32) : Except DecodeError Instr :=
  match fieldsA w with
  | some i => if i.wf then .ok i else .error (.illegalWord w)
  | none => .error (.illegalWord w)

/-- Word B of a pair or a B-class expansion; bits [31:30] are NX, not part of the word. -/
def decodeB (w : W32) : Except DecodeError Instr :=
  match fieldsB w with
  | some i => if i.wf then .ok i else .error (.illegalWord w)
  | none => .error (.illegalWord w)

/-- A bundle by its format (R201): its words are decoded when they issue. -/
inductive Bundle where
  | pair (a b : W32)
  | lone (a : W32)
  | dict (cnt : BitVec 2) (s0 s1 s2 s3 : BitVec 14)
deriving DecidableEq, Repr

/-- The format checks of R202, which come before every other cause of the bundle. -/
def decodeBundle (a b : W32) : Except DecodeError Bundle :=
  match (fld a 30 2).toNat with
  | 0 => if fld a 24 6 = 0 then .error .zeroMajor else .ok (.pair a b)
  | 1 =>
    if b ≠ 0 then .error .loneTail
    else if fld a 24 6 = 0 then .error .zeroMajor else .ok (.lone a)
  | 2 =>
    let cnt := fld a 28 2
    let s1 := fld a 0 14
    let s2 := fld b 14 14
    let s3 := fld b 0 14
    if fld b 28 4 ≠ 0 ∨ (cnt.toNat < 1 ∧ s1 ≠ 0) ∨ (cnt.toNat < 2 ∧ s2 ≠ 0) ∨ (cnt.toNat < 3 ∧ s3 ≠ 0) then
      .error .dictLayout
    else .ok (.dict cnt (fld a 14 14) s1 s2 s3)
  | _ => .error .reservedFormat

/-- The two sides of a bundle, or an event, which has no encoding. -/
inductive Side where
  | wordA | wordB | event
deriving DecidableEq, Repr

/-- The side on which an instruction stands (R209, R210, R236). -/
def Instr.side : Instr → Side
  | .ld _ _ _ _ => .wordA
  | .ldIndexed _ _ _ _ => .wordA
  | .ldxB _ _ _ => .wordA
  | .ldxH _ _ _ => .wordA
  | .ldk _ _ => .wordA
  | .pfL1 _ _ => .wordA
  | .pfL2 _ _ => .wordA
  | .st _ _ _ _ => .wordA
  | .stIndexed _ _ _ _ => .wordA
  | .stxB _ _ _ => .wordA
  | .stxH _ _ _ => .wordA
  | .amo _ _ _ _ _ _ => .wordA
  | .amoCas _ _ _ _ _ => .wordA
  | .red _ _ _ _ => .wordA
  | .push _ _ _ _ _ => .wordA
  | .pop _ _ _ _ _ => .wordA
  | .fence _ => .wordA
  | .xfi _ => .wordA
  | .xfw _ => .wordA
  | .bind _ _ _ => .wordA
  | .acq _ _ _ => .wordA
  | .rel _ _ _ => .wordA
  | .waitc _ _ _ _ => .wordA
  | .waita _ _ _ _ _ => .wordA
  | .arrive _ => .wordA
  | .arriveSs _ => .wordA
  | .waitb _ => .wordA
  | .br _ _ _ => .wordA
  | .call _ _ _ => .wordA
  | .jr _ => .wordA
  | .callr _ => .wordA
  | .movJa0FromG _ => .wordA
  | .movJa1FromG _ => .wordA
  | .movLrFromG _ => .wordA
  | .movGFromJa0 _ => .wordA
  | .movGFromJa1 _ => .wordA
  | .movGFromLr _ => .wordA
  | .rdpc _ => .wordA
  | .movGFromLs _ _ => .wordA
  | .movGFromLe _ _ => .wordA
  | .movGFromLc _ _ => .wordA
  | .movLsFromG _ _ => .wordA
  | .movLeFromG _ _ => .wordA
  | .movLcFromG _ _ => .wordA
  | .loop _ _ _ => .wordA
  | .haltRet _ => .wordA
  | .gang _ => .wordA
  | .adda _ _ _ => .wordA
  | .movi _ _ => .wordA
  | .movk _ _ _ => .wordA
  | .cstep _ _ _ => .wordA
  | .cwrap _ _ _ => .wordA
  | .cdiff _ _ _ => .wordA
  | .crect _ _ => .wordA
  | .cidx _ _ => .wordA
  | .cclus _ _ => .wordA
  | .hgrant _ _ _ => .wordA
  | .hpassX _ _ _ => .wordA
  | .hpassS _ _ _ => .wordA
  | .htake _ _ => .wordA
  | .hrecall _ => .wordA
  | .hrel _ => .wordA
  | .vclaim _ _ => .wordA
  | .vrenew _ _ => .wordA
  | .vld _ _ _ _ => .wordA
  | .vldS _ _ _ _ => .wordA
  | .vldBc _ _ _ _ => .wordA
  | .vldG _ _ _ _ => .wordA
  | .vst _ _ _ _ => .wordA
  | .vstS _ _ _ _ => .wordA
  | .vstG _ _ _ _ => .wordA
  | .sfucmd _ _ _ _ _ _ _ => .wordA
  | .srd _ _ => .wordA
  | .swr _ _ => .wordA
  | .srset _ _ _ => .wordA
  | .srclr _ _ _ => .wordA
  | .lease _ _ => .wordA
  | .leaseq _ => .wordA
  | .leaseend _ => .wordA
  | .dictld _ _ => .wordA
  | .dictsel _ => .wordA
  | .dictrd _ _ _ => .wordA
  | .trap _ => .wordA
  | .tlbinvVa _ _ => .wordA
  | .tlbinvAsid _ => .wordA
  | .larm _ _ => .wordA
  | .add _ _ _ => .wordB
  | .sub _ _ _ => .wordB
  | .neg _ _ => .wordB
  | .abs _ _ => .wordB
  | .addW _ _ _ => .wordB
  | .subW _ _ _ => .wordB
  | .addSat _ _ _ => .wordB
  | .subSat _ _ _ => .wordB
  | .and _ _ _ => .wordB
  | .or _ _ _ => .wordB
  | .xor _ _ _ => .wordB
  | .andn _ _ _ => .wordB
  | .orn _ _ _ => .wordB
  | .xnor _ _ _ => .wordB
  | .not _ _ => .wordB
  | .shl _ _ _ => .wordB
  | .shr _ _ _ => .wordB
  | .sra _ _ _ => .wordB
  | .rol _ _ _ => .wordB
  | .ror _ _ _ => .wordB
  | .shlW _ _ _ => .wordB
  | .shrW _ _ _ => .wordB
  | .sraW _ _ _ => .wordB
  | .mul _ _ _ => .wordB
  | .mulh _ _ _ => .wordB
  | .mulhu _ _ _ => .wordB
  | .mulW _ _ _ => .wordB
  | .div _ _ _ => .wordB
  | .divu _ _ _ => .wordB
  | .rem _ _ _ => .wordB
  | .remu _ _ _ => .wordB
  | .divW _ _ _ => .wordB
  | .divuW _ _ _ => .wordB
  | .remW _ _ _ => .wordB
  | .remuW _ _ _ => .wordB
  | .cmp _ _ _ _ => .wordB
  | .pand _ _ _ => .wordB
  | .por _ _ _ => .wordB
  | .pxor _ _ _ => .wordB
  | .pandn _ _ _ => .wordB
  | .pnot _ _ => .wordB
  | .pread _ => .wordB
  | .pwrite _ => .wordB
  | .ptest _ _ => .wordB
  | .sel _ _ _ _ => .wordB
  | .smin _ _ _ => .wordB
  | .smax _ _ _ => .wordB
  | .umin _ _ _ => .wordB
  | .umax _ _ _ => .wordB
  | .popc _ _ => .wordB
  | .clz _ _ => .wordB
  | .ctz _ _ => .wordB
  | .ext _ _ _ => .wordB
  | .exts _ _ _ => .wordB
  | .ins _ _ _ => .wordB
  | .addi _ _ _ => .wordB
  | .andi _ _ _ => .wordB
  | .ori _ _ _ => .wordB
  | .xori _ _ _ => .wordB
  | .shli _ _ _ => .wordB
  | .shri _ _ _ => .wordB
  | .srai _ _ _ => .wordB
  | .rori _ _ _ => .wordB
  | .cmpi _ _ _ _ => .wordB
  | .fadd _ _ _ _ _ => .wordB
  | .fsub _ _ _ _ _ => .wordB
  | .fmul _ _ _ _ _ => .wordB
  | .fdiv _ _ _ _ _ => .wordB
  | .fsqrt _ _ _ _ => .wordB
  | .fmin _ _ _ _ => .wordB
  | .fmax _ _ _ _ => .wordB
  | .fabs _ _ _ => .wordB
  | .fneg _ _ _ => .wordB
  | .fma _ _ _ _ _ _ => .wordB
  | .fms _ _ _ _ _ _ => .wordB
  | .fnma _ _ _ _ _ _ => .wordB
  | .fnms _ _ _ _ _ _ => .wordB
  | .feq _ _ _ _ => .wordB
  | .flt _ _ _ _ => .wordB
  | .fle _ _ _ _ => .wordB
  | .fun _ _ _ _ => .wordB
  | .fclass _ _ _ => .wordB
  | .cvtSD _ _ _ => .wordB
  | .cvtDS _ _ => .wordB
  | .cvtSL _ _ _ _ => .wordB
  | .cvtLS _ _ _ _ => .wordB
  | .cvtSLu _ _ _ _ => .wordB
  | .cvtLuS _ _ _ _ => .wordB
  | .cvtBfS _ _ _ _ => .wordB
  | .cvtE4S _ _ _ _ => .wordB
  | .cvtSBf _ _ _ => .wordB
  | .cvtSE4 _ _ _ => .wordB
  | .vadd _ _ _ _ _ _ => .wordB
  | .vsub _ _ _ _ _ _ => .wordB
  | .vaddSat _ _ _ _ _ _ => .wordB
  | .vsubSat _ _ _ _ _ _ => .wordB
  | .vadduSat _ _ _ _ _ _ => .wordB
  | .vsubuSat _ _ _ _ _ _ => .wordB
  | .vneg _ _ _ => .wordB
  | .vand _ _ _ _ _ _ => .wordB
  | .vor _ _ _ _ _ _ => .wordB
  | .vxor _ _ _ _ _ _ => .wordB
  | .vandn _ _ _ _ _ _ => .wordB
  | .vnot _ _ _ => .wordB
  | .vshl _ _ _ _ _ _ => .wordB
  | .vshr _ _ _ _ _ _ => .wordB
  | .vsra _ _ _ _ _ _ => .wordB
  | .vmul _ _ _ _ _ _ => .wordB
  | .vmulh _ _ _ _ _ _ => .wordB
  | .vmulhu _ _ _ _ _ _ => .wordB
  | .vmla _ _ _ _ _ _ => .wordB
  | .vsmin _ _ _ _ _ _ => .wordB
  | .vsmax _ _ _ _ _ _ => .wordB
  | .vumin _ _ _ _ _ _ => .wordB
  | .vumax _ _ _ _ _ _ => .wordB
  | .vabs _ _ _ => .wordB
  | .vcmp _ _ _ _ _ _ _ => .wordB
  | .vfadd _ _ _ _ _ _ _ _ => .wordB
  | .vfsub _ _ _ _ _ _ _ _ => .wordB
  | .vfmul _ _ _ _ _ _ _ _ => .wordB
  | .vfmin _ _ _ _ _ _ _ => .wordB
  | .vfmax _ _ _ _ _ _ _ => .wordB
  | .vfma _ _ _ _ _ _ _ _ => .wordB
  | .vfms _ _ _ _ _ _ _ _ => .wordB
  | .vfcmp _ _ _ _ _ _ _ _ => .wordB
  | .vsel _ _ _ _ _ _ => .wordB
  | .vmov _ _ _ _ _ => .wordB
  | .mand _ _ _ => .wordB
  | .mor _ _ _ => .wordB
  | .mxor _ _ _ => .wordB
  | .mandn _ _ _ => .wordB
  | .mnot _ _ => .wordB
  | .mall _ => .wordB
  | .mnone _ => .wordB
  | .mmov _ _ => .wordB
  | .vbcast _ _ _ _ => .wordB
  | .vins _ _ _ => .wordB
  | .vext _ _ _ _ _ => .wordB
  | .mrd _ _ _ _ => .wordB
  | .mwr _ _ _ _ => .wordB
  | .mpopc _ _ _ => .wordB
  | .vlen _ _ => .wordB
  | .vcvtSW _ _ _ _ => .wordB
  | .vcvtWS _ _ _ _ => .wordB
  | .vcvtBfS _ _ _ _ _ => .wordB
  | .vcvtSBf _ _ _ _ => .wordB
  | .vcvtHS _ _ _ _ _ => .wordB
  | .vcvtSH _ _ _ _ => .wordB
  | .vcvtES _ _ _ _ _ _ => .wordB
  | .vcvtSE _ _ _ _ _ => .wordB
  | .vcvtBW _ _ _ _ => .wordB
  | .vcvtWB _ _ _ _ => .wordB
  | .vcvtDS _ _ _ => .wordB
  | .vcvtSD _ _ _ _ => .wordB
  | .vred _ _ _ _ => .wordB
  | .vperm _ _ _ _ _ _ => .wordB
  | .vpermB _ _ _ _ _ _ => .wordB
  | .vcompress _ _ _ => .wordB
  | .sfufence => .wordA
  | .nop => .wordA
  | .yield => .wordA
  | .ret => .wordA
  | .halt => .wordA
  | .split => .wordA
  | .vrel => .wordA
  | .dictfence => .wordA
  | .rft => .wordA
  | .tlbinvAll => .wordA
  | .icsync => .wordA
  | .arithmeticNoOp => .wordB
  | .mma _ _ _ => .event
  | .mdist _ _ _ => .event
  | .topk _ _ _ => .event
  | .acz _ _ => .event
  | .acl _ _ => .event
  | .epi _ _ _ => .event
  | .outputBufferDrain _ _ => .event
  | .engineCountDown _ => .event
  | .cpctlGo _ _ => .event
  | .shadowSwapIn _ _ _ => .event
  | .faultRecordClear _ _ => .event
  | .sfuRequestStart _ _ => .event
  | .sfuResult _ _ => .event
  | .missRetry _ => .event
  | .walk _ _ => .event
  | .sliceRequest _ => .event
  | .retryTimerExpiry _ => .event
  | .missFill _ => .event
  | .recall _ _ _ => .event
  | .ownedLineTimeout _ _ _ => .event
  | .farAtomic _ => .event
  | .reductionPacketArrival _ => .event
  | .reductionApply _ => .event
  | .buckleArrival _ => .event
  | .windowExpiry _ => .event
  | .exchangeApply _ => .event
  | .watchNotify _ => .event
  | .watchPoll _ => .event
  | .waitaTimeout _ => .event
  | .replyArrival _ => .event
  | .floorIssue _ => .event
  | .trapEntry _ => .event
  | .endContext _ => .event
  | .preemptionAccept _ => .event
  | .resumption _ => .event
  | .haltSequence _ => .event
  | .gangTimeout _ => .event
  | .phaseComplete _ _ => .event
  | .girthTimeout _ => .event
  | .barrierPacket _ _ _ => .event
  | .npcountLimit _ => .event
  | .dictionaryLoadComplete _ => .event
  | .replayEntryIssue _ _ _ => .event
  | .bankPowerGate _ _ _ => .event
  | .retainTimeout _ _ _ => .event
  | .uncorrectableError _ => .event
  | .patrolScrub _ _ => .event
  | .arm _ => .event
  | .complete _ => .event
  | .blockDeal _ => .event
  | .dispatch _ => .event
  | .hqtailWrite _ _ _ => .event
  | .nopEntry _ _ => .event
  | .launchEntry _ _ => .event
  | .signalEntry _ _ => .event
  | .hqctlWrite _ _ _ => .event
  | .hqdescWrite _ _ _ => .event
  | .rowWithhold _ _ _ _ => .event
  | .tqconsWrite _ _ => .event
  | .preEmpt _ _ _ => .event
  | .preEmptAndHold _ _ _ => .event
  | .resumeHeldContexts _ _ _ => .event
  | .haltTreeStop _ => .event
  | .haltTreeRelease _ => .event
  | .selfTestStart _ => .event
  | .selfTestWithdraw _ => .event
  | .selfTestResult _ _ => .event
  | .openInterval _ _ => .event
  | .closeInterval _ _ => .event
  | .rollBack _ _ => .event
  | .copyDramToKeep _ => .event
  | .copyKeepToDram _ => .event
  | .stallSample _ _ _ _ _ => .event
  | .meltEstimate _ _ => .event
  | .leaseTimerExpiry _ _ => .event
  | .rampupComplete _ _ => .event
  | .rampdownComplete _ _ => .event
  | .voltageStep _ _ => .event
  | .throttleStart _ _ => .event
  | .throttleEnd _ => .event
  | .leasecfgKill _ _ => .event
  | .energyFlush _ => .event
  | .dieGate _ => .event
  | .dieWake _ => .event
  | .debugDictionaryWrite _ _ _ _ => .event
  | .huberrErrntClear _ => .event
  | .poisonaddrValidClear _ => .event
  | .hostMemAccess _ _ _ => .event
  | .bisnpResponse _ _ => .event
  | .hostBar0Access _ _ _ => .event
  | .hostBar2Access _ _ _ _ => .event
  | .powerOn => .event
  | .bootcmdStart _ => .event
  | .clockLock _ => .event
  | .linkTrain _ => .event
  | .hubTestResult _ _ _ => .event
  | .clockedTimeout _ => .event
  | .hubTestTimeout _ => .event
  | .commit _ => .event
  | .serve _ => .event
  | .configSetWrite _ _ _ => .event
  | .startFailure => .event
  | .standbyPowerRemoval => .event
  | .quote _ => .event
  | .mctpControl _ _ => .event
  | .pldmSensorRead _ _ => .event
  | .coolantAlarmEffecter _ _ => .event
  | .vendorMessage _ _ => .event
  | .moduleLinkFlit _ _ _ => .event
  | .moduleLinkDown _ => .event
  | .moduleLinkRetrain _ _ => .event
  | .peerReplyTimeout _ => .event
  | .multicastBranch _ => .event
  | .registerWrite _ _ _ => .event
  | .writeAcknowledged _ => .event
  | .mainPowerLoss => .event
  | .standbyPowerApplied => .event
  | .hostPortTrain _ _ => .event
  | .testPortAccess _ _ _ => .event
  | .queueSwitchComplete _ _ => .event
  | .quoteDone _ => .event
  | .checkpointOpDone _ => .event

/-- Bits [29:0] of the word of an instruction, with bits [31:30] zero; an event has none. The form and the fixed bits
are those of the instruction's own rule. -/
def encodeNat : Instr → Nat
  | .ld d a m o => 0x01000000 + d.toNat * 0x80000 + a.toNat * 0x4000 + m.code * 0x800 + o.toNat
  | .ldIndexed d a b m => 0x02000000 + d.toNat * 0x80000 + a.toNat * 0x4000 + b.toNat * 0x200 + m.code
  | .ldxB d a o => 0x03000000 + d.toNat * 0x80000 + a.toNat * 0x4000 + o.toNat
  | .ldxH d a o => 0x03000800 + d.toNat * 0x80000 + a.toNat * 0x4000 + o.toNat
  | .ldk d k => 0x04000000 + d.toNat * 0x80000 + k.toNat * 0x800
  | .pfL1 a o => 0x05000000 + a.toNat * 0x4000 + o.toNat
  | .pfL2 a o => 0x05000800 + a.toNat * 0x4000 + o.toNat
  | .st s a m o => 0x08000000 + s.toNat * 0x80000 + a.toNat * 0x4000 + m.code * 0x800 + o.toNat
  | .stIndexed s a b m => 0x09000000 + s.toNat * 0x80000 + a.toNat * 0x4000 + b.toNat * 0x200 + m.code
  | .stxB s a o => 0x0A000000 + s.toNat * 0x80000 + a.toNat * 0x4000 + o.toNat
  | .stxH s a o => 0x0A000800 + s.toNat * 0x80000 + a.toNat * 0x4000 + o.toNat
  | .amo d a s r z o => 0x10000000 + d.toNat * 0x80000 + a.toNat * 0x4000 + s.toNat * 0x200 + r.code * 0x20 + z.toNat * 0x10 + o.code
  | .amoCas d a c r z => 0x11000000 + d.toNat * 0x80000 + a.toNat * 0x4000 + c.toNat * 0x400 + r.code * 0x2 + z.toNat
  | .red a s z o => 0x12000000 + a.toNat * 0x4000 + s.toNat * 0x200 + z.toNat * 0x10 + o.code
  | .push d a s w e => 0x13000000 + d.toNat * 0x80000 + a.toNat * 0x4000 + s.toNat * 0x200 + w.toNat * 0x8 + e.code
  | .pop d a p w e => 0x14000000 + d.toNat * 0x80000 + a.toNat * 0x4000 + p.toNat * 0x200 + w.toNat * 0x8 + e.code
  | .fence e => 0x18000000 + e.code
  | .xfi d => 0x18000008 + d.toNat * 0x80000
  | .xfw a => 0x18000010 + a.toNat * 0x4000
  | .bind d a b => 0x19000000 + d.toNat * 0x80000 + a.toNat * 0x4000 + b.toNat * 0x200
  | .acq d a e => 0x19000008 + d.toNat * 0x80000 + a.toNat * 0x4000 + e.code
  | .rel a b e => 0x19000010 + a.toNat * 0x4000 + b.toNat * 0x200 + e.code
  | .waitc l s c t => 0x1A000000 + l.toNat * 0x80000 + s.toNat * 0x4000 + c.toNat * 0x200 + t.toNat * 0x10
  | .waita d a b t n => 0x1A000001 + d.toNat * 0x80000 + a.toNat * 0x4000 + b.toNat * 0x200 + t.toNat * 0x40 + n.toNat * 0x10
  | .arrive g => 0x1B000000 + g.toNat
  | .arriveSs g => 0x1B000008 + g.toNat
  | .waitb g => 0x1B000010 + g.toNat
  | .br p n d => 0x21000000 + p.toNat * 0x200000 + n.toNat * 0x100000 + d.toNat
  | .call p n d => 0x22000000 + p.toNat * 0x200000 + n.toNat * 0x100000 + d.toNat
  | .jr a => 0x23000000 + a.toNat * 0x4000
  | .callr a => 0x23000001 + a.toNat * 0x4000
  | .movJa0FromG a => 0x23000003 + a.toNat * 0x4000
  | .movJa1FromG a => 0x23000004 + a.toNat * 0x4000
  | .movLrFromG a => 0x23000005 + a.toNat * 0x4000
  | .movGFromJa0 d => 0x23000006 + d.toNat * 0x80000
  | .movGFromJa1 d => 0x23000007 + d.toNat * 0x80000
  | .movGFromLr d => 0x23000008 + d.toNat * 0x80000
  | .rdpc d => 0x2300000C + d.toNat * 0x80000
  | .movGFromLs d n => 0x23000010 + d.toNat * 0x80000 + n.toNat
  | .movGFromLe d n => 0x23000014 + d.toNat * 0x80000 + n.toNat
  | .movGFromLc d n => 0x23000018 + d.toNat * 0x80000 + n.toNat
  | .movLsFromG a n => 0x23000020 + a.toNat * 0x4000 + n.toNat
  | .movLeFromG a n => 0x23000024 + a.toNat * 0x4000 + n.toNat
  | .movLcFromG a n => 0x23000028 + a.toNat * 0x4000 + n.toNat
  | .loop l a i => 0x24000000 + l.toNat * 0x80000 + a.toNat * 0x4000 + i.toNat
  | .haltRet a => 0x25000001 + a.toNat * 0x4000
  | .gang d => 0x26000000 + d.toNat * 0x80000
  | .adda d a i => 0x28000000 + d.toNat * 0x80000 + a.toNat * 0x4000 + i.toNat
  | .movi d i => 0x29000000 + d.toNat * 0x80000 + i.toNat
  | .movk d c v => 0x2A000000 + d.toNat * 0x80000 + c.toNat * 0x10000 + v.toNat
  | .cstep d a b => 0x2B000000 + d.toNat * 0x80000 + a.toNat * 0x4000 + b.toNat * 0x200
  | .cwrap d a b => 0x2B000001 + d.toNat * 0x80000 + a.toNat * 0x4000 + b.toNat * 0x200
  | .cdiff d a b => 0x2B000002 + d.toNat * 0x80000 + a.toNat * 0x4000 + b.toNat * 0x200
  | .crect d a => 0x2B000003 + d.toNat * 0x80000 + a.toNat * 0x4000
  | .cidx d a => 0x2B000004 + d.toNat * 0x80000 + a.toNat * 0x4000
  | .cclus d a => 0x2B000005 + d.toNat * 0x80000 + a.toNat * 0x4000
  | .hgrant d a b => 0x30000000 + d.toNat * 0x80000 + a.toNat * 0x4000 + b.toNat * 0x200
  | .hpassX d a b => 0x30000001 + d.toNat * 0x80000 + a.toNat * 0x4000 + b.toNat * 0x200
  | .hpassS d a b => 0x30000002 + d.toNat * 0x80000 + a.toNat * 0x4000 + b.toNat * 0x200
  | .htake d a => 0x30000003 + d.toNat * 0x80000 + a.toNat * 0x4000
  | .hrecall a => 0x30000004 + a.toNat * 0x4000
  | .hrel a => 0x30000005 + a.toNat * 0x4000
  | .vclaim d w => 0x31000000 + d.toNat * 0x80000 + w.toNat
  | .vrenew d w => 0x31001000 + d.toNat * 0x80000 + w.toNat
  | .vld v a k o => 0x32000000 + v.toNat * 0x100000 + a.toNat * 0x8000 + k.toNat * 0x2000 + o.toNat
  | .vldS v a k o => 0x32000800 + v.toNat * 0x100000 + a.toNat * 0x8000 + k.toNat * 0x2000 + o.toNat
  | .vldBc v a k o => 0x32001000 + v.toNat * 0x100000 + a.toNat * 0x8000 + k.toNat * 0x2000 + o.toNat
  | .vldG v a k i => 0x32001800 + v.toNat * 0x100000 + a.toNat * 0x8000 + k.toNat * 0x2000 + i.toNat
  | .vst v a k o => 0x33000000 + v.toNat * 0x100000 + a.toNat * 0x8000 + k.toNat * 0x2000 + o.toNat
  | .vstS v a k o => 0x33000800 + v.toNat * 0x100000 + a.toNat * 0x8000 + k.toNat * 0x2000 + o.toNat
  | .vstG v a k i => 0x33001800 + v.toNat * 0x100000 + a.toNat * 0x8000 + k.toNat * 0x2000 + i.toNat
  | .sfucmd d a b e l q u => 0x34000000 + d.toNat * 0x80000 + a.toNat * 0x4000 + b.toNat * 0x200 + e.code * 0x40 + l.toNat * 0x20 + q.toNat * 0x10 + u.code
  | .srd d n => 0x38000000 + d.toNat * 0x80000 + n.toNat
  | .swr a n => 0x38001000 + a.toNat * 0x4000 + n.toNat
  | .srset d a n => 0x38002000 + d.toNat * 0x80000 + a.toNat * 0x4000 + n.toNat
  | .srclr d a n => 0x38003000 + d.toNat * 0x80000 + a.toNat * 0x4000 + n.toNat
  | .lease d a => 0x39000000 + d.toNat * 0x80000 + a.toNat * 0x4000
  | .leaseq d => 0x39000001 + d.toNat * 0x80000
  | .leaseend d => 0x39000002 + d.toNat * 0x80000
  | .dictld a b => 0x3A000000 + a.toNat * 0x4000 + b.toNat * 0x1000
  | .dictsel b => 0x3A000200 + b.toNat * 0x1000
  | .dictrd d a b => 0x3A000600 + d.toNat * 0x80000 + a.toNat * 0x4000 + b.toNat * 0x1000
  | .trap n => 0x3B000000 + n.toNat * 0x200
  | .tlbinvVa a b => 0x3B000002 + a.toNat * 0x4000 + b.toNat * 0x200
  | .tlbinvAsid a => 0x3B000003 + a.toNat * 0x4000
  | .larm d a => 0x3B000006 + d.toNat * 0x80000 + a.toNat * 0x4000
  | .add d a b => 0x01000000 + d.toNat * 0x80000 + a.toNat * 0x4000 + b.toNat * 0x200
  | .sub d a b => 0x01000001 + d.toNat * 0x80000 + a.toNat * 0x4000 + b.toNat * 0x200
  | .neg d a => 0x01000002 + d.toNat * 0x80000 + a.toNat * 0x4000
  | .abs d a => 0x01000003 + d.toNat * 0x80000 + a.toNat * 0x4000
  | .addW d a b => 0x01000004 + d.toNat * 0x80000 + a.toNat * 0x4000 + b.toNat * 0x200
  | .subW d a b => 0x01000005 + d.toNat * 0x80000 + a.toNat * 0x4000 + b.toNat * 0x200
  | .addSat d a b => 0x01000006 + d.toNat * 0x80000 + a.toNat * 0x4000 + b.toNat * 0x200
  | .subSat d a b => 0x01000007 + d.toNat * 0x80000 + a.toNat * 0x4000 + b.toNat * 0x200
  | .and d a b => 0x02000000 + d.toNat * 0x80000 + a.toNat * 0x4000 + b.toNat * 0x200
  | .or d a b => 0x02000001 + d.toNat * 0x80000 + a.toNat * 0x4000 + b.toNat * 0x200
  | .xor d a b => 0x02000002 + d.toNat * 0x80000 + a.toNat * 0x4000 + b.toNat * 0x200
  | .andn d a b => 0x02000003 + d.toNat * 0x80000 + a.toNat * 0x4000 + b.toNat * 0x200
  | .orn d a b => 0x02000004 + d.toNat * 0x80000 + a.toNat * 0x4000 + b.toNat * 0x200
  | .xnor d a b => 0x02000005 + d.toNat * 0x80000 + a.toNat * 0x4000 + b.toNat * 0x200
  | .not d a => 0x02000006 + d.toNat * 0x80000 + a.toNat * 0x4000
  | .shl d a b => 0x03000000 + d.toNat * 0x80000 + a.toNat * 0x4000 + b.toNat * 0x200
  | .shr d a b => 0x03000001 + d.toNat * 0x80000 + a.toNat * 0x4000 + b.toNat * 0x200
  | .sra d a b => 0x03000002 + d.toNat * 0x80000 + a.toNat * 0x4000 + b.toNat * 0x200
  | .rol d a b => 0x03000003 + d.toNat * 0x80000 + a.toNat * 0x4000 + b.toNat * 0x200
  | .ror d a b => 0x03000004 + d.toNat * 0x80000 + a.toNat * 0x4000 + b.toNat * 0x200
  | .shlW d a b => 0x03000005 + d.toNat * 0x80000 + a.toNat * 0x4000 + b.toNat * 0x200
  | .shrW d a b => 0x03000006 + d.toNat * 0x80000 + a.toNat * 0x4000 + b.toNat * 0x200
  | .sraW d a b => 0x03000007 + d.toNat * 0x80000 + a.toNat * 0x4000 + b.toNat * 0x200
  | .mul d a b => 0x04000000 + d.toNat * 0x80000 + a.toNat * 0x4000 + b.toNat * 0x200
  | .mulh d a b => 0x04000001 + d.toNat * 0x80000 + a.toNat * 0x4000 + b.toNat * 0x200
  | .mulhu d a b => 0x04000002 + d.toNat * 0x80000 + a.toNat * 0x4000 + b.toNat * 0x200
  | .mulW d a b => 0x04000003 + d.toNat * 0x80000 + a.toNat * 0x4000 + b.toNat * 0x200
  | .div d a b => 0x05000000 + d.toNat * 0x80000 + a.toNat * 0x4000 + b.toNat * 0x200
  | .divu d a b => 0x05000001 + d.toNat * 0x80000 + a.toNat * 0x4000 + b.toNat * 0x200
  | .rem d a b => 0x05000002 + d.toNat * 0x80000 + a.toNat * 0x4000 + b.toNat * 0x200
  | .remu d a b => 0x05000003 + d.toNat * 0x80000 + a.toNat * 0x4000 + b.toNat * 0x200
  | .divW d a b => 0x05000004 + d.toNat * 0x80000 + a.toNat * 0x4000 + b.toNat * 0x200
  | .divuW d a b => 0x05000005 + d.toNat * 0x80000 + a.toNat * 0x4000 + b.toNat * 0x200
  | .remW d a b => 0x05000006 + d.toNat * 0x80000 + a.toNat * 0x4000 + b.toNat * 0x200
  | .remuW d a b => 0x05000007 + d.toNat * 0x80000 + a.toNat * 0x4000 + b.toNat * 0x200
  | .cmp d a b c => 0x06000000 + d.toNat * 0x80000 + a.toNat * 0x4000 + b.toNat * 0x200 + c.code
  | .pand d a b => 0x07000000 + d.toNat * 0x80000 + a.toNat * 0x4000 + b.toNat * 0x200
  | .por d a b => 0x07000001 + d.toNat * 0x80000 + a.toNat * 0x4000 + b.toNat * 0x200
  | .pxor d a b => 0x07000002 + d.toNat * 0x80000 + a.toNat * 0x4000 + b.toNat * 0x200
  | .pandn d a b => 0x07000003 + d.toNat * 0x80000 + a.toNat * 0x4000 + b.toNat * 0x200
  | .pnot d a => 0x07000004 + d.toNat * 0x80000 + a.toNat * 0x4000
  | .pread d => 0x07000005 + d.toNat * 0x80000
  | .pwrite a => 0x07000006 + a.toNat * 0x4000
  | .ptest d a => 0x07000007 + d.toNat * 0x80000 + a.toNat * 0x4000
  | .sel d a b n => 0x08000000 + d.toNat * 0x80000 + a.toNat * 0x4000 + b.toNat * 0x200 + n.toNat
  | .smin d a b => 0x08000008 + d.toNat * 0x80000 + a.toNat * 0x4000 + b.toNat * 0x200
  | .smax d a b => 0x08000009 + d.toNat * 0x80000 + a.toNat * 0x4000 + b.toNat * 0x200
  | .umin d a b => 0x0800000A + d.toNat * 0x80000 + a.toNat * 0x4000 + b.toNat * 0x200
  | .umax d a b => 0x0800000B + d.toNat * 0x80000 + a.toNat * 0x4000 + b.toNat * 0x200
  | .popc d a => 0x0800000C + d.toNat * 0x80000 + a.toNat * 0x4000
  | .clz d a => 0x0800000D + d.toNat * 0x80000 + a.toNat * 0x4000
  | .ctz d a => 0x0800000E + d.toNat * 0x80000 + a.toNat * 0x4000
  | .ext d a b => 0x08000010 + d.toNat * 0x80000 + a.toNat * 0x4000 + b.toNat * 0x200
  | .exts d a b => 0x08000011 + d.toNat * 0x80000 + a.toNat * 0x4000 + b.toNat * 0x200
  | .ins d a b => 0x08000012 + d.toNat * 0x80000 + a.toNat * 0x4000 + b.toNat * 0x200
  | .addi d a i => 0x09000000 + d.toNat * 0x80000 + a.toNat * 0x4000 + i.toNat
  | .andi d a i => 0x0A000000 + d.toNat * 0x80000 + a.toNat * 0x4000 + i.toNat
  | .ori d a i => 0x0A000800 + d.toNat * 0x80000 + a.toNat * 0x4000 + i.toNat
  | .xori d a i => 0x0A001000 + d.toNat * 0x80000 + a.toNat * 0x4000 + i.toNat
  | .shli d a n => 0x0A001800 + d.toNat * 0x80000 + a.toNat * 0x4000 + n.toNat
  | .shri d a n => 0x0A002000 + d.toNat * 0x80000 + a.toNat * 0x4000 + n.toNat
  | .srai d a n => 0x0A002800 + d.toNat * 0x80000 + a.toNat * 0x4000 + n.toNat
  | .rori d a n => 0x0A003000 + d.toNat * 0x80000 + a.toNat * 0x4000 + n.toNat
  | .cmpi d a c i => 0x0B000000 + d.toNat * 0x80000 + a.toNat * 0x4000 + c.code * 0x800 + i.toNat
  | .fadd t d a b r => 0x10000000 + t.toNat * 0x2000000 + d.toNat * 0x80000 + a.toNat * 0x4000 + b.toNat * 0x200 + r.code * 0x40
  | .fsub t d a b r => 0x10000001 + t.toNat * 0x2000000 + d.toNat * 0x80000 + a.toNat * 0x4000 + b.toNat * 0x200 + r.code * 0x40
  | .fmul t d a b r => 0x10000002 + t.toNat * 0x2000000 + d.toNat * 0x80000 + a.toNat * 0x4000 + b.toNat * 0x200 + r.code * 0x40
  | .fdiv t d a b r => 0x10000003 + t.toNat * 0x2000000 + d.toNat * 0x80000 + a.toNat * 0x4000 + b.toNat * 0x200 + r.code * 0x40
  | .fsqrt t d a r => 0x10000004 + t.toNat * 0x2000000 + d.toNat * 0x80000 + a.toNat * 0x4000 + r.code * 0x40
  | .fmin t d a b => 0x10000005 + t.toNat * 0x2000000 + d.toNat * 0x80000 + a.toNat * 0x4000 + b.toNat * 0x200
  | .fmax t d a b => 0x10000006 + t.toNat * 0x2000000 + d.toNat * 0x80000 + a.toNat * 0x4000 + b.toNat * 0x200
  | .fabs t d a => 0x10000007 + t.toNat * 0x2000000 + d.toNat * 0x80000 + a.toNat * 0x4000
  | .fneg t d a => 0x10000008 + t.toNat * 0x2000000 + d.toNat * 0x80000 + a.toNat * 0x4000
  | .fma t d a b c r => 0x11000000 + t.toNat * 0x2000000 + d.toNat * 0x80000 + a.toNat * 0x4000 + b.toNat * 0x200 + c.toNat * 0x10 + r.code
  | .fms t d a b c r => 0x11000004 + t.toNat * 0x2000000 + d.toNat * 0x80000 + a.toNat * 0x4000 + b.toNat * 0x200 + c.toNat * 0x10 + r.code
  | .fnma t d a b c r => 0x11000008 + t.toNat * 0x2000000 + d.toNat * 0x80000 + a.toNat * 0x4000 + b.toNat * 0x200 + c.toNat * 0x10 + r.code
  | .fnms t d a b c r => 0x1100000C + t.toNat * 0x2000000 + d.toNat * 0x80000 + a.toNat * 0x4000 + b.toNat * 0x200 + c.toNat * 0x10 + r.code
  | .feq d a b t => 0x14000000 + d.toNat * 0x80000 + a.toNat * 0x4000 + b.toNat * 0x200 + t.toNat * 0x4
  | .flt d a b t => 0x14000001 + d.toNat * 0x80000 + a.toNat * 0x4000 + b.toNat * 0x200 + t.toNat * 0x4
  | .fle d a b t => 0x14000002 + d.toNat * 0x80000 + a.toNat * 0x4000 + b.toNat * 0x200 + t.toNat * 0x4
  | .fun d a b t => 0x14000003 + d.toNat * 0x80000 + a.toNat * 0x4000 + b.toNat * 0x200 + t.toNat * 0x4
  | .fclass d a t => 0x14000008 + d.toNat * 0x80000 + a.toNat * 0x4000 + t.toNat
  | .cvtSD d a r => 0x15000000 + d.toNat * 0x80000 + a.toNat * 0x4000 + r.code * 0x40
  | .cvtDS d a => 0x15000001 + d.toNat * 0x80000 + a.toNat * 0x4000
  | .cvtSL d a r t => 0x15000002 + d.toNat * 0x80000 + a.toNat * 0x4000 + r.code * 0x40 + t.toNat
  | .cvtLS d a r t => 0x15000004 + d.toNat * 0x80000 + a.toNat * 0x4000 + r.code * 0x40 + t.toNat
  | .cvtSLu d a r t => 0x15000006 + d.toNat * 0x80000 + a.toNat * 0x4000 + r.code * 0x40 + t.toNat
  | .cvtLuS d a r t => 0x15000008 + d.toNat * 0x80000 + a.toNat * 0x4000 + r.code * 0x40 + t.toNat
  | .cvtBfS d a r h => 0x1500000A + d.toNat * 0x80000 + a.toNat * 0x4000 + r.code * 0x40 + h.toNat
  | .cvtE4S d a r e => 0x1500000C + d.toNat * 0x80000 + a.toNat * 0x4000 + r.code * 0x40 + e.toNat
  | .cvtSBf d a h => 0x1500000E + d.toNat * 0x80000 + a.toNat * 0x4000 + h.toNat
  | .cvtSE4 d a e => 0x15000010 + d.toNat * 0x80000 + a.toNat * 0x4000 + e.toNat
  | .vadd v s t l g k => 0x18000000 + v.toNat * 0x100000 + s.toNat * 0x10000 + t.toNat * 0x1000 + l.code * 0x200 + g.toNat * 0x80 + k.toNat * 0x20
  | .vsub v s t l g k => 0x18000001 + v.toNat * 0x100000 + s.toNat * 0x10000 + t.toNat * 0x1000 + l.code * 0x200 + g.toNat * 0x80 + k.toNat * 0x20
  | .vaddSat v s t l g k => 0x18000002 + v.toNat * 0x100000 + s.toNat * 0x10000 + t.toNat * 0x1000 + l.code * 0x200 + g.toNat * 0x80 + k.toNat * 0x20
  | .vsubSat v s t l g k => 0x18000003 + v.toNat * 0x100000 + s.toNat * 0x10000 + t.toNat * 0x1000 + l.code * 0x200 + g.toNat * 0x80 + k.toNat * 0x20
  | .vadduSat v s t l g k => 0x18000004 + v.toNat * 0x100000 + s.toNat * 0x10000 + t.toNat * 0x1000 + l.code * 0x200 + g.toNat * 0x80 + k.toNat * 0x20
  | .vsubuSat v s t l g k => 0x18000005 + v.toNat * 0x100000 + s.toNat * 0x10000 + t.toNat * 0x1000 + l.code * 0x200 + g.toNat * 0x80 + k.toNat * 0x20
  | .vneg v s k => 0x18000006 + v.toNat * 0x100000 + s.toNat * 0x10000 + k.toNat * 0x20
  | .vand v s t l g k => 0x19000000 + v.toNat * 0x100000 + s.toNat * 0x10000 + t.toNat * 0x1000 + l.code * 0x200 + g.toNat * 0x80 + k.toNat * 0x20
  | .vor v s t l g k => 0x19000001 + v.toNat * 0x100000 + s.toNat * 0x10000 + t.toNat * 0x1000 + l.code * 0x200 + g.toNat * 0x80 + k.toNat * 0x20
  | .vxor v s t l g k => 0x19000002 + v.toNat * 0x100000 + s.toNat * 0x10000 + t.toNat * 0x1000 + l.code * 0x200 + g.toNat * 0x80 + k.toNat * 0x20
  | .vandn v s t l g k => 0x19000003 + v.toNat * 0x100000 + s.toNat * 0x10000 + t.toNat * 0x1000 + l.code * 0x200 + g.toNat * 0x80 + k.toNat * 0x20
  | .vnot v s k => 0x19000004 + v.toNat * 0x100000 + s.toNat * 0x10000 + k.toNat * 0x20
  | .vshl v s t l g k => 0x19000005 + v.toNat * 0x100000 + s.toNat * 0x10000 + t.toNat * 0x1000 + l.code * 0x200 + g.toNat * 0x80 + k.toNat * 0x20
  | .vshr v s t l g k => 0x19000006 + v.toNat * 0x100000 + s.toNat * 0x10000 + t.toNat * 0x1000 + l.code * 0x200 + g.toNat * 0x80 + k.toNat * 0x20
  | .vsra v s t l g k => 0x19000007 + v.toNat * 0x100000 + s.toNat * 0x10000 + t.toNat * 0x1000 + l.code * 0x200 + g.toNat * 0x80 + k.toNat * 0x20
  | .vmul v s t l g k => 0x1A000000 + v.toNat * 0x100000 + s.toNat * 0x10000 + t.toNat * 0x1000 + l.code * 0x200 + g.toNat * 0x80 + k.toNat * 0x20
  | .vmulh v s t l g k => 0x1A000001 + v.toNat * 0x100000 + s.toNat * 0x10000 + t.toNat * 0x1000 + l.code * 0x200 + g.toNat * 0x80 + k.toNat * 0x20
  | .vmulhu v s t l g k => 0x1A000002 + v.toNat * 0x100000 + s.toNat * 0x10000 + t.toNat * 0x1000 + l.code * 0x200 + g.toNat * 0x80 + k.toNat * 0x20
  | .vmla v s t l g k => 0x1A000003 + v.toNat * 0x100000 + s.toNat * 0x10000 + t.toNat * 0x1000 + l.code * 0x200 + g.toNat * 0x80 + k.toNat * 0x20
  | .vsmin v s t l g k => 0x1B000000 + v.toNat * 0x100000 + s.toNat * 0x10000 + t.toNat * 0x1000 + l.code * 0x200 + g.toNat * 0x80 + k.toNat * 0x20
  | .vsmax v s t l g k => 0x1B000001 + v.toNat * 0x100000 + s.toNat * 0x10000 + t.toNat * 0x1000 + l.code * 0x200 + g.toNat * 0x80 + k.toNat * 0x20
  | .vumin v s t l g k => 0x1B000002 + v.toNat * 0x100000 + s.toNat * 0x10000 + t.toNat * 0x1000 + l.code * 0x200 + g.toNat * 0x80 + k.toNat * 0x20
  | .vumax v s t l g k => 0x1B000003 + v.toNat * 0x100000 + s.toNat * 0x10000 + t.toNat * 0x1000 + l.code * 0x200 + g.toNat * 0x80 + k.toNat * 0x20
  | .vabs v s k => 0x1B000004 + v.toNat * 0x100000 + s.toNat * 0x10000 + k.toNat * 0x20
  | .vcmp d s t l g k c => 0x1C000000 + d.toNat * 0x100000 + s.toNat * 0x10000 + t.toNat * 0x1000 + l.code * 0x200 + g.toNat * 0x80 + k.toNat * 0x20 + c.code
  | .vfadd y v s t l g k r => 0x20000000 + y.code * 0x2000000 + v.toNat * 0x100000 + s.toNat * 0x10000 + t.toNat * 0x1000 + l.code * 0x200 + g.toNat * 0x80 + k.toNat * 0x20 + r.code * 0x8
  | .vfsub y v s t l g k r => 0x20000001 + y.code * 0x2000000 + v.toNat * 0x100000 + s.toNat * 0x10000 + t.toNat * 0x1000 + l.code * 0x200 + g.toNat * 0x80 + k.toNat * 0x20 + r.code * 0x8
  | .vfmul y v s t l g k r => 0x20000002 + y.code * 0x2000000 + v.toNat * 0x100000 + s.toNat * 0x10000 + t.toNat * 0x1000 + l.code * 0x200 + g.toNat * 0x80 + k.toNat * 0x20 + r.code * 0x8
  | .vfmin y v s t l g k => 0x20000003 + y.code * 0x2000000 + v.toNat * 0x100000 + s.toNat * 0x10000 + t.toNat * 0x1000 + l.code * 0x200 + g.toNat * 0x80 + k.toNat * 0x20
  | .vfmax y v s t l g k => 0x20000004 + y.code * 0x2000000 + v.toNat * 0x100000 + s.toNat * 0x10000 + t.toNat * 0x1000 + l.code * 0x200 + g.toNat * 0x80 + k.toNat * 0x20
  | .vfma y v s t c l g k => 0x21000000 + y.code * 0x2000000 + v.toNat * 0x100000 + s.toNat * 0x10000 + t.toNat * 0x1000 + c.toNat * 0x100 + l.code * 0x20 + g.toNat * 0x8 + k.toNat * 0x2
  | .vfms y v s t c l g k => 0x21000001 + y.code * 0x2000000 + v.toNat * 0x100000 + s.toNat * 0x10000 + t.toNat * 0x1000 + c.toNat * 0x100 + l.code * 0x20 + g.toNat * 0x8 + k.toNat * 0x2
  | .vfcmp d s t l g k y c => 0x26000000 + d.toNat * 0x100000 + s.toNat * 0x10000 + t.toNat * 0x1000 + l.code * 0x200 + g.toNat * 0x80 + k.toNat * 0x20 + y.code * 0x8 + c.code
  | .vsel v s t l g k => 0x27000000 + v.toNat * 0x100000 + s.toNat * 0x10000 + t.toNat * 0x1000 + l.code * 0x200 + g.toNat * 0x80 + k.toNat * 0x20
  | .vmov v t l g k => 0x27000001 + v.toNat * 0x100000 + t.toNat * 0x1000 + l.code * 0x200 + g.toNat * 0x80 + k.toNat * 0x20
  | .mand d s t => 0x28000000 + d.toNat * 0x100000 + s.toNat * 0x10000 + t.toNat * 0x1000
  | .mor d s t => 0x28000001 + d.toNat * 0x100000 + s.toNat * 0x10000 + t.toNat * 0x1000
  | .mxor d s t => 0x28000002 + d.toNat * 0x100000 + s.toNat * 0x10000 + t.toNat * 0x1000
  | .mandn d s t => 0x28000003 + d.toNat * 0x100000 + s.toNat * 0x10000 + t.toNat * 0x1000
  | .mnot d s => 0x28000004 + d.toNat * 0x100000 + s.toNat * 0x10000
  | .mall d => 0x28000005 + d.toNat * 0x100000
  | .mnone d => 0x28000006 + d.toNat * 0x100000
  | .mmov d s => 0x28000007 + d.toNat * 0x100000 + s.toNat * 0x10000
  | .vbcast v s k h => 0x29000000 + v.toNat * 0x100000 + s.toNat * 0x10000 + k.toNat * 0x20 + h.toNat * 0x10
  | .vins v s h => 0x29000001 + v.toNat * 0x100000 + s.toNat * 0x10000 + h.toNat * 0x10
  | .vext d t l g h => 0x29000002 + d.toNat * 0x100000 + t.toNat * 0x1000 + l.code * 0x200 + g.toNat * 0x80 + h.toNat * 0x10
  | .mrd d n w h => 0x29000003 + d.toNat * 0x100000 + n.toNat * 0x10000 + w.toNat * 0x1000 + h.toNat * 0x10
  | .mwr n s w h => 0x29000004 + n.toNat * 0x100000 + s.toNat * 0x10000 + w.toNat * 0x1000 + h.toNat * 0x10
  | .mpopc d n h => 0x29000005 + d.toNat * 0x100000 + n.toNat * 0x10000 + h.toNat * 0x10
  | .vlen d h => 0x29000006 + d.toNat * 0x100000 + h.toNat * 0x10
  | .vcvtSW v s r k => 0x30000000 + v.toNat * 0x100000 + s.toNat * 0x10000 + r.code * 0x1000 + k.toNat * 0x20
  | .vcvtWS v s r k => 0x30000001 + v.toNat * 0x100000 + s.toNat * 0x10000 + r.code * 0x1000 + k.toNat * 0x20
  | .vcvtBfS v s r k h => 0x30000002 + v.toNat * 0x100000 + s.toNat * 0x10000 + r.code * 0x1000 + k.toNat * 0x20 + h.toNat
  | .vcvtSBf v s k h => 0x30000004 + v.toNat * 0x100000 + s.toNat * 0x10000 + k.toNat * 0x20 + h.toNat
  | .vcvtHS v s r k h => 0x30000006 + v.toNat * 0x100000 + s.toNat * 0x10000 + r.code * 0x1000 + k.toNat * 0x20 + h.toNat
  | .vcvtSH v s k h => 0x30000008 + v.toNat * 0x100000 + s.toNat * 0x10000 + k.toNat * 0x20 + h.toNat
  | .vcvtES v s r p k e => 0x3000000A + v.toNat * 0x100000 + s.toNat * 0x10000 + r.code * 0x1000 + p.toNat * 0x200 + k.toNat * 0x20 + e.toNat
  | .vcvtSE v s p k e => 0x3000000C + v.toNat * 0x100000 + s.toNat * 0x10000 + p.toNat * 0x200 + k.toNat * 0x20 + e.toNat
  | .vcvtBW v s p k => 0x3000000E + v.toNat * 0x100000 + s.toNat * 0x10000 + p.toNat * 0x200 + k.toNat * 0x20
  | .vcvtWB v s p k => 0x3000000F + v.toNat * 0x100000 + s.toNat * 0x10000 + p.toNat * 0x200 + k.toNat * 0x20
  | .vcvtDS v s k => 0x30000010 + v.toNat * 0x100000 + s.toNat * 0x10000 + k.toNat * 0x20
  | .vcvtSD v s r k => 0x30000011 + v.toNat * 0x100000 + s.toNat * 0x10000 + r.code * 0x1000 + k.toNat * 0x20
  | .vred v s k o => 0x31000000 + v.toNat * 0x100000 + s.toNat * 0x10000 + k.toNat * 0x20 + o.code
  | .vperm v s t l g k => 0x32000000 + v.toNat * 0x100000 + s.toNat * 0x10000 + t.toNat * 0x1000 + l.code * 0x200 + g.toNat * 0x80 + k.toNat * 0x20
  | .vpermB v s t l g k => 0x32000001 + v.toNat * 0x100000 + s.toNat * 0x10000 + t.toNat * 0x1000 + l.code * 0x200 + g.toNat * 0x80 + k.toNat * 0x20
  | .vcompress v s k => 0x32000002 + v.toNat * 0x100000 + s.toNat * 0x10000 + k.toNat * 0x20
  | .sfufence => 0x1A000002
  | .nop => 0x20000000
  | .yield => 0x20000001
  | .ret => 0x23000002
  | .halt => 0x25000000
  | .split => 0x26000001
  | .vrel => 0x31002000
  | .dictfence => 0x3A000400
  | .rft => 0x3B000001
  | .tlbinvAll => 0x3B000004
  | .icsync => 0x3B000005
  | .arithmeticNoOp => 0x00000000
  | .mma _ _ _ => 0
  | .mdist _ _ _ => 0
  | .topk _ _ _ => 0
  | .acz _ _ => 0
  | .acl _ _ => 0
  | .epi _ _ _ => 0
  | .outputBufferDrain _ _ => 0
  | .engineCountDown _ => 0
  | .cpctlGo _ _ => 0
  | .shadowSwapIn _ _ _ => 0
  | .faultRecordClear _ _ => 0
  | .sfuRequestStart _ _ => 0
  | .sfuResult _ _ => 0
  | .missRetry _ => 0
  | .walk _ _ => 0
  | .sliceRequest _ => 0
  | .retryTimerExpiry _ => 0
  | .missFill _ => 0
  | .recall _ _ _ => 0
  | .ownedLineTimeout _ _ _ => 0
  | .farAtomic _ => 0
  | .reductionPacketArrival _ => 0
  | .reductionApply _ => 0
  | .buckleArrival _ => 0
  | .windowExpiry _ => 0
  | .exchangeApply _ => 0
  | .watchNotify _ => 0
  | .watchPoll _ => 0
  | .waitaTimeout _ => 0
  | .replyArrival _ => 0
  | .floorIssue _ => 0
  | .trapEntry _ => 0
  | .endContext _ => 0
  | .preemptionAccept _ => 0
  | .resumption _ => 0
  | .haltSequence _ => 0
  | .gangTimeout _ => 0
  | .phaseComplete _ _ => 0
  | .girthTimeout _ => 0
  | .barrierPacket _ _ _ => 0
  | .npcountLimit _ => 0
  | .dictionaryLoadComplete _ => 0
  | .replayEntryIssue _ _ _ => 0
  | .bankPowerGate _ _ _ => 0
  | .retainTimeout _ _ _ => 0
  | .uncorrectableError _ => 0
  | .patrolScrub _ _ => 0
  | .arm _ => 0
  | .complete _ => 0
  | .blockDeal _ => 0
  | .dispatch _ => 0
  | .hqtailWrite _ _ _ => 0
  | .nopEntry _ _ => 0
  | .launchEntry _ _ => 0
  | .signalEntry _ _ => 0
  | .hqctlWrite _ _ _ => 0
  | .hqdescWrite _ _ _ => 0
  | .rowWithhold _ _ _ _ => 0
  | .tqconsWrite _ _ => 0
  | .preEmpt _ _ _ => 0
  | .preEmptAndHold _ _ _ => 0
  | .resumeHeldContexts _ _ _ => 0
  | .haltTreeStop _ => 0
  | .haltTreeRelease _ => 0
  | .selfTestStart _ => 0
  | .selfTestWithdraw _ => 0
  | .selfTestResult _ _ => 0
  | .openInterval _ _ => 0
  | .closeInterval _ _ => 0
  | .rollBack _ _ => 0
  | .copyDramToKeep _ => 0
  | .copyKeepToDram _ => 0
  | .stallSample _ _ _ _ _ => 0
  | .meltEstimate _ _ => 0
  | .leaseTimerExpiry _ _ => 0
  | .rampupComplete _ _ => 0
  | .rampdownComplete _ _ => 0
  | .voltageStep _ _ => 0
  | .throttleStart _ _ => 0
  | .throttleEnd _ => 0
  | .leasecfgKill _ _ => 0
  | .energyFlush _ => 0
  | .dieGate _ => 0
  | .dieWake _ => 0
  | .debugDictionaryWrite _ _ _ _ => 0
  | .huberrErrntClear _ => 0
  | .poisonaddrValidClear _ => 0
  | .hostMemAccess _ _ _ => 0
  | .bisnpResponse _ _ => 0
  | .hostBar0Access _ _ _ => 0
  | .hostBar2Access _ _ _ _ => 0
  | .powerOn => 0
  | .bootcmdStart _ => 0
  | .clockLock _ => 0
  | .linkTrain _ => 0
  | .hubTestResult _ _ _ => 0
  | .clockedTimeout _ => 0
  | .hubTestTimeout _ => 0
  | .commit _ => 0
  | .serve _ => 0
  | .configSetWrite _ _ _ => 0
  | .startFailure => 0
  | .standbyPowerRemoval => 0
  | .quote _ => 0
  | .mctpControl _ _ => 0
  | .pldmSensorRead _ _ => 0
  | .coolantAlarmEffecter _ _ => 0
  | .vendorMessage _ _ => 0
  | .moduleLinkFlit _ _ _ => 0
  | .moduleLinkDown _ => 0
  | .moduleLinkRetrain _ _ => 0
  | .peerReplyTimeout _ => 0
  | .multicastBranch _ => 0
  | .registerWrite _ _ _ => 0
  | .writeAcknowledged _ => 0
  | .mainPowerLoss => 0
  | .standbyPowerApplied => 0
  | .hostPortTrain _ _ => 0
  | .testPortAccess _ _ _ => 0
  | .queueSwitchComplete _ _ => 0
  | .quoteDone _ => 0
  | .checkpointOpDone _ => 0

/-- The word of an instruction, bits [31:30] zero. -/
def encode (i : Instr) : W32 := BitVec.ofNat 32 (encodeNat i)

/-- A pair bundle (FMT 00) of two words with next-address selector `nx`: its 64 bits, little-endian by words. -/
def encodePair (a b : Instr) (nx : BitVec 2) : W32 × W32 :=
  (encode a, encode b ||| (nx.setWidth 32 <<< 30))

/-- A lone bundle (FMT 01). -/
def encodeLone (a : Instr) : W32 × W32 := (encode a ||| 0x40000000#32, 0)

/-- Word A `nop` (R263). -/
def nopA : W32 := 0x20000000#32

/-- Which of a bundle's words a table word is. The rows of word A and of word B share the values of bits 29 to 24, so a
word alone does not say it: with FMT 01 it is a lone word A (R201); with 10 or 11, which no word A has, word B; with 00
word B if it decodes as one, else word A (log entry 2). -/
def tableIsB (x : W32) : Bool :=
  let isB := match decodeB x with
    | .ok _ => true
    | .error _ => false
  match (fld x 30 2).toNat with
  | 0 => isB
  | 1 =>
    match decodeA x with
    | .ok _ => false
    | .error _ => true
  | _ => true

/-- The bundle in which a table word of 32 bits is fetched: word A with word B zero, or word B behind a word A `nop`
(R236). -/
def tableBundle (w : Nat) : W32 × W32 :=
  let x := BitVec.ofNat 32 w
  if tableIsB x then (nopA, x) else (x, 0)

/-- The instruction that the decoder reads from a table word (the host's numbering: bit 0 is the least significant
bit of the first word). -/
def decodeTableWord (nbits w : Nat) : Option Instr :=
  if nbits = 32 then
    let x := BitVec.ofNat 32 w
    match (if tableIsB x then decodeB x else decodeA x) with
    | .ok i => some i
    | .error _ => none
  else none

end Sys2Proof
end

