-- ==== Sys2Proof/Config.lean ====
section
/-! DEFINITION. What the spec leaves open: free values, each an opaque constant applied to a counter of the state
(`State.tick`) or to the operands it depends on, so that nothing can be proved about a particular one of them. -/

namespace Sys2Proof

/-- The random words of a core's generator, one per draw (R51; log entry 5). -/
opaque Config.randomWord : Nat → BitVec 16

/-- A choice among the outcomes that a rule lists (R7): which victim, which version, which of two values
(log entries 10 and 13). -/
opaque Config.choice : Nat → Nat

/-- A register or memory value that the spec leaves unspecified (log entry 12). -/
opaque Config.freeWord : Nat → BitVec 64

/-- Core cycles that pass, beyond the one of an issue, before the next issue of a context (R5, R240; log entry 6). -/
opaque Config.cycles : Nat → Nat

/-- Energy in nJ of one piece of work, as a hub estimates it (R410; log entry 39). -/
opaque Config.energy : Nat → Nat

/-- A dictionary entry whose place in the image lies past the end of local memory, by that place (R224; log entry 33). -/
opaque Config.dictPast : Nat → BitVec 64

/-- The last 16 bytes of an undo record, by its line and containment group (R387; log entry 26). -/
opaque Config.undoWord : Nat → Nat → BitVec 64 × BitVec 64

/-- Where the debug aperture shows CTXSTAT, in doublewords from the first offset that no rule uses (R177; log entry 73). -/
opaque Config.ctxstatPlace : Nat

/-- SHA-256 of a byte string (R425, R436; log entry 7). -/
opaque Config.sha256 : List (BitVec 8) → List (BitVec 8)

/-- Whether an SLH-DSA-SHA2-192s signature verifies: public key, message, signature (R425; log entry 7). -/
opaque Config.verify192s : List (BitVec 8) → List (BitVec 8) → List (BitVec 8) → Bool

/-- The SLH-DSA-SHA2-128f signature that the module makes with its identity key (R436; log entry 7). -/
opaque Config.sign128f : List (BitVec 8) → List (BitVec 8)

/-- The 16-byte serial of this module (R425; log entry 7). -/
opaque Config.serial : List (BitVec 8)

/-- The fused SHA-256 of each key slot, none where the slot is not enrolled (R425; log entry 7). -/
opaque Config.keyHash : Nat → Option (List (BitVec 8))

/-- SHA-256 of the ROM loader, the 32-byte device identity public key, and that key's certificate (R436, R437;
log entry 7). -/
opaque Config.romHash : List (BitVec 8)
opaque Config.identityKey : List (BitVec 8)
opaque Config.certificate : List (BitVec 8)

/-- The ordering code under which the module was shipped: 0 A, 1 B, 2 C, a row of the table of R2 (R434; log entry 7). -/
opaque Config.shippedGrade : Fin 3

end Sys2Proof
end

