-- ==== Sys2Proof/Machine/State.lean ====
section
/-! DEFINITION. The machine's state: plain data, every piece of it named by a rule of the spec (INVENTORY.md, heading
State), and the model's own few fields (the tick that numbers free values, the agenda of moves, the bundle in issue).
Large arrays of like units (contexts, cores, hubs, memory) are tables: lists sorted by key, in which a key that is not listed
has its reset value; memory alone lists no byte that equals what an unlisted one reads as. -/

namespace Sys2Proof.Machine

/-! ### Contexts -/

/-- The states of R178; codes in order 0 to 10. -/
inductive CtxState where
  | free | dispatching | ready | running | parked | waiting | preempting | preempted | resuming | halting | stopped
deriving DecidableEq, Repr

/-- A `dictld` whose reads are done but whose LOADING bit is still set (R224). -/
structure DictLoad where
  bank : BitVec 2
  src : Nat
deriving DecidableEq, Repr

/-- One cross-die fence slot in use: its sequence number and the requests it captured (R120, R121). -/
structure XSlot where
  slot : Nat
  seq : BitVec 16
  caps : List Nat
deriving DecidableEq, Repr

/-- What a WAITING or PARKED context waits for (R178, R184, R194, R290 to R292). -/
inductive Wait where
  | none
  /-- PARKED until these requests have been answered. -/
  | replies (ids : List Nat)
  /-- PARKED until the walk of this virtual page number has ended (R39). -/
  | walk (vpn : Nat)
  /-- PARKED until a slot of the die's binding cache may be taken (R110). -/
  | slotFill
  /-- Executed `gang`; the others of the quad have not all done so (R184). -/
  | gang
  /-- Its `gang` is complete, those of the other members are about to be. -/
  | gangDone
  | waitb (g : BitVec 3)
  /-- Its core has arrived in the open phase already (R193). -/
  | arrive (g : BitVec 3)
  | waitc (l s c t : BitVec 5)
  /-- Its words are watched (`State.watches`). -/
  | waita (t : BitVec 3)
  | sfufence
deriving DecidableEq, Repr

/-- The task a context runs (R170, R174): launch record, that launch's serial number in this model, block, stage, tile. -/
structure TaskId where
  lrec : Nat
  lser : Nat
  block : Nat
  stage : Nat
  tile : Nat
deriving DecidableEq, Repr

/-- The registers that wait for a reply: the PEND word of R376, also the interlock of R240. -/
structure Pend where
  g : BitVec 32
  p : BitVec 8
  v : BitVec 16
  m : BitVec 4
deriving DecidableEq, Repr

/-- A matrix command in the queue (R330): its doublewords, context, ASID, number, progress (R454) and whether it is
in progress. -/
structure MxCmd where
  dw : Vector W64 8
  ctx : Nat
  asid : BitVec 16
  job : Nat
  next : Nat
  started : Bool
  /-- The first element of an epilogue found no translation: the unit waits for the return of the handler (R343). -/
  hold : Bool
  /-- Window of an epilogue's first element (R343). -/
  win : Nat
deriving DecidableEq, Repr

/-- An entry of the epilogue output buffer (R343): the line's virtual address, its bytes, and the command. -/
structure OutEntry where
  ctx : Nat
  asid : BitVec 16
  va : W64
  data : List (Nat × Byte)
  win : Nat
  job : Nat
  tag : BitVec 16
  /-- The context ended: the entry's bytes still leave (R353). -/
  dead : Bool
deriving DecidableEq, Repr

/-- The copy in the engine's active set (R349 to R351, R454). -/
structure CopyRun where
  ctx : Nat
  asid : BitVec 16
  job : Nat
  src : W64
  dst : W64
  len : W64
  stride : W64
  ctl : W64
  row : Nat
  off : Nat
deriving DecidableEq, Repr

/-- A request in an octet's SFU queue (R325): issuer, function, operands, destination, flags, `map` progress. -/
structure SfuReq where
  who : CtxRef
  fn : SfuFn
  a : W64
  b : W64
  d : BitVec 5
  rel : Option Scope
  acq : Bool
  scope : Scope
  started : Bool
  next : Nat
  job : Nat
  /-- The issuer ended: the step in progress finishes and its result is discarded (R326). -/
  drop : Bool
deriving DecidableEq, Repr

/-- A context: the state of R212, its system registers (R268), and what the scheduler holds for it. -/
structure Ctx where
  st : CtxState
  prior : CtxState
  sys : Bool
  gang : Bool
  /-- Physical lane blocks held, ascending; CLAIM is their number (R188, R301). -/
  held : List Nat
  want : Nat
  g : Vector W64 32
  p : BitVec 8
  v : Vector (List W32) 16
  m : Vector (List Bool) 4
  ls : Vector W64 4
  le : Vector W64 4
  lc : Vector W32 4
  ja0 : W64
  ja1 : W64
  lr : W64
  ocl : Nat
  ocs : Nat
  occ : Nat
  oct : Nat
  pc : W64
  slot : BitVec 2
  /-- The context stands between two units of one dictionary bundle, not at a bundle boundary (R223). -/
  mid : Bool
  /-- Expansion of the A-class slot at `slot`, made before the A-class slot ahead of it executed (R221): its word and the
  bank that it came from. -/
  ahead : Option (W32 × Nat)
  /-- The loop decision of the bundle in progress, made with the loop registers from before it (R261, R262): level, next
  address, new count. -/
  loopNext : Option (Nat × W64 × W32)
  /-- Dictionary entries, key 64 × bank + index (R216). -/
  dict : Table W64
  /-- Versions from before the last `dictld` that a slot may still expand (R228). -/
  dictOld : Table W64
  dactive : BitVec 2
  dload : Option DictLoad
  /-- LBANK: bank of the `dictld` in progress or last done (R214, R224). -/
  lbank : BitVec 2
  dictbase : W64
  asid : BitVec 16
  tcause : W64
  tval : W64
  trappc : W64
  tstat : W64
  tvec : W64
  tscratch0 : W64
  tscratch1 : W64
  /-- WSCALE_E4M3 to WSCALE_INT8 (R22). -/
  wscale : Vector W64 5
  issued : W64
  lanepat : W64
  npsec : Bool
  npcount : W32
  girthSel : BitVec 3
  pwrreq : W64
  reqst : BitVec 3
  energy : W64
  /-- Energy charged to the context since the last stall sample, which ENERGY does not show yet (R400). -/
  due : Nat
  /-- Pending asynchronous causes, at most one per code (R371, R407): code and TVAL. -/
  pendAsync : List (Nat × W64)
  /-- Causes of parked stores, to be taken at the next bundle boundary (R41, R130): code and TVAL. -/
  pendStore : List (Nat × W64)
  /-- A fatal cause raised by an agent outside the context (R94, R433), to be acted on at once. -/
  fatal : Option (Nat × W64)
  /-- A pre-emption request waits (R374); it came with hold; the context is held (R379). -/
  preReq : Bool
  preHold : Bool
  hold : Bool
  /-- Roving self-test asks for pre-emption; it holds the context (R386). -/
  testReq : Bool
  testHold : Bool
  xslots : List XSlot
  xseq : BitVec 16
  /-- Phase bit recorded for each girth group at arrival or dispatch (R194). -/
  girthRec : BitVec 8
  /-- The phase of the group has flipped since (R194). -/
  girthFlip : BitVec 8
  task : Option TaskId
  wait : Wait
  /-- The wait has ended with this result, which the waiting bundle delivers when it executes again: the lowest index
  of `waita` or 4, the status of `gang`, 0 for `waitb`. -/
  fired : Option Nat
  pend : Pend
  /-- Engine registers of the context (R328): the staged command, the fault records, the copy's shadow set. -/
  mxstage : Vector W64 8
  mxfault : W64
  mxfaddr : W64
  cpsrc : W64
  cpdst : W64
  cplen : W64
  cpstride : W64
  cpctl : W64
  cpArmed : Bool
  cpfault : W64
  cpfaddr : W64
  sfuBusy : Bool
  /-- The walk that this context's bundle waited for ended in a cause (R41): virtual page number and code. -/
  walkFault : Option (Nat × Nat)
  /-- Successor named by `halt.ret`, while HALTING (R77). -/
  retain : Option (BitVec 16)
  /-- The bundle at the program counter has parked the context before it was done and executes again: no bundle boundary
(R181). -/
  redo : Bool
  /-- Context numbers under which the context issued fence tokens on cores that it has left (R134). -/
  was : List Nat
  /-- Between trap entry and the return that leaves INTRAP at 0 (R131, R264, R372). -/
  handler : Bool
  /-- While PREEMPTED: claim and accumulator slots to be reserved before resumption, each slot with its place in the
  accumulator-save region, and the order of pre-emption (R191, R340, R377). -/
  savedClaim : Nat
  savedSlots : List (Nat × Nat)
  /-- Physical address of the accumulator-save region that the pre-emption wrote (R377). -/
  saveAt : Option Nat
  preOrder : Nat
  chosen : Bool
  /-- Recorded commands, output-buffer entries, SFU requests and copy: what the save areas' layouts do not spell, such as
  job numbers, stays here beside the images in memory (R326, R353, R376, R377). -/
  savedMx : List MxCmd
  savedObuf : List OutEntry
  savedSfu : List SfuReq
  savedCp : Option CopyRun
  /-- Core in whose local memory the footprint was granted, once the context has moved to another (R386). -/
  fpCore : Option Nat
deriving DecidableEq, Repr

/-- A context slot with no task: every register 0 but WSCALE.GRAN, the ENGINE bit of CPFAULT and p0, which the spec
gives (R22, R212, R329; the zeros without a reset value of the spec are those of log entry 4). -/
def Ctx.reset : Ctx where
  st := .free
  prior := .free
  sys := false
  gang := false
  held := []
  want := 0
  g := Vector.replicate 32 0
  p := 1#8
  v := Vector.replicate 16 []
  m := Vector.replicate 4 []
  ls := Vector.replicate 4 0
  le := Vector.replicate 4 0
  lc := Vector.replicate 4 0
  ja0 := 0
  ja1 := 0
  lr := 0
  ocl := 0
  ocs := 0
  occ := 0
  oct := 0
  pc := 0
  slot := 0
  mid := false
  ahead := none
  loopNext := none
  dict := []
  dictOld := []
  dactive := 0
  dload := none
  lbank := 0
  dictbase := 0
  asid := 0
  tcause := 0
  tval := 0
  trappc := 0
  tstat := 0
  tvec := 0
  tscratch0 := 0
  tscratch1 := 0
  wscale := Vector.replicate 5 0x70#64
  issued := 0
  lanepat := 0
  npsec := false
  npcount := 0
  girthSel := 0
  pwrreq := 0
  reqst := 0
  energy := 0
  due := 0
  pendAsync := []
  pendStore := []
  fatal := none
  preReq := false
  preHold := false
  hold := false
  testReq := false
  testHold := false
  xslots := []
  xseq := 0
  girthRec := 0
  girthFlip := 0
  task := none
  wait := .none
  fired := none
  pend := ⟨0, 0, 0, 0⟩
  mxstage := Vector.replicate 8 0
  mxfault := 0
  mxfaddr := 0
  cpsrc := 0
  cpdst := 0
  cplen := 0
  cpstride := 0
  cpctl := 0
  cpArmed := false
  cpfault := 0x40#64
  cpfaddr := 0
  sfuBusy := false
  walkFault := none
  retain := none
  redo := false
  was := []
  handler := false
  savedClaim := 0
  savedSlots := []
  saveAt := none
  preOrder := 0
  chosen := false
  savedMx := []
  savedObuf := []
  savedSfu := []
  savedCp := none
  fpCore := none

/-! ### Cores -/

/-- A context of the cluster in a holder set: cluster core index and context number (R69). -/
structure Holder where
  core : Nat
  ctx : Nat
deriving DecidableEq, Repr

/-- The states of a region entry (R71). -/
inductive RegionState where
  | free
  | exclusive (h : Holder)
  | shared (hs : List Holder)
  /-- `h` is none when the passing context has halted. -/
  | passing (h : Option Holder) (t : Holder)
  /-- Kept for the launch record that succeeds it (R77). -/
  | retained (succ : Nat)
deriving DecidableEq, Repr

/-- A region-table entry (R69): base and length in 64-byte units, the context it was granted to when pinned. -/
structure Region where
  state : RegionState
  base : Nat
  len : Nat
  gen : BitVec 12
  pin : Bool
  grantee : Option Holder
deriving DecidableEq, Repr

/-- A FREE entry of generation 0. -/
def Region.reset : Region := ⟨.free, 0, 0, 0, false, none⟩

/-- A TLB entry (R39): ASID, virtual page base and size in bytes, the leaf (R32), and whether the entry has been used
recently, which replacement looks at. -/
structure TlbEntry where
  asid : BitVec 16
  vbase : Nat
  size : Nat
  leaf : W64
  used : Bool
deriving DecidableEq, Repr

/-- A line of L1 or of the instruction cache: line number and its 128 bytes (R78, R81). -/
structure CLine where
  line : Nat
  data : List Byte
deriving DecidableEq, Repr

/-- Who a replay entry's store belongs to (R128, R343, R351). -/
inductive ReplaySrc where
  | store | epilogue | copy
deriving DecidableEq, Repr

/-- A replay-queue entry (R128): one store within one line, its data in final form. -/
structure ReplayEntry where
  ctx : Nat
  asid : BitVec 16
  va : W64
  data : List Byte
  faulted : Bool
  src : ReplaySrc
  /-- Window for which the data was formed (R130). -/
  win : Nat
  /-- Created during the handler that runs (R131, R372). -/
  inTrap : Bool
  /-- Number of the matrix command or copy it belongs to; 0 for a store of the context. -/
  job : Nat
  /-- The handler has returned: to be translated again (R130). -/
  retry : Bool
  tag : BitVec 16
  /-- Number that its request will take, for the captures of `xfi` (R120). -/
  id : Nat
  /-- Places in the data that are no bytes of the store: gaps of an output-buffer entry's byte mask (R343). -/
  holes : List Nat
  /-- Made in system mode. -/
  sys : Bool
deriving DecidableEq, Repr

/-- Slot states of R340 and the elements, key 64 × m + n; FP32 and INT32 elements in the low 32 bits. -/
inductive SlotState where
  | free | owned | reserved
deriving DecidableEq, Repr

/-- An accumulator slot (R329 MXSLOT, R340). -/
structure AccSlot where
  state : SlotState
  owner : Nat
  type : Nat
  elems : Table W64
deriving DecidableEq, Repr

/-- A FREE slot. -/
def AccSlot.reset : AccSlot := ⟨.free, 0, 0, []⟩

/-- Work whose last access has issued and that still counts in oct, occ or the SFU busy flag (R126). -/
inductive JobKind where
  | matrix | copy | sfu
deriving DecidableEq, Repr

/-- A finished command, copy or request that waits for its writes (R126, R343). -/
structure Job where
  ctx : Nat
  job : Nat
  kind : JobKind
  rel : Option Scope
  /-- Accumulator slot that REL with KEEP = 0 frees at count-down. -/
  slot : Option Nat
deriving DecidableEq, Repr

/-- An owned line (R146): its number, the atomics executed on it, the context that executed the last of them. -/
structure OwnedLine where
  line : Nat
  count : Nat
  ctx : Nat
deriving DecidableEq, Repr

/-- A line that an engine has read for a command in progress and not used yet (R124): command or copy, line number, the
128 bytes. -/
structure EngLine where
  job : Nat
  line : Nat
  data : List Byte
deriving DecidableEq, Repr

/-- Where a copy's chunk stands once its read has issued (R345): the read's reply is awaited, its bytes are there, or its
write went to a peer module whose acknowledgement is awaited (R352). -/
inductive ChunkStage where
  | reading
  | bytes (data : List Byte)
  | sent
deriving DecidableEq, Repr

/-- A chunk of a copy whose read has issued and whose write is not performed or accepted yet (R345): its number, which its
request or flit carries, the copy's context, ASID, number, tag and window, both addresses, bytes, and the peer side. -/
structure Chunk where
  id : Nat
  ctx : Nat
  asid : BitVec 16
  job : Nat
  tag : BitVec 16
  win : Nat
  src : W64
  dst : W64
  n : Nat
  /-- Row of the copy that the chunk lies in (R349). -/
  row : Nat
  peer : Nat
  pmod : Nat
  stage : ChunkStage
  /-- The context ended: the chunk is still written, and faults of it are no one's (R345). -/
  dead : Bool
deriving DecidableEq, Repr

/-- A core. -/
structure Core where
  owner : Option Nat
  /-- The context that last owned the core, for the ring (R179). -/
  last : Nat
  /-- The context that parked last (R183). -/
  parked : Nat
  regions : Table Region
  gated : BitVec 16
  tlb : List TlbEntry
  l1 : List CLine
  ic : List CLine
  rq : List ReplayEntry
  /-- Plain stores that wait for a walk of their page (R36, R41). -/
  stw : List ReplayEntry
  mxq : List MxCmd
  slots : Vector AccSlot 8
  obuf : List OutEntry
  cp : Option CopyRun
  chunks : List Chunk
  /-- Context of the copy before, for the ring of R350. -/
  cpLast : Nat
  jobs : List Job
  /-- Lines that the engines of the core have read and not used yet. -/
  ebuf : List EngLine
  owned : List OwnedLine
  cycle : W64
  /-- Divider code in force, and the one that the core is to take once its row has the voltage (R389, R390). -/
  div : Nat
  divWant : Nat
  stall : Nat
  /-- A context of the core was not FREE at some time in the stall sample under way (R392, R393). -/
  seen : Bool
  retired : Bool
  /-- Energy of pre-emption saves, by context number, to be charged to the task that next takes the context slot (R410). -/
  owed : Table Nat
  /-- Halt-tree records 0xF000 + 0x10 × c and 0xF040, and the running counts of packets sent and received since the last
  release (R385). -/
  ht : Vector W64 4
  htMsg : W64
  msgSent : W32
  msgRecv : W32
deriving DecidableEq, Repr

/-- A core after reset: DIV 1 (R400), everything else empty or 0. -/
def Core.reset : Core where
  owner := none
  last := 3
  parked := 0
  regions := []
  gated := 0
  tlb := []
  l1 := []
  ic := []
  rq := []
  stw := []
  mxq := []
  slots := Vector.replicate 8 AccSlot.reset
  obuf := []
  cp := none
  chunks := []
  cpLast := 3
  jobs := []
  ebuf := []
  owned := []
  cycle := 0
  div := 1
  divWant := 1
  stall := 0
  seen := false
  retired := false
  owed := []
  ht := Vector.replicate 4 0
  htMsg := 0
  msgSent := 0
  msgRecv := 0

/-! ### Octets and dies -/

/-- An octet: SFU queue and lane-block reservations (block, context) (R191, R302, R325). -/
structure Octet where
  sfuq : List SfuReq
  rsv : List (Nat × CtxRef)
deriving DecidableEq, Repr

/-- An octet after reset. -/
def Octet.reset : Octet := ⟨[], []⟩

/-- A line of the remote-data cache (R87): its home site, 128 bytes, valid and dirty masks, binding slot or UNBOUND. -/
structure RdcLine where
  line : Nat
  home : Nat
  data : List Byte
  valid : List Bool
  dirty : List Bool
  tag : Option Nat
deriving DecidableEq, Repr

/-- A slot of the binding cache (R110). -/
structure BindSlot where
  slot : Nat
  asid : BitVec 16
  obj : Nat
  rbase : Nat
  rlines : Nat
deriving DecidableEq, Repr

/-- A die-TLB miss entry (R40): the pair it walks for, the contexts that wait, whether a store needs D set. -/
structure Miss where
  asid : BitVec 16
  vpn : Nat
  waiters : List CtxRef
  /-- A store waits for D to be set (R36). -/
  setD : Bool
deriving DecidableEq, Repr

/-- A miss that found all miss entries busy (R40): the context whose core presents it again, the pair it misses, whether a
store of that core waits for D, and whether the context itself is parked on it. -/
structure MissWait where
  who : CtxRef
  asid : BitVec 16
  vpn : Nat
  setD : Bool
  parked : Bool
deriving DecidableEq, Repr

/-- A pointer entry in a hub's page-walk cache (R40): ASID, level of the table that the entry stands in, the bits of the
virtual address that select it, and the table that it points to. -/
structure WalkPtr where
  asid : BitVec 16
  lvl : Nat
  tag : Nat
  table : Nat
deriving DecidableEq, Repr

/-- Lease states of R402. -/
inductive LeaseState where
  | idle | rampup | sprint | rampdown
deriving DecidableEq, Repr

/-- The lease of a cluster (R401). -/
structure Lease where
  st : LeaseState
  asid : BitVec 16
  ms : Nat
deriving DecidableEq, Repr

/-- A trap record (R382). -/
structure TrapRec where
  code : Nat
  ctx : Nat
  core : Nat
  asid : BitVec 16
  tval : W64
  trappc : W64
  lrec : Nat
  cgroup : Nat
deriving DecidableEq, Repr

/-- A compute die and its hub's per-die state, by logical site. -/
structure Die where
  rdc : List RdcLine
  bind : List BindSlot
  tlb : List TlbEntry
  miss : List Miss
  /-- Misses that found all 256 miss entries busy (R40). -/
  missWait : List MissWait
  girthMask : Table W64
  girthTo : Vector W64 8
  girthSpan : Vector W64 8
  girthArr : Table W64
  girthPhase : BitVec 8
  /-- Reports that stand for the open phase: group and a site whose members have all arrived (R298), or
  64 + module + 32 × parity for a peer's report, 128 + module + 32 × parity for a report not yet sent to it, or 192 + module
  once the phase's report to it is made (R432, R433). -/
  barrier : List (Nat × Nat)
  pred : Table Nat
  farRun : Table Nat
  lease : Vector Lease 4
  gated : Bool
  /-- Last reading of each row's hottest sensor, in °C (R396). -/
  rowTemp : Table Nat
  stallcfg : W64
  nplim : W64
  tqbase : W64
  tqctl : W64
  tqprod : W32
  tqcons : W32
  tqdrop : W32
  tqseq : BitVec 16
  tqheld : List TrapRec
  /-- Records taken up whose lines, of the ring or of their ASID's entry, have to come back from the host first, each with its
  FATAL bit (R99, R139). -/
  tqwait : List (TrapRec × Bool)
  stctl : W64
  ststat : W64
  /-- The core under test and the contexts whose pre-emption the engine asked for (R386). -/
  testing : Option (Nat × List Nat)
deriving DecidableEq, Repr

/-- A die after reset (R296, R380, R382, R386, R400). -/
def Die.reset : Die where
  rdc := []
  bind := []
  tlb := []
  miss := []
  missWait := []
  girthMask := []
  girthTo := Vector.replicate 8 0
  girthSpan := Vector.replicate 8 0
  girthArr := []
  girthPhase := 0
  barrier := []
  pred := []
  farRun := []
  lease := Vector.replicate 4 ⟨.idle, 0, 0⟩
  gated := false
  rowTemp := []
  stallcfg := 0x140C0#64
  nplim := 65536
  tqbase := 0
  tqctl := 0
  tqprod := 0
  tqcons := 0
  tqdrop := 0
  tqseq := 0
  tqheld := []
  tqwait := []
  stctl := 0x003D0901#64
  ststat := 0
  testing := none

/-! ### Hubs -/

/-- Hub states of R422 and R423. -/
inductive HubState where
  | off | clocked | linked | tested | configured | serving | failed
deriving DecidableEq, Repr

/-- What a ring entry that is consumed and not retired waits for (R368). -/
inductive RingItem where
  | nop (done : Bool)
  | launch (rec : Nat) (lser : Nat) (done : Bool)
  | signal (done : Bool)
deriving DecidableEq, Repr

/-- The run-time part of a host-queue slot (R367 to R369): next entry to consume, entries consumed and not retired
(oldest first), the descriptor loaded last, the descriptor that a switch in progress loads. -/
structure HqRun where
  next : W32
  items : List RingItem
  desc : Option Nat
  switch : Option W64
deriving DecidableEq, Repr

/-- A task record held by a die's bridle (R359). -/
structure TaskRec where
  lrec : Nat
  lser : Nat
  block : Nat
  stage : Nat
deriving DecidableEq, Repr

/-- An undo record (R387): line number, the group, the old bytes, and whether its interval is closed. -/
structure UndoRec where
  line : Nat
  group : Nat
  data : List Byte
  dead : Bool
deriving DecidableEq, Repr

/-- A hub, by physical index 8 × PROW + PCOL. Its registers of region 0x5 are a table by offset. -/
structure Hub where
  st : HubState
  parent : Nat
  /-- The neighbour that offered clock first, as a PARENT code, with the time of its offer (R422). -/
  offer : Option (Nat × Nat)
  /-- The hub has reached LINKED in this start (R413, R420). -/
  linked : Bool
  cfgerr : Nat
  regs : Table W64
  hq : Vector HqRun 4
  tasks : List TaskRec
  undo : List UndoRec
  /-- Place in the undo log at which the next record goes (R387). -/
  undoAt : Nat
  energy : Table Nat
  /-- Entries that unloaded queues consumed and that are not retired: descriptor address, entries (R369). -/
  orphans : List (Nat × List RingItem)
  /-- A CKCMD operation of this hub is not yet complete (R387). -/
  ckBusy : Bool
  /-- The copy of that operation waits for lines that the host holds (R139). -/
  ckWait : Bool
  /-- The hub's page-walk cache (R40). -/
  pwc : List WalkPtr
deriving DecidableEq, Repr

/-- A hub after reset. -/
def Hub.reset : Hub where
  st := .off
  parent := 0
  offer := none
  linked := false
  cfgerr := 0
  regs := []
  hq := Vector.replicate 4 ⟨0, [], none, none⟩
  tasks := []
  undo := []
  undoAt := 0
  energy := []
  orphans := []
  ckBusy := false
  ckWait := false
  pwc := []

/-! ### Requests in flight -/

/-- What becomes of the bytes that a load brings (R53, R277, R278, R319). Each lane carries its address within the line,
its window code and the FP32 scale that its access uses. -/
inductive LoadDst where
  | g (d : BitVec 5) (mode : LdMode) (off : Nat)
  | widen (d : BitVec 5) (code off : Nat) (scale : Option W32)
  | lanes (v : BitVec 4) (ls : List (Nat × Nat × Nat × Option W32))
  /-- Instruction fetch; `icsync` came meanwhile. -/
  | fetch (stale : Bool)
  /-- Prefetch into L1, or into L2. -/
  | prefetch (l1 : Bool)
  /-- A line that a command of the matrix unit or a copy reads (R124). -/
  | engine (job : Nat)
  /-- Run-ahead prefetch of a line, or the fill of a load on a wrong path (R182, R183). -/
  | ahead
deriving DecidableEq, Repr

/-- An atomic's operation: `cas` carries its comparand (R140). -/
inductive AtomOp where
  | op (o : AmoOp)
  | cas (c : W64)
deriving DecidableEq, Repr

/-- Kinds of requests that leave a core (R84, R97). -/
inductive ReqKind where
  | load (dst : LoadDst)
  /-- Bytes by offset in the line; a store of a context, of an engine job, or a write-back of the die's cache. -/
  | store (bytes : List (Nat × Byte)) (job : Nat)
  /-- Dirty bytes of a line that a release of a binding slot sends home. -/
  | writeback (bytes : List (Nat × Byte)) (slot : Nat)
  | atomic (op : AtomOp) (dbl : Bool) (v : W64) (d : BitVec 5) (ord : AmoOrd) (near : Bool)
  | reduce (op : AmoOp) (dbl : Bool) (v : W64) (contrib : List (Nat × CtxRef))
  | push (v : W64) (win : Nat) (d : BitVec 5) (scope : Scope)
  | pop (win : Nat) (d : BitVec 5) (p : BitVec 3) (scope : Scope)
  | acq (d : BitVec 5) (scope : Scope)
  /-- The status of an operation that is done, on its way to gd (`bind`). -/
  | answer (d : BitVec 5)
deriving DecidableEq, Repr

/-- Where a request is (R84, R85, R162, R178). -/
inductive ReqStage where
  /-- In the core's injection queue. -/
  | sent
  /-- It has left its core, and has not reached its slice yet: behind a request that the slice refuses, or back from a snoop. -/
  | left
  /-- A reduction packet in the output queue of the switch with this number on its route, with the order of its entry
  (R153, R415). -/
  | onPath (step : Nat) (age : Nat)
  /-- In the slice's input queue. -/
  | queued
  /-- Waits on a miss entry of the slice (a joiner, or the request that took the entry). -/
  | missing
  /-- Refused; its retry timer runs for this many hub cycles. -/
  | refused (hint : Nat)
  /-- Waits for the host's response to a back-invalidate snoop (R138). -/
  | snoop
  /-- Applied at its home: the reply or acknowledgement is on its way. -/
  | done
  /-- Exchange packet on its way to the switch with this number on its route, with the order of its departure; past the
  last switch it is at its home's slice (R161, R162). -/
  | atSwitch (step : Nat) (age : Nat)
  /-- Exchange packet in the buckle of the switch with this number on its route, with the order of its entry. -/
  | inBuckle (step : Nat) (age : Nat)
  /-- Sent across a module link (R433). -/
  | peer
deriving DecidableEq, Repr

/-- A request in flight (R86). -/
structure Req where
  id : Nat
  who : CtxRef
  asid : BitVec 16
  /-- Virtual address, for the binding of the line (R87). -/
  va : W64
  /-- Physical address of the access; its line is `pa / 128`. -/
  pa : Nat
  /-- Logical site of the line's home. -/
  home : Nat
  kind : ReqKind
  stage : ReqStage
  refusals : Nat
  /-- Younger requests that have overtaken it (R86). -/
  overtaken : Nat
  /-- Answer: bytes of the line for a load, the value for an atomic, `pop` or `acq`, a status. -/
  data : List Byte
  value : W64
  status : Nat
  /-- The line may be kept in L1 and in the die's cache (R78, R87), unless an invalidation came meanwhile (R105). -/
  install : Bool
  /-- The issuing context is gone: the reply is discarded (R168). -/
  orphan : Bool
  /-- Device memory type (MT = 10). -/
  device : Bool
  /-- A line of host memory that the access reaches uncached (MT = 01 or 10; R138). -/
  uncached : Bool
  /-- First request of the vector store or release that this one belongs to; its own number otherwise. -/
  grp : Nat
  /-- Page size of a push or pop's descriptor (R157). -/
  page : Nat
  /-- Port and number of a request that came over a module link (R431). -/
  ext : Option (Nat × Nat)
  /-- Bytes of the line, by offset, that the issuer's die held dirty and sent home while this load was on its way: its
  reply takes them (R88, R124). -/
  fwd : List (Nat × Byte)
  /-- A store that left the replay queue and is not yet acknowledged: later stores of its context to the page wait behind it
  (R130). -/
  replayed : Bool
deriving DecidableEq, Repr

/-- A line present in an L2 slice (R82), whether the slice holds it dirty (not yet written back to DRAM), and whether the
host holds it. The directory's home-die sharers are the L1 caches themselves. -/
structure L2Line where
  line : Nat
  /-- Logical site of the home. -/
  home : Nat
  dirty : Bool
  host : Bool
  /-- A back-invalidate snoop for the line is on its way (R138). -/
  snooped : Bool
deriving DecidableEq, Repr

/-- A slice's miss entry: the line and its joiners (R84). -/
structure SliceMiss where
  line : Nat
  joiners : List Nat
deriving DecidableEq, Repr

/-- An L2 slice: input queue, those of its requests that stand in the 2 kept slots, and miss entries (R84). -/
structure Slice where
  queue : List Nat
  kept : List Nat
  miss : List SliceMiss
deriving DecidableEq, Repr

/-! ### The module -/

/-- A launch in flight or armed (R357, R359): the record as read, blocks still to deal, tasks still running. -/
structure Launch where
  lrec : Nat
  lser : Nat
  data : List W64
  bcast : List W64
  inflight : Bool
  nextBlock : Nat
  /-- Tile tasks dispatched and not yet halted. -/
  running : Nat
  /-- Lowest failure code so far; 0 for none (R361). -/
  code : Nat
  /-- Host queue that armed it: logical site and slot (R368). -/
  queue : Option (Nat × Nat)
deriving DecidableEq, Repr

/-- A containment group's interval (R387): 0 not logged, 1 logging, 2 rolled back, 3 lost; overflow. -/
structure CkGroup where
  st : Nat
  ovf : Bool
deriving DecidableEq, Repr

/-- A switch on a route: its hub, the network on which a packet reaches it or departs from it, and whether the leg is the
first of a relayed route, which is of the relay class (R414, R417). -/
structure Hop where
  hub : Nat
  y : Bool
  relay : Bool
deriving DecidableEq, Repr

/-- A multicast packet part way through a switch (R419): its branches still to be taken. -/
inductive McastMsg where
  | barrier (group : Nat) (src : Nat)
deriving DecidableEq, Repr

/-- A multicast copy in the switch of hub `hub`, come from hub `from_` (its own when from the local port): the logical
destinations whose branches it has not taken, and the switches still to come of a copy that follows an NST entry. -/
structure Mcast where
  id : Nat
  msg : McastMsg
  hub : Nat
  from_ : Nat
  /-- Network (Y-first or X-first) of the input buffer, and whether it is the relay class's (R414). -/
  y : Bool
  relay : Bool
  dests : List Nat
  path : List Hop
deriving DecidableEq, Repr

/-- A word watched for a `waita` (R291): the waiter, the word's index, its address and place in memory, the expected
value, whether the bank or a hub watch entry watches it (it is polled otherwise), and whether a change was seen. -/
structure Watch where
  who : CtxRef
  idx : Nat
  pa : Nat
  key : Nat
  expect : W64
  held : Bool
  seen : Bool
deriving DecidableEq, Repr

/-- What the machine sends out. -/
inductive Out where
  /-- MSI-X message of a die's trap queue (R381). -/
  | msix (site : Nat) (vec : Nat)
  /-- Data returned to a host, test-port or sideband read (R14, R420, R437). -/
  | reply (data : List Byte)
  /-- A flit sent on a module-link port (R431). -/
  | flit (port : Nat) (f : Flit)
  /-- A back-invalidate snoop for a line (R138). -/
  | snoop (line : Nat)
  /-- Uncached write or read sent to the host through a port (R138, R429). -/
  | hostWrite (port addr : Nat) (data : List Byte)
  | hostRead (port addr bytes : Nat)
  /-- CXL.cache request for a line of host memory, to read it or to own it, and the dirty line given back (R138). -/
  | cacheReq (line : Nat) (own : Bool)
  | cacheBack (line : Nat) (data : List Byte)
  /-- Acknowledgement of a BIConflict (R138). -/
  | conflictAck (line : Nat)
deriving DecidableEq, Repr

/-- A module-link port: trained, and the module number its peer reports (R430). -/
structure Link where
  up : Bool
  peer : Nat
deriving DecidableEq, Repr

/-- How control leaves the bundle in issue. -/
inductive Flow where
  /-- On to the next address that R206 gives. -/
  | fall
  /-- A taken control transfer to a bundle address, with the dictionary slot at which issue resumes. -/
  | jump (t : W64) (slot : BitVec 2)
  /-- A synchronous cause was taken; every effect but the trap's is withheld. -/
  | trapped
  /-- The bundle cannot issue yet and will issue again (R240). -/
  | stall
  /-- The context left RUNNING and the bundle executes again later (R181). -/
  | again
  /-- The context waits for a reply, and continues after the bundle. -/
  | park
  /-- The context halts or ended. -/
  | ended
deriving DecidableEq, Repr

/-- The bundle in issue: its two words as fetched or expanded; for a dictionary unit the short word and slot of its
A-class and of its B-class part and the bank that they expanded from, which TVAL reports (R222, R370), and the first slot of
the unit that follows. -/
structure Issue where
  a : W32
  b : W32
  /-- The word now executing is word B. -/
  inB : Bool
  dict : Option (BitVec 14 × Nat × BitVec 14 × Nat × Nat)
  nextSlot : Option (BitVec 2)
  /-- The four members of the issuing gang as they stood before the bundle, leader first (R185); empty otherwise. -/
  peers : List Ctx
  flow : Flow
deriving DecidableEq, Repr

/-- No bundle in issue. -/
def Issue.reset : Issue := ⟨0, 0, false, none, none, [], .fall⟩

/-- A move of the machine: an event of the table, the issue of one bundle by a context, or one of the moves that the spec
describes without giving them a row of the table. -/
inductive Move where
  | event (i : Instr)
  | issue (r : CtxRef)
  /-- Prefetches ahead of a PARKED context, or on a mispredicted path of a running one (R182, R183). -/
  | ahead (r : CtxRef)
  /-- Core cycles pass in which a core issues nothing (R269, R380). -/
  | idle (site core : Nat)
  /-- A corrected error in a storage array, by the field of ECCCE that counts it (R93). -/
  | corrected (site field : Nat)
  /-- The host writes its own memory, or asks for a line of it that the device caches (R138). -/
  | hostStore (pa : Nat) (data : List Byte)
  | hostSnoop (line : Nat)
  /-- The host finds a request of its own in conflict with a back-invalidate snoop (R138). -/
  | conflict (line : Nat)
deriving DecidableEq, Repr

/-- The whole machine. -/
structure State where
  /-- Hubs by physical index. -/
  hubs : Table Hub
  /-- Logical site to physical hub index, in force since SERVE; empty before (R15, R426). -/
  sites : List Nat
  dies : Table Die
  octets : Table Octet
  cores : Table Core
  ctxs : Table Ctx
  /-- Memory bytes by physical address (R11): regions 0x0, 0x1, 0x3 and the host aperture; the window of region 0x2
  is the alias of R13. An unlisted byte reads 0 (log entry 3). -/
  mem : List Host.Cell
  /-- Poisoned lines (R94). -/
  poison : List Nat
  l2 : List L2Line
  slices : Table Slice
  reqs : List Req
  nextId : Nat
  launches : List Launch
  nextLser : Nat
  groups : Table CkGroup
  /-- Groups whose contexts a rollback has ended and whose lines are restored once no write by them is in flight (R388). -/
  rollbacks : List Nat
  /-- Host ports trained (R428). -/
  ports : BitVec 16
  links : Table Link
  /-- HDM decoders of the CXL ports, key 2 × port + decoder (R428). -/
  hdm : Table HdmDec
  mcasts : List Mcast
  watches : List Watch
  out : List Out
  /-- BOOTSTAT, in the edge hubs' standby store (R427). -/
  bootstat : W64
  /-- A start is under way and not yet ended by an accepted SERVE (R427); the stage it reached, as a REASON code. -/
  starting : Bool
  stage : Nat
  /-- The bytes 0 to 2,151 of the manifest last accepted, as their hash (R436). -/
  manifest : List Byte
  /-- GRADE of the last successful start (R434). -/
  grade : W64
  coolant : Bool
  /-- Partition stopped by the halt tree; stops so far (R384). -/
  standby : Bool
  mainPower : Bool
  tick : Nat
  /-- The moves still to come: inputs and interleaving (log entry 1). -/
  agenda : List Move
  cur : CtxRef
  issue : Issue
deriving DecidableEq, Repr

/-- Faults. The model raises none: every cause of the spec is taken as a next state. -/
inductive Fault where
  /-- Raised by no meaning; kept so that the type is a closed list of reasons with a name. Safe. -/
  | none
deriving DecidableEq, Repr

/-- Refusals. -/
inductive Refusal where
  /-- Answered by an arm of `exec` whose instruction has no meaning yet. Safe. -/
  | notModelled (mnemonic : String)
deriving DecidableEq, Repr

/-- The machine right after reset: standby and main power absent or not yet applied to any hub, every hub OFF, every
context FREE, memory with nothing listed. -/
def State.reset : State where
  hubs := []
  sites := []
  dies := []
  octets := []
  cores := []
  ctxs := []
  mem := []
  poison := []
  l2 := []
  slices := []
  reqs := []
  nextId := 0
  launches := []
  nextLser := 0
  groups := []
  rollbacks := []
  ports := 0
  links := []
  hdm := []
  mcasts := []
  watches := []
  out := []
  bootstat := 0
  starting := false
  stage := 1
  manifest := List.replicate 32 0
  grade := BitVec.ofNat 64 (Config.shippedGrade.val * 5)
  coolant := false
  standby := false
  mainPower := false
  tick := 0
  agenda := []
  cur := ⟨0, 0, 0⟩
  issue := Issue.reset

end Sys2Proof.Machine
end

