-- ==== Sys2Proof/Machine/Ops.lean ====
section
/-! DEFINITION. The named operations over tables, registers and memory, the trap queue, and taking and leaving an
exception (R372, R271, R383). -/

namespace Sys2Proof

/-! ### Bit fields and bytes -/

/-- Bits [lo + n - 1 : lo] of a 64-bit value, as a number (R4). -/
def bits (v : W64) (lo n : Nat) : Nat := v.toNat / 2 ^ lo % 2 ^ n

/-- `v` with bits [lo + n - 1 : lo] replaced by the low `n` bits of `x`. -/
def putBits (v : W64) (lo n x : Nat) : W64 :=
  BitVec.ofNat 64 (v.toNat - bits v lo n * 2 ^ lo + x % 2 ^ n * 2 ^ lo)

/-- Bit `i` of a 64-bit value. -/
def bit (v : W64) (i : Nat) : Bool := v.getLsbD i

/-- The `n` low bytes of a number, least significant first (R4). -/
def toBytes : Nat → Nat → List Byte
  | 0, _ => []
  | n + 1, x => BitVec.ofNat 8 x :: toBytes n (x / 256)

/-- The number that bytes spell, least significant first (R4). -/
def ofBytes : List Byte → Nat
  | [] => 0
  | b :: bs => b.toNat + 256 * ofBytes bs

/-- Sign extension of an `n`-bit number to 64 bits. -/
def sext (n x : Nat) : W64 := (BitVec.ofNat n x).signExtend 64

/-! ### Tables -/

namespace Table

variable {α : Type}

/-- The value at a key, `d` where the table lists none. -/
def get (d : α) : Table α → Nat → α
  | [], _ => d
  | (k', v) :: t, k => if k' = k then v else get d t k

/-- The value at a key, if listed. -/
def find : Table α → Nat → Option α
  | [], _ => none
  | (k', v) :: t, k => if k' = k then some v else find t k

/-- List `v` at key `k`. -/
def put : Table α → Nat → α → Table α
  | [], k, v => [(k, v)]
  | (k', v') :: t, k, v =>
    if k < k' then (k, v) :: (k', v') :: t
    else if k = k' then (k, v) :: t
    else (k', v') :: put t k v

/-- List nothing at key `k`. -/
def erase (t : Table α) (k : Nat) : Table α := t.filter fun e => e.1 != k

/-- Set key `k` to `v`; the default is not listed. -/
def set [DecidableEq α] (d : α) (t : Table α) (k : Nat) (v : α) : Table α :=
  if v = d then erase t k else put t k v

/-- Every key of the table is above `lo`, keys rise strictly, and no entry equals the default. -/
def wfFrom [DecidableEq α] (d : α) : Option Nat → Table α → Bool
  | _, [] => true
  | lo, (k, v) :: t =>
    (match lo with | none => true | some l => decide (l < k)) && decide (v ≠ d) && wfFrom d (some k) t

/-- The canonical form. -/
def wf [DecidableEq α] (d : α) (t : Table α) : Bool := wfFrom d none t

/-- Apply `f` to every entry. -/
def mapVals (f : Nat → α → α) (t : Table α) : Table α := t.map fun e => (e.1, f e.1 e.2)

end Table

/-- The canonical form of memory: addresses strictly rising, no entry equal to the byte 0 that an unlisted address
reads as (log entry 3). -/
def Memory.wf (m : List Host.Cell) : Bool := Table.wf (0 : Byte) m

namespace Machine

/-! ### Access to the units -/

/-- Key of a context. -/
def CtxRef.key (r : CtxRef) : Nat := (r.site * 256 + r.core) * 4 + r.ctx

/-- A context. -/
def State.ctx (s : State) (r : CtxRef) : Ctx := Table.get Ctx.reset s.ctxs (CtxRef.key r)

/-- Replace a context. -/
def State.setCtx (s : State) (r : CtxRef) (c : Ctx) : State := { s with ctxs := Table.put s.ctxs (CtxRef.key r) c }

/-- Change a context. -/
def State.modCtx (s : State) (r : CtxRef) (f : Ctx → Ctx) : State := s.setCtx r (f (s.ctx r))

/-- The context in issue. -/
def State.c (s : State) : Ctx := s.ctx s.cur

/-- Change the context in issue. -/
def State.modC (s : State) (f : Ctx → Ctx) : State := s.modCtx s.cur f

/-- A core by logical site and physical index. -/
def State.core (s : State) (site core : Nat) : Core := Table.get Core.reset s.cores (site * 256 + core)

/-- Change a core. -/
def State.modCore (s : State) (site core : Nat) (f : Core → Core) : State :=
  { s with cores := Table.put s.cores (site * 256 + core) (f (s.core site core)) }

/-- A die by logical site. -/
def State.die (s : State) (site : Nat) : Die := Table.get Die.reset s.dies site

/-- Change a die. -/
def State.modDie (s : State) (site : Nat) (f : Die → Die) : State :=
  { s with dies := Table.put s.dies site (f (s.die site)) }

/-- An octet by logical site and index (R175). -/
def State.octet (s : State) (site oct : Nat) : Octet := Table.get Octet.reset s.octets (site * 32 + oct)

/-- Change an octet. -/
def State.modOctet (s : State) (site oct : Nat) (f : Octet → Octet) : State :=
  { s with octets := Table.put s.octets (site * 32 + oct) (f (s.octet site oct)) }

/-- A hub by physical index. -/
def State.hub (s : State) (h : Nat) : Hub := Table.get Hub.reset s.hubs h

/-- Change a hub. -/
def State.modHub (s : State) (h : Nat) (f : Hub → Hub) : State :=
  { s with hubs := Table.put s.hubs h (f (s.hub h)) }

/-- Physical hub index of a logical site (R15, R16). -/
def State.phys (s : State) (site : Nat) : Nat := s.sites.getD site site

/-- Physical row and column of a hub (R413). -/
def hubRow (h : Nat) : Nat := h / 8
def hubCol (h : Nat) : Nat := h % 8

/-- Number of logical sites, LSCOUNT of a serving module (R17). -/
def State.nSites (s : State) : Nat := s.sites.length

/-- Numbers of free values: the tick, advanced (log entry 5). -/
def State.next (s : State) : State := { s with tick := s.tick + 1 }

/-- A choice among `n` listed outcomes (R7). -/
def State.choose (s : State) (n : Nat) : Nat := Config.choice s.tick % n

/-- The machine sends something out. -/
def State.emit (s : State) (o : Out) : State := { s with out := s.out ++ [o] }

/-! ### Positions of a core (R10, R175) -/

/-- Cluster of a core, 0 to 3. -/
def clusterOf (core : Nat) : Nat := core / 64

/-- Cluster core index (R10). -/
def clusterIdx (core : Nat) : Nat := core % 64

/-- Octet of a core. -/
def octetOf (core : Nat) : Nat := core / 8

/-- First core of the quad of a core. -/
def quadBase (core : Nat) : Nat := core / 4 * 4

/-- The context as a holder of its cluster (R69). -/
def holderOf (r : CtxRef) : Holder := ⟨clusterIdx r.core, r.ctx⟩

/-- The context that a holder names, seen from a core of the cluster. -/
def holderRef (site core : Nat) (h : Holder) : CtxRef := ⟨site, clusterOf core * 64 + h.core, h.ctx⟩

/-! ### Registers of a context (R212) -/

/-- General register; g0 reads 0. -/
def Ctx.rg (c : Ctx) (d : BitVec 5) : W64 := if d = 0 then 0 else c.g[d.toNat]

/-- Write a general register; g0 discards the write. -/
def Ctx.wg (c : Ctx) (d : BitVec 5) (v : W64) : Ctx :=
  if d = 0 then c else { c with g := c.g.set d.toNat v }

/-- Predicate; p0 reads 1. -/
def Ctx.rp (c : Ctx) (n : BitVec 3) : Bool := n = 0 || c.p.getLsbD n.toNat

/-- Write a predicate; p0 discards the write. -/
def Ctx.wp (c : Ctx) (n : BitVec 3) (b : Bool) : Ctx :=
  if n = 0 then c
  else
    let m : BitVec 8 := 1#8 <<< n.toNat
    { c with p := if b then c.p ||| m else c.p &&& ~~~m }

/-- Blocks held (R188). -/
def Ctx.claim (c : Ctx) : Nat := c.held.length

/-- Vector length (R303). -/
def Ctx.vl (c : Ctx) : Nat := 32 * c.claim

/-- Vector register. -/
def Ctx.rv (c : Ctx) (n : BitVec 4) : List W32 := c.v[n.toNat]

/-- Write a vector register. -/
def Ctx.wv (c : Ctx) (n : BitVec 4) (l : List W32) : Ctx := { c with v := c.v.set n.toNat l }

/-- Mask register. -/
def Ctx.rm (c : Ctx) (n : BitVec 2) : List Bool := c.m[n.toNat]

/-- Write a mask register. -/
def Ctx.wm (c : Ctx) (n : BitVec 2) (l : List Bool) : Ctx := { c with m := c.m.set n.toNat l }

/-- INTRAP of TSTAT (R373). -/
def Ctx.inTrap (c : Ctx) : Bool := c.tstat.getLsbD 1

/-- A handler runs: from trap entry until the return that leaves INTRAP at 0, and while INTRAP is 1 (R131, R372; log entry
27). -/
def Ctx.inHandler (c : Ctx) : Bool := c.handler || c.inTrap

/-- UNMET of CTXSTAT (R177). -/
def Ctx.unmet (c : Ctx) : Bool := decide (c.claim < c.want)

/-- Position in the quad (R177). -/
def qpos (r : CtxRef) : Nat := r.core % 4

/-- Code of a state (R178). -/
def CtxState.code : CtxState → Nat
  | .free => 0 | .dispatching => 1 | .ready => 2 | .running => 3 | .parked => 4 | .waiting => 5
  | .preempting => 6 | .preempted => 7 | .resuming => 8 | .halting => 9 | .stopped => 10

/-- Set the way control leaves the bundle in issue. -/
def State.flow (s : State) (f : Flow) : State := { s with issue := { s.issue with flow := f } }

/-! ### Physical memory (R11 to R13) -/

/-- 2^48, the size of a region. -/
def regionSize : Nat := 281474976710656

/-- Region number of a physical address. -/
def paRegion (pa : Nat) : Nat := pa / 281474976710656

/-- Logical site of a physical address in the regions that name one. -/
def paSite (pa : Nat) : Nat := pa / 4398046511104 % 64

/-- Physical address of an offset of a site's region. -/
def mkPa (region site off : Nat) : Nat := region * 281474976710656 + site * 4398046511104 + off

/-- Local memory of a core, RAW window (R11). -/
def lmemPa (site core off : Nat) : Nat := mkPa 3 site (core * 524288 + off)

/-- Local offset of a context's save area (R18). -/
def saveBase (ctx : Nat) : Nat := 0x2000 + 0x5000 * ctx

/-- Physical address of an offset of a context's save area. -/
def savePa (r : CtxRef) (off : Nat) : Nat := lmemPa r.site r.core (saveBase r.ctx + off)

/-- The context's registers stand in its save area (R375): it is PREEMPTED, or was when the halt tree stopped it. -/
def Ctx.saved (c : Ctx) : Bool := c.st = .preempted || (c.st = .stopped && c.prior = .preempted)

/-- Banks of local memory that bytes [off, off + n) touch (R66). -/
def banksOf (off n : Nat) : List Nat :=
  (List.range 16).filter fun b => decide (off < 32768 * b + 32768) && decide (32768 * b < off + n)

/-- An access reaches bytes [off, off + n) of a core's local memory: a gated bank is powered up, and reads 0 where nothing
is written since (R68; its bytes went when it was gated). -/
def State.powerUp (s : State) (site core off n : Nat) : State :=
  let l := (banksOf off n).filter fun b => (s.core site core).gated.getLsbD b
  if l.isEmpty then s
  else s.modCore site core fun k => { k with gated := l.foldl (fun g b => g &&& ~~~((1#16) <<< b)) k.gated }

/-- The same for bytes named by a region-0x3 address; nothing for any other address. -/
def State.powerPa (s : State) (pa n : Nat) : State :=
  if paRegion pa = 3 then s.powerUp (paSite pa) (pa / 524288 % 256) (pa % 524288) n else s

/-- Register values of a hub after reset (R96, R395; others 0). -/
def hubReset (off : Nat) : W64 :=
  if off = 0x2000 then 0x31#64
  else if off = 0x2028 then 1563
  else if off = 0x4000 + 8 * 2 then 0
  else if off = 0x5008 then BitVec.ofNat 64 (1 + 700 * 2 + 900 * 2048 + 200 * 2097152)
  else if off = 0x5010 then BitVec.ofNat 64 (105 * 2 + 1000 * 256)
  else if off = 0x5020 then BitVec.ofNat 64 (250 + 32 * 4096 + 95 * 1048576)
  else if off = 0x5028 then BitVec.ofNat 64 (1 + 8 * 2)
  else if off = 0x5030 then BitVec.ofNat 64 (1 + 100 * 2)
  else if 0x5040 ≤ off ∧ off < 0x50C0 then 30
  else 0

/-- A stored hub register by physical hub index and region-0x5 offset. -/
def State.hreg (s : State) (h off : Nat) : W64 := (Table.find (s.hub h).regs off).getD (hubReset off)

/-- Store a hub register. -/
def State.setHreg (s : State) (h off : Nat) (v : W64) : State :=
  s.modHub h fun u => { u with regs := Table.put u.regs off v }

/-- A register of the hub of a logical site. -/
def State.sreg (s : State) (site off : Nat) : W64 := s.hreg (s.phys site) off

/-- Store a register of the hub of a logical site. -/
def State.setSreg (s : State) (site off : Nat) (v : W64) : State := s.setHreg (s.phys site) off v

/-- Interleave carve-out of each site in bytes (R17); module-wide, read from the first site's hub. -/
def State.iwSize (s : State) : Nat := bits (s.sreg 0 0x1208) 0 7 * 1073741824

/-- The region-0x0 alias of an interleaved-window offset (R13); none when it has no target. -/
def State.windowAlias (s : State) (off : Nat) : Option Nat :=
  let n := s.nSites
  if n = 0 ∨ n * s.iwSize ≤ off then none
  else
    let l := off / 128
    some (mkPa 0 (l % n) (68719476736 - s.iwSize + l / n * 128 + off % 128))

/-- Region-0x0 form of an interleaved address; others as they are. -/
def State.plain (s : State) (pa : Nat) : Nat :=
  if paRegion pa = 2 then (s.windowAlias (pa % 281474976710656)).getD pa else pa

/-- Line number of an address; the two aliases of a line have one (R13). -/
def State.lineOf (s : State) (pa : Nat) : Nat := s.plain pa / 128

/-- The one key of a byte that several addresses name: the window's alias, local memory without its format code, and
the physical site in place of the logical one (R13, R20, R92). -/
def State.canon (s : State) (pa : Nat) : Nat :=
  let pa := if paRegion pa = 2 then (s.windowAlias (pa % 281474976710656)).getD pa else pa
  let reg := paRegion pa
  if reg = 0 ∨ reg = 1 then mkPa reg (s.phys (paSite pa)) (pa % 4398046511104)
  else if reg = 3 then mkPa 3 (s.phys (paSite pa)) (pa % 134217728)
  else pa

/-- One byte of memory. -/
def State.byte (s : State) (pa : Nat) : Byte := Table.get (0 : Byte) s.mem (s.canon pa)

/-- A byte written at a place of memory: a watch whose word then differs has seen a change (R291). -/
def Watch.mark (k : Nat) (b : Byte) (w : Watch) : Watch :=
  if w.key ≤ k ∧ k < w.key + 8 ∧ bits w.expect (8 * (k - w.key)) 8 ≠ b.toNat then { w with seen := true } else w

/-- Write one byte of memory. -/
def State.setByte (s : State) (pa : Nat) (b : Byte) : State :=
  { s with
    mem := Table.set (0 : Byte) s.mem (s.canon pa) b
    watches := s.watches.map (Watch.mark (s.canon pa) b) }

/-- `n` bytes from an address. -/
def State.bytes (s : State) (pa : Nat) : Nat → List Byte
  | 0 => []
  | n + 1 => s.byte pa :: State.bytes s (pa + 1) n

/-- Write bytes from an address. -/
def State.setBytes (s : State) (pa : Nat) : List Byte → State
  | [] => s
  | b :: bs => (s.setByte pa b).setBytes (pa + 1) bs

/-- A doubleword of memory (R4, R100). -/
def State.dword (s : State) (pa : Nat) : W64 := BitVec.ofNat 64 (ofBytes (s.bytes pa 8))

/-- Write a doubleword. -/
def State.setDword (s : State) (pa : Nat) (v : W64) : State := s.setBytes pa (toBytes 8 v.toNat)

/-- A 32-bit word of memory. -/
def State.word (s : State) (pa : Nat) : W32 := BitVec.ofNat 32 (ofBytes (s.bytes pa 4))

/-- Fill bytes with 0 (R71, R75). -/
def State.zero (s : State) (pa n : Nat) : State :=
  { s with mem := s.mem.filter fun e => decide (e.1 < s.canon pa) || decide (s.canon pa + n ≤ e.1) }

/-! ### Dies, rectangles and services (R1, R12, R24) -/

/-- Cores of a site's die that passed test and are not retired (R424, R434). -/
def State.goodCores (s : State) (site : Nat) : Nat :=
  let h := s.phys site
  ((List.range 256).filter fun c => bit (s.hreg h (0x200 + 8 * (c / 64))) (c % 64) && !(s.core site c).retired).length

/-- The compute die of a logical site is in service for compute (R1): the site exists, its entry is not memory-only, and
at least 224 of its cores pass. -/
def State.computeSite (s : State) (site : Nat) : Bool :=
  decide (site < s.nSites) && !bit (s.sreg site (0x1000 + 8 * site)) 6 && decide (224 ≤ s.goodCores site)

/-- RECT entry `i` of a die. -/
def State.rect (s : State) (site i : Nat) : W64 := s.sreg site (0x1400 + 8 * i)

/-- A valid rectangle contains a core. -/
def rectHas (e : W64) (core : Nat) : Bool :=
  let row := core / 16
  let col := core % 16
  bit e 16 && decide (bits e 0 4 ≤ row) && decide (row ≤ bits e 0 4 + bits e 8 4) &&
    decide (bits e 4 4 ≤ col) && decide (col ≤ bits e 4 4 + bits e 12 4)

/-- The rectangle of a core, if it lies in one. -/
def State.rectOf (s : State) (site core : Nat) : Option Nat :=
  (List.range 16).find? fun i => rectHas (s.rect site i) core

/-- The core lies in a rectangle. -/
def State.inRect (s : State) (site core : Nat) : Bool := (s.rectOf site core).isSome

/-- SLOWMAP value of a core (R26). -/
def State.slow (s : State) (site core : Nat) : Nat := bits (s.sreg site (0x1480 + 8 * (core / 32))) (2 * (core % 32)) 2

/-- CORENAME of a core (R27); 0 rectangle fields when it lies in none. -/
def State.coreName (s : State) (site core : Nat) : W64 :=
  let i := (s.rectOf site core).getD 0
  let e := s.rect site i
  let row := core / 16 - bits e 0 4
  let col := core % 16 - bits e 4 4
  BitVec.ofNat 64 (site + i * 64 + row % 16 * 1024 + col % 16 * 16384 +
    (if s.slow site core = 0 then 0 else 262144) + core * 524288)

/-! ### ASID table and containment groups (R29, R30) -/

/-- Physical address of the ASID table entry. -/
def State.asidPa (s : State) (asid : Nat) : Nat := bits (s.sreg 0 0x1210) 12 40 * 4096 + 32 * asid

/-- Doubleword `i` of an ASID table entry. -/
def State.asidDw (s : State) (asid i : Nat) : W64 := s.dword (s.asidPa asid + 8 * i)

/-- Containment group of an ASID. -/
def State.cgroup (s : State) (asid : Nat) : Nat := bits (s.asidDw asid 1) 0 12

/-- Bytes by offset of a run of bytes from an offset. -/
def runAt (off : Nat) (l : List Byte) : List (Nat × Byte) := (List.range l.length).map fun i => (off + i, l.getD i 0)

/-! ### Owned lines and the contention predictor (R146, R148) -/

/-- Index of a line's counter: of the region-0x0 alias of a line of the interleaved window (log entry 61). -/
def predIdx (line : Nat) : Nat := (BitVec.ofNat 9 line ^^^ BitVec.ofNat 9 (line / 512)).toNat

/-- A die's counter of a line. -/
def State.pred (s : State) (site line : Nat) : Nat := Table.get 0 (s.die site).pred (predIdx line)

/-- A counter moves up or down and saturates at 3 and 0; where it changes, the run of far atomics starts again. -/
def State.predMove (s : State) (site line : Nat) (up : Bool) : State :=
  let v := s.pred site line
  let v' := if up then min 3 (v + 1) else v - 1
  if v' = v then s
  else
    s.modDie site fun d =>
      { d with
        pred := Table.set 0 d.pred (predIdx line) v'
        farRun := Table.erase d.farRun (predIdx line) }

/-- The core that owns a line. -/
def State.ownerOf (s : State) (line : Nat) : Option (Nat × Nat) :=
  (s.cores.find? fun e => e.2.owned.any fun o => o.line = line).map fun e => (e.1 / 256, e.1 % 256)

/-- An owner returns a line. -/
def State.returnLine (s : State) (site core line : Nat) : State :=
  s.modCore site core fun k => { k with owned := k.owned.filter fun o => o.line != line }

/-- The agent that waits for an owned line is another than the context whose atomic was the last on it; `none` stands for
an agent that is no context (R97, R148; log entry 62). -/
def Core.otherAgent (k : Core) (line site core : Nat) (who : Option CtxRef) : Bool :=
  match who with
  | none => true
  | some r => !(k.owned.any fun o => o.line = line ∧ r = ⟨site, core, o.ctx⟩)

/-- A line is recalled for an access of an agent: its owner returns it, and its die's counter rises where that agent is
another. -/
def State.recallLine (s : State) (line : Nat) (who : Option CtxRef) : State :=
  match s.ownerOf line with
  | some (site, core) =>
    let other := (s.core site core).otherAgent line site core who
    let s := s.returnLine site core line
    if other then s.predMove site line true else s
  | none => s

/-! ### The home's directory: host-held lines and L2 (R82, R138, R139) -/

/-- The host holds a line (R82). -/
def State.hostHolds (s : State) (line : Nat) : Bool := s.l2.any fun l => l.line = line ∧ l.host

/-- The home asks the host for a line back, once. -/
def State.snoop (s : State) (line : Nat) : State :=
  if (s.l2.any fun l => l.line = line ∧ l.host ∧ !l.snooped) then
    { s.emit (.snoop line) with l2 := s.l2.map fun l => if l.line = line then { l with snooped := true } else l }
  else s

/-- The home makes a line ready for an access at the home: recalled from its owner; false while the host holds it. -/
def State.claimLine (s : State) (line : Nat) (who : Option CtxRef) : State × Bool :=
  if s.hostHolds line then (s.snoop line, false) else (s.recallLine line who, true)

/-- Remove a line from every L1 of a die but one core's (R79). -/
def State.l1Drop (s : State) (site line : Nat) (but : Option Nat) : State :=
  { s with cores := Table.mapVals (fun k (c : Core) =>
      if k / 256 = site ∧ some (k % 256) ≠ but then { c with l1 := c.l1.filter fun l => l.line != line } else c) s.cores }

/-- CXL.cache traffic for a line of host memory (R138): a request of the home to read it, or to own it before it holds it
dirty. The host's answer is taken to come at once (log entry 67). -/
def State.cacheReq (s : State) (line : Nat) (own : Bool) : State :=
  if 8 ≤ paRegion (line * 128) then s.emit (.cacheReq line own) else s

/-! ### Writes at a home -/

/-- Fills on their way that carry a line's old bytes may no longer be installed (R79, R105). -/
def State.staleFills (s : State) (line : Nat) (which : Req → Bool) : State :=
  { s with reqs := s.reqs.map fun q =>
      match q.kind with
      | .load _ => if s.lineOf q.pa = line ∧ which q then { q with install := false } else q
      | _ => q }

/-- A line that the module writes at its home on its own account comes back there: its owner returns it, the host gives its copy
up, no L1 keeps it and no fill on its way may (R79, R105). -/
def State.takeBack (s : State) (line : Nat) : State :=
  let s := if s.l2.any fun l => l.line = line ∧ l.host ∧ !l.snooped then s.emit (.snoop line) else s
  let s := s.recallLine line none
  let s : State := { s with
    cores := Table.mapVals (fun _ (c : Core) => { c with l1 := c.l1.filter fun l => l.line != line }) s.cores
    l2 := s.l2.map fun l => if l.line = line then { l with host := false, snooped := false, dirty := true } else l
    reqs := s.reqs.map fun q => if q.stage = .snoop ∧ s.lineOf q.pa = line then { q with stage := .left } else q }
  s.staleFills line fun _ => true

/-- The 144 bytes of an undo record: the old bytes, then two doublewords that carry PA[51:7] and CGROUP in places that the
spec does not give (R387; log entry 26). -/
def UndoRec.image (u : UndoRec) : List Byte :=
  u.data ++ toBytes 8 (Config.undoWord u.line u.group).1.toNat ++ toBytes 8 (Config.undoWord u.line u.group).2.toNat

/-- A record goes into the ring of a hub's log, whose bytes follow one another round the ring. -/
def State.putUndo (s : State) (h : Nat) (u : UndoRec) : State :=
  let base := bits (s.hreg h 0x3628) 0 52
  let lim := bits (s.hreg h 0x3630) 0 40
  let at_ := (s.hub h).undoAt
  let pas := (List.range 144).map fun i => base + (at_ + i) % lim
  let s := ((pas.map s.lineOf).eraseDups).foldl State.takeBack s
  let s := (pas.zip u.image).foldl (fun s b => s.setByte b.1 b.2) s
  s.modHub h fun x => { x with undoAt := (at_ + 144) % lim }

/-- The undo record of a write by an agent of a logged group, when it is the group's first to the line in the interval
(R387). Dead records at the tail of the ring give their space back. -/
def State.logUndo (s : State) (line home : Nat) (asid : BitVec 16) : State :=
  let grp := s.cgroup asid.toNat
  let g := Table.get (⟨0, false⟩ : CkGroup) s.groups grp
  let reg := paRegion (line * 128)
  let h := s.phys home
  if grp = 0 ∨ g.st ≠ 1 ∨ g.ovf ∨ (3 ≤ reg ∧ reg ≤ 7) then s
  else if (s.hub h).undo.any fun u => u.line == line && u.group == grp && !u.dead then s
  else
    let live := (s.hub h).undo.dropWhile (·.dead)
    let u : UndoRec := ⟨line, grp, s.bytes (line * 128) 128, false⟩
    if (live.length + 1) * 144 ≤ bits (s.hreg h 0x3630) 0 40 then
      (s.modHub h fun x => { x with undo := live ++ [u] }).putUndo h u
    else { s with groups := Table.put s.groups grp { g with ovf := true } }

/-- A write of bytes of a line, accepted by its home: undo record, invalidation of the L1 copies of the home's die
(R79), the bytes, which a line present in L2 holds dirty but in the keep tier (R82, R91), and the end of poison when the
whole line is written (R94). -/
def State.homeWrite (s : State) (line home : Nat) (asid : BitVec 16) (by_ : Option (Nat × Nat))
    (bs : List (Nat × Byte)) : State :=
  let s := s.logUndo line home asid
  let but := match by_ with
    | some (st, c) => if st = home then some c else none
    | none => none
  let s := (s.l1Drop home line but).staleFills line fun q => q.stage = .done
  let s := bs.foldl (fun s b => s.setByte (line * 128 + b.1) b.2) s
  let s := if paRegion (line * 128) = 1 then s
    else
      { (if s.l2.any fun l => l.line = line ∧ !l.dirty then s.cacheReq line true else s) with
        l2 := s.l2.map fun l => if l.line = line then { l with dirty := true } else l }
  if (List.range 128).all fun i => bs.any fun b => b.1 = i then { s with poison := s.poison.filter (· != line) } else s

/-- A doubleword written at its home. -/
def State.homeDword (s : State) (asid : BitVec 16) (pa : Nat) (v : W64) : State :=
  s.homeWrite (s.lineOf pa) (paSite (s.plain pa)) asid none (runAt (pa % 128) (toBytes 8 v.toNat))

/-- The home makes lines ready in turn; false where the host holds one. -/
def State.claimLines (s : State) (who : Option CtxRef) : List Nat → State × Bool
  | [] => (s, true)
  | l :: ls =>
    match s.claimLine l who with
    | (s, true) => State.claimLines s who ls
    | (s, false) => (s, false)

/-! ### Launches (R357, R361) -/

/-- Address of a record (R354). -/
def State.recPa (s : State) (rec : Nat) : Nat := bits (s.sreg 0 0x3200) 8 44 * 256 + 256 * rec

/-- ASID in a record (R355). -/
def State.recAsid (s : State) (rec : Nat) : Nat := bits (s.dword (s.recPa rec)) 32 16

/-- The launch with a serial number. -/
def State.launch (s : State) (ser : Nat) : Option Launch := s.launches.find? fun l => l.lser = ser

/-- Change the launch with a serial number. -/
def State.modLaunch (s : State) (ser : Nat) (f : Launch → Launch) : State :=
  { s with launches := s.launches.map fun l => if l.lser = ser then f l else l }

/-- The lowest failure code stands (R361). -/
def lowerCode (old new : Nat) : Nat := if old = 0 then new else min old new

/-- A launch takes a failure code. -/
def State.failLaunch (s : State) (ser code : Nat) : State :=
  s.modLaunch ser fun l => { l with code := lowerCode l.code code }

/-! ### Ownership of a core (R179) -/

/-- The next READY context in ring order after `c`: c + 1, c + 2, c + 3 (R176). -/
def State.nextReady (s : State) (site core c : Nat) : Option Nat :=
  [c + 1, c + 2, c + 3].findSome? fun i =>
    if (s.ctx ⟨site, core, i % 4⟩).st = .ready then some (i % 4) else none

/-- The core passes ownership to the next READY context after `c`, if there is one. -/
def State.passOwner (s : State) (site core c : Nat) : State :=
  match s.nextReady site core c with
  | some n =>
    (s.modCtx ⟨site, core, n⟩ fun x => { x with st := .running }).modCore site core
      fun k => { k with owner := some n, last := c }
  | none => s.modCore site core fun k => { k with owner := none, last := c }

/-- A context leaves RUNNING (or READY) for another state; an owner passes its core on. -/
def State.leave (s : State) (r : CtxRef) (st : CtxState) : State :=
  let s := s.modCtx r fun x => { x with st := st }
  let s := if st = .parked then s.modCore r.site r.core fun k => { k with parked := r.ctx } else s
  if (s.core r.site r.core).owner = some r.ctx then s.passOwner r.site r.core r.ctx else s

/-- A context becomes READY, and the owner of its core when that has none. -/
def State.makeReady (s : State) (r : CtxRef) : State :=
  let s := s.modCtx r fun x => { x with st := .ready, wait := .none }
  match (s.core r.site r.core).owner with
  | some _ => s
  | none =>
    (s.modCtx r fun x => { x with st := .running }).modCore r.site r.core fun k => { k with owner := some r.ctx }

/-! ### The trap queue (R381, R382) -/

/-- The 32 bytes of a trap record. -/
def TrapRec.image (t : TrapRec) (site seq : Nat) (fatal : Bool) : List Byte :=
  toBytes 8 (t.code % 64 + t.ctx * 64 + t.core * 256 + site * 65536 + (if fatal then 4194304 else 0) +
      t.asid.toNat * 4294967296 + seq * 281474976710656) ++
    toBytes 8 t.tval.toNat ++ toBytes 8 t.trappc.toNat ++ toBytes 8 (t.lrec % 65536 + t.cgroup * 65536)

/-- Entries of the ring in use, those of records under way among them. -/
def Die.tqUse (d : Die) : Nat := (d.tqprod - d.tqcons).toNat + d.tqwait.length

/-- Address of the ring's next entry. -/
def Die.tqNext (d : Die) : Nat := bits d.tqbase 11 41 * 2048 + 32 * (d.tqprod.toNat % 64)

/-- Write one record into the ring, at its home as any write (R79, R387), and send the message when the ring was empty. -/
def State.putTrapRec (s : State) (site : Nat) (t : TrapRec) (fatal : Bool) : State :=
  let d := s.die site
  let a := d.tqNext
  let t := { t with cgroup := s.cgroup t.asid.toNat }
  let s1 := (s.homeWrite (s.lineOf a) (paSite (s.plain a)) 0 none (runAt (a % 128) (t.image site d.tqseq.toNat fatal))).modDie
    site fun d => { d with tqprod := d.tqprod + 1, tqseq := d.tqseq + 1 }
  if d.tqprod = d.tqcons ∧ bit d.tqctl 16 then s1.emit (.msix site (bits d.tqctl 8 8)) else s1

/-- Lines that a record's write needs at their homes: the ring's, and that of the ASID table entry with the CGROUP. -/
def State.tqLines (s : State) (site : Nat) (t : TrapRec) : List Nat :=
  [s.lineOf (s.die site).tqNext, s.lineOf (s.asidPa t.asid.toNat)]

/-- Records under way are written in order, each once the host has given back its lines (R99, R139). -/
def State.tqWrite (s : State) (site : Nat) : List (TrapRec × Bool) → State
  | [] => s.modDie site fun d => { d with tqwait := [] }
  | (t, fatal) :: l =>
    match s.claimLines none (s.tqLines site t) with
    | (s, true) => State.tqWrite (s.putTrapRec site t fatal) site l
    | (s, false) => s.modDie site fun d => { d with tqwait := (t, fatal) :: l }

/-- A record is taken up for an entry of the ring. -/
def State.tqPut (s : State) (site : Nat) (t : TrapRec) (fatal : Bool) : State :=
  s.tqWrite site ((s.die site).tqwait ++ [(t, fatal)])

/-- The host has given lines back: the dies' records under way go on. -/
def State.tqOn (s : State) : State := s.dies.foldl (fun s e => if e.2.tqwait.isEmpty then s else s.tqWrite e.1 e.2.tqwait) s

/-- A fatal record takes any free entry or waits in the hub; a non-fatal one needs 62 or fewer in use, or is dropped
and counted. -/
def State.trapRecord (s : State) (site : Nat) (t : TrapRec) (fatal : Bool) : State :=
  let d := s.die site
  if fatal then
    if d.tqUse < 64 then s.tqPut site t true else s.modDie site fun d => { d with tqheld := d.tqheld ++ [t] }
  else if d.tqUse ≤ 62 then s.tqPut site t false
  else s.modDie site fun d => { d with tqdrop := if d.tqdrop = 0xFFFFFFFF#32 then d.tqdrop else d.tqdrop + 1 }

/-- The record of a context (R382). -/
def State.recOf (s : State) (r : CtxRef) (code : Nat) (tval trappc : W64) : TrapRec :=
  let c := s.ctx r
  ⟨code, r.ctx, r.core, c.asid, tval, trappc, (c.task.map (·.lrec)).getD 0, s.cgroup c.asid.toNat⟩

/-! ### Regions (R71) -/

/-- A region entry that becomes FREE: its generation steps. -/
def Region.freed (e : Region) : Region := { Region.reset with gen := e.gen + 1 }

/-- What the halt of a holder does to an entry; `succ` is the successor named with the retain bit (R71, R76, R77). -/
def Region.halted (e : Region) (h : Holder) (succ : Option Nat) : Region :=
  let e := if e.grantee = some h then { e with pin := false, grantee := none } else e
  match e.state with
  | .exclusive o =>
    if o = h then
      match succ with
      | some n => { e with state := .retained n }
      | none => e.freed
    else e
  | .shared hs =>
    if hs.contains h then
      let rest := hs.filter fun x => x != h
      if rest.isEmpty then e.freed else { e with state := .shared rest }
    else e
  | .passing (some o) t =>
    if t = h then { e with state := .exclusive o }
    else if o = h then { e with state := .passing none t } else e
  | .passing none t => if t = h then e.freed else e
  | _ => e

/-- The contexts that hold an entry, in the state's own words: the target of a pass does not yet (R71). -/
def Region.owners (e : Region) : List Holder :=
  match e.state with
  | .exclusive h => [h]
  | .shared hs => hs
  | .passing (some h) _ => [h]
  | _ => []

/-- The holders of an entry, and the target of a pass. -/
def Region.holders (e : Region) : List Holder :=
  match e.state with
  | .exclusive h => [h]
  | .shared hs => hs
  | .passing (some h) t => [h, t]
  | .passing none t => [t]
  | _ => []

/-- Change the region tables of every core of a cluster. -/
def State.mapRegions (s : State) (site cl : Nat) (f : Nat → Region → Region) : State :=
  { s with cores := Table.mapVals (fun k (c : Core) =>
      if k / 256 = site ∧ k % 256 / 64 = cl then { c with regions := Table.mapVals (fun _ e => f (k % 256) e) c.regions }
      else c) s.cores }

/-- Every RETAINED region of a record becomes FREE (R77, R357). -/
def State.freeRetained (s : State) (lrec : Nat) : State :=
  { s with cores := Table.mapVals (fun _ (c : Core) =>
      { c with regions := Table.mapVals (fun _ e => if e.state = .retained lrec then e.freed else e) c.regions }) s.cores }

/-! ### Dividers and voltages (R389, R390, R392, R399) -/

/-- Voltage code of a row. -/
def State.vcode (s : State) (site row : Nat) : Nat := bits (s.sreg site (0x5040 + 8 * row)) 0 6

/-- The lease of a cluster. -/
def Die.leaseOf (d : Die) (cl : Nat) : Lease := d.lease.toList.getD cl ⟨.idle, 0, 0⟩

/-- Voltage code that a divider code needs (R389). -/
def needCode (div : Nat) : Int :=
  match div with
  | 0 => 50 | 1 => 30 | 2 => 16 | 3 => 6 | _ => 0

/-- The contexts of a core that are not FREE. -/
def State.busyCtxs (s : State) (site core : Nat) : List Ctx :=
  ((List.range 4).map fun c => s.ctx ⟨site, core, c⟩).filter fun c => c.st != .free

/-- Effective VOFF of a core: the largest among its contexts that are not FREE; 0 with none. -/
def State.voffOf (s : State) (site core : Nat) : Int :=
  match (s.busyCtxs site core).map fun c => (BitVec.ofNat 5 (bits c.pwrreq 3 5)).toInt with
  | [] => 0
  | x :: l => l.foldl max x

/-- Effective cap of a core: the least restrictive CAP, as a divider code. -/
def State.capOf (s : State) (site core : Nat) : Nat :=
  match (s.busyCtxs site core).map fun c => bits c.pwrreq 0 3 with
  | [] => 0
  | x :: l => l.foldl min x

/-- The least-restrictive divider of a core on its own. -/
def State.floorOwn (s : State) (site core : Nat) : Nat :=
  let env := if ((s.die site).leaseOf (clusterOf core)).st = .sprint then 0 else 1
  max (max env (s.slow site core)) (s.capOf site core)

/-- The floor of R392: with a gang on the core, the largest of its quad's. -/
def State.floorDiv (s : State) (site core : Nat) : Nat :=
  if (s.busyCtxs site core).any (·.gang) then
    ((List.range 4).map fun i => s.floorOwn site (quadBase core + i)).foldl max 0
  else s.floorOwn site core

/-- The cores that run at one divider with a core: its quad with a gang on it (R185). -/
def State.divSet (s : State) (site core : Nat) : List Nat :=
  if (s.busyCtxs site core).any (·.gang) then (List.range 4).map (quadBase core + ·) else [core]

/-- The divider that a core is to take: the largest that its set's demand and floors give. -/
def State.goalDiv (s : State) (site core : Nat) : Nat :=
  ((s.divSet site core).map fun c => max (s.core site c).divWant (s.floorOwn site c)).foldl max 0

/-- The largest divider in force in a core's set. -/
def State.curDiv (s : State) (site core : Nat) : Nat := ((s.divSet site core).map fun c => (s.core site c).div).foldl max 0

/-- Code that a core needs of its row at a divider (R389). -/
def State.needOf (s : State) (site core div : Nat) : Nat :=
  (min 50 (max 0 (needCode div + s.voffOf site core))).toNat

/-- Code that a row moves toward: the needs of its cores at the dividers in force and to be taken, in RAMPUP
50 + VOFF. -/
def State.rowTarget (s : State) (site row : Nat) : Nat :=
  let cores := (List.range 16).map (16 * row + ·)
  let base := (cores.map fun c =>
    let k := s.core site c
    max (s.needOf site c k.div) (s.needOf site c (s.goalDiv site c))).foldl max 0
  if ((s.die site).leaseOf (row / 4)).st = .rampup then
    let voff := match (cores.filter fun c => !(s.busyCtxs site c).isEmpty).map fun c => s.voffOf site c with
      | [] => 0
      | x :: l => l.foldl max x
    max base (min 50 (max 0 (50 + voff))).toNat
  else base

/-- The rows of a core's set have the voltage for a divider, with the offsets of its cores. -/
def State.divSafe (s : State) (site core div : Nat) : Bool :=
  (s.divSet site core).all fun c => decide (s.needOf site c div ≤ s.vcode site (c / 16))

/-- The divider that a core takes now: a slower one at once, a faster one when the rows of its set have their voltage; where an
offset has risen above the row, the fastest that the row allows for now (R390). None stays below its floor, and a gang's four
run at one (R185). -/
def State.nextDiv (s : State) (site core : Nat) : Nat :=
  let goal := s.goalDiv site core
  let cur := s.curDiv site core
  if s.divSafe site core goal then goal
  else if goal ≤ cur ∧ s.divSafe site core cur then cur
  else ((List.range 5).find? fun d => decide (goal ≤ d) && s.divSafe site core d).getD (max goal 4)

/-- Cores of a row take their dividers. -/
def State.settleRow (s : State) (site row : Nat) : State :=
  (List.range 16).foldl (fun s i =>
    let c := 16 * row + i
    let k := s.core site c
    let want := max k.divWant (s.floorOwn site c)
    let div := s.nextDiv site c
    if want = k.divWant ∧ div = k.div then s
    else s.modCore site c fun k => { k with divWant := want, div := div }) s

/-- The rows of a core's quad. -/
def State.settleQuad (s : State) (site core : Nat) : State :=
  (((List.range 4).map fun i => (quadBase core + i) / 16).eraseDups).foldl (fun s row => s.settleRow site row) s

/-- A core is to take a divider. -/
def State.wantDiv (s : State) (site core div : Nat) : State :=
  (s.modCore site core fun k => { k with divWant := div }).settleQuad site core

/-! ### Ending a context (R383) -/

/-- The discards of R132, R168, R326 and R353: replay entries, replies, SFU requests, engine work of the context. -/
def State.discard (s : State) (r : CtxRef) : State :=
  let s := s.modCore r.site r.core fun k =>
    { k with
      rq := k.rq.filter fun e => e.ctx != r.ctx
      stw := k.stw.filter fun e => e.ctx != r.ctx
      mxq := k.mxq.filter fun m => m.ctx != r.ctx
      ebuf := k.ebuf.filter fun e => !(k.mxq.any fun m => m.ctx == r.ctx && m.job == e.job)
      -- output of epilogues already finished leaves, and so do the chunks of a copy that have issued (R345, R353)
      obuf := (k.obuf.filter fun e => e.ctx != r.ctx || k.jobs.any fun j => j.job == e.job).map fun e =>
        if e.ctx = r.ctx then { e with dead := true } else e
      chunks := k.chunks.map fun c => if c.ctx = r.ctx then { c with dead := true } else c
      jobs := k.jobs.filter fun j => j.ctx != r.ctx
      cp := match k.cp with
        | some a => if a.ctx = r.ctx then none else some a
        | none => none
      slots := k.slots.map fun a => if a.state ≠ .free ∧ a.owner = r.ctx then AccSlot.reset else a }
  let s := s.modOctet r.site (octetOf r.core) fun o =>
    { o with
      sfuq := o.sfuq.filterMap fun q => if q.who = r then (if q.started then some { q with drop := true } else none) else some q
      rsv := o.rsv.filter fun b => b.2 != r }
  { s with reqs := s.reqs.map fun q => if q.who = r then { q with orphan := true } else q }

/-! ### Energy accounts (R410; log entry 39) -/

/-- Energy in nJ charged to an account of a site's hub. -/
def State.charge (s : State) (site asid nj : Nat) : State :=
  s.modHub (s.phys site) fun h => { h with energy := Table.set 0 h.energy asid (Table.get 0 h.energy asid + nj) }

/-- A piece of work is charged to an account: a free amount. -/
def State.bill (s : State) (site asid : Nat) : State := (s.charge site asid (Config.energy s.tick)).next

/-- Work of a context is charged to it, for its next stall sample, and to its ASID. -/
def State.billCtx (s : State) (r : CtxRef) : State :=
  if (s.ctx r).st = .free then s
  else (s.modCtx r fun c => { c with due := c.due + Config.energy s.tick }).bill r.site (s.ctx r).asid.toNat

/-- A pre-emption save is charged to account 0 when self-test or a hold asked for it; else it is owed by the task that next
takes the context slot (R410). -/
def State.billSave (s : State) (r : CtxRef) (hold : Bool) : State :=
  if hold then s.bill r.site 0
  else (s.modCore r.site r.core fun k =>
    { k with owed := Table.set 0 k.owed r.ctx (Table.get 0 k.owed r.ctx + Config.energy s.tick) }).next

/-- A task takes a context slot: the save that stands there is charged to its ASID. -/
def State.paySave (s : State) (r : CtxRef) (asid : Nat) : State :=
  match Table.get 0 (s.core r.site r.core).owed r.ctx with
  | 0 => s
  | n => (s.modCore r.site r.core fun k => { k with owed := Table.set 0 k.owed r.ctx 0 }).charge r.site asid n

/-! ### Lane blocks of an octet (R188, R191) -/

/-- The contexts of an octet that the table lists. -/
def State.octCtxs (s : State) (site oct : Nat) : List (CtxRef × Ctx) :=
  s.ctxs.filterMap fun e =>
    if e.1 / 32 = site * 32 + oct then some (⟨e.1 / 1024, e.1 / 4 % 256, e.1 % 4⟩, e.2) else none

/-- Blocks that no context holds and none has reserved. -/
def State.freeBlocks (s : State) (site oct : Nat) : List Nat :=
  let l := s.octCtxs site oct
  (List.range 8).filter fun b =>
    !(l.any fun x => x.2.held.contains b) && !((s.octet site oct).rsv.any fun x => x.1 == b)

/-- Insertion by a number. -/
def insertBy {α : Type} (f : α → Nat) (x : α) : List α → List α
  | [] => [x]
  | y :: l => if f x < f y then x :: y :: l else y :: insertBy f x l

/-- A list in ascending order of a number. -/
def sortBy {α : Type} (f : α → Nat) (l : List α) : List α := l.foldr (insertBy f) []

/-- The octet reserves free blocks for the contexts chosen for resumption, older pre-emptions first (R191). -/
def State.reserve (s : State) (site oct : Nat) : State :=
  let l := sortBy (fun (x : CtxRef × Ctx) => x.2.preOrder)
    ((s.octCtxs site oct).filter fun x => x.2.st = .preempted ∧ x.2.chosen)
  l.foldl (fun s x =>
    let have_ := ((s.octet site oct).rsv.filter fun b => b.2 == x.1).length
    let take := (s.freeBlocks site oct).take (x.2.savedClaim - have_)
    if take.isEmpty then s
    else s.modOctet site oct fun o => { o with rsv := o.rsv ++ take.map fun b => (b, x.1) }) s

/-- A girth waiter, gang or other set forgets the context with its registers; the task's launch counts it out. Its core's
floors and offset are those of the contexts that stay (R392). -/
def State.freeCtx (s : State) (r : CtxRef) : State :=
  let t := (s.ctx r).task
  let s := (((s.leave r .free).setCtx r Ctx.reset).reserve r.site (octetOf r.core)).settleQuad r.site r.core
  match t with
  | some t => s.modLaunch t.lser fun l => { l with running := l.running - 1 }
  | none => s

/-- Make an asynchronous cause pending: one per code, a later one overwrites the TVAL (R371, R407). -/
def addCause (l : List (Nat × W64)) (code : Nat) (v : W64) : List (Nat × W64) := Table.put l code v

/-- The other members of a context's gang. -/
def State.gangOthers (s : State) (r : CtxRef) : List CtxRef :=
  if (s.ctx r).gang then
    ((List.range 4).map fun i => (⟨r.site, quadBase r.core + i, r.ctx⟩ : CtxRef)).filter fun x => x != r
  else []

/-- The members of a context's gang, leader first; the context alone outside a gang. -/
def State.members (s : State) (r : CtxRef) : List CtxRef :=
  if (s.ctx r).gang then (List.range 4).map fun i => ⟨r.site, quadBase r.core + i, r.ctx⟩ else [r]

/-- A context still waits for something. -/
def Ctx.stillWaits (c : Ctx) : Bool :=
  c.st = .waiting ||
    (match c.wait with
      | .replies ids => !ids.isEmpty
      | .walk _ => true
      | .slotFill => true
      | _ => false)

/-- A PARKED context whose replies have all arrived becomes READY; a gang's members do so together (R185). -/
def State.unpark (s : State) (r : CtxRef) : State :=
  let ms := s.members r
  if ms.any fun m => (s.ctx m).stillWaits then s
  else ms.foldl (fun s m => if (s.ctx m).st = .parked then s.makeReady m else s) s

/-- A WAITING context's wait is over: it becomes READY, in a gang when the others no longer wait either. -/
def State.rouse (s : State) (r : CtxRef) : State :=
  if (s.ctx r).st ≠ .waiting ∨ (s.ctx r).wait = .gangDone then s
  else if (s.ctx r).gang then (s.modCtx r fun c => { c with st := .parked, wait := .replies [] }).unpark r
  else s.makeReady r

/-- A wait ends with a result for its bundle. -/
def State.fire (s : State) (r : CtxRef) (v : Nat) : State := (s.modCtx r fun c => { c with fired := some v }).rouse r

/-- The waits of a context or gang are abandoned: its waiting bundle executes again after the trap, from the slot that waits, so
that a wait within a dictionary bundle is a boundary too (R181; log entry 76). -/
def State.abandon (s : State) (ms : List CtxRef) : State :=
  if ms.all fun m => (s.ctx m).st ≠ .waiting then s
  else
    (ms.foldl (fun s m => s.modCtx m fun c => { c with mid := false, ahead := none }) s) |> ms.foldl State.rouse

/-- An asynchronous cause becomes pending in a context, and ends a wait when INTRAP is 0 (R178, R181). -/
def State.pendCause (s : State) (r : CtxRef) (code : Nat) (v : W64) : State :=
  let c := s.ctx r
  if c.st = .free ∨ c.st = .halting then s
  else
    let s := s.modCtx r fun x => { x with pendAsync := addCause x.pendAsync code v }
    if c.inTrap then s else s.abandon (s.members r)

/-- The other contexts of the quad with the same number. -/
def quadOthers (r : CtxRef) : List CtxRef :=
  ((List.range 4).map fun i => (⟨r.site, quadBase r.core + i, r.ctx⟩ : CtxRef)).filter fun x => x != r

/-- A context waits, or did when the halt tree stopped it. -/
def Ctx.waitsIn (c : Ctx) : Bool := c.st = .waiting || (c.st = .stopped && c.prior = .waiting)

/-- A wait is over without a result: the context is READY, or will be when the halt tree releases it. -/
def State.waitOver (s : State) (r : CtxRef) : State :=
  if (s.ctx r).st = .stopped then s.modCtx r fun c => { c with prior := .ready, wait := .none } else s.makeReady r

/-- A context that might have joined a gang halts, splits off or ends: those that wait get status 1; those whose `gang`
is complete while others' are about to be stay independent and learn of the loss (R184, R186). -/
def State.gangLost (s : State) (r : CtxRef) : State :=
  (quadOthers r).foldl (fun s o =>
    let c := s.ctx o
    match c.wait with
    | .gang => if c.waitsIn then s.fire o 1 else s
    | .gangDone => (s.waitOver o).pendCause o 0x22 1
    | _ => s) s

/-- Every region that a context of a group that rolls back holds becomes FREE (R71, R137). -/
def State.freeHeld (s : State) (r : CtxRef) : State :=
  s.mapRegions r.site (clusterOf r.core) fun _ e => if e.owners.contains (holderOf r) then e.freed else e

/-- Steps 1 to 4 of R383 for one context; the regions of a group's context become FREE (R388). -/
def State.endCore (s : State) (r : CtxRef) (code : Nat) (v : W64) : State :=
  let c := s.ctx r
  let pc := putBits c.pc 0 3 c.slot.toNat
  let s := s.trapRecord r.site (s.recOf r code v pc) true
  let others := s.gangOthers r
  let s := s.discard r
  let s := if s.cgroup c.asid.toNat = 0 then s else s.freeHeld r
  let s := s.mapRegions r.site (clusterOf r.core) fun _ e => e.halted (holderOf r) none
  let s := match c.task with
    | some t => s.failLaunch t.lser 6
    | none => s
  let s := s.freeCtx r
  -- the loss of a gang member: the others are split and take cause 0x22 with TVAL 1 (R186)
  let s := others.foldl (fun s o => (s.modCtx o fun x => { x with gang := false }).pendCause o 0x22 1) s
  (others.foldl State.unpark s).gangLost r

/-- Every context of the machine in a state other than FREE. -/
def State.liveCtxs (s : State) : List CtxRef :=
  s.ctxs.filterMap fun e => if e.2.st = .free then none else some ⟨e.1 / 1024, e.1 / 4 % 256, e.1 % 4⟩

/-- A line gets its old bytes back at its home (R388): it is poisoned no more (R94), and a line of host memory is held dirty for
the host, or sent to it (R138). -/
def State.restoreLine (s : State) (line : Nat) (data : List Byte) : State :=
  let held := s.l2.any fun l => l.line = line
  let s := (s.takeBack line).cacheReq line true
  let s := if 8 ≤ paRegion (line * 128) ∧ !held then s.emit (.cacheBack line data) else s
  ({ s with poison := s.poison.filter (· != line) } : State).setBytes (line * 128) data

/-- The restoring part of a rollback (R388): the group's undo records, newest first, at every home. -/
def State.restoreUndo (s : State) (grp : Nat) : State :=
  let recs := s.hubs.flatMap fun e => e.2.undo.filter fun u => u.group = grp && !u.dead
  let s := recs.reverse.foldl (fun s u => s.restoreLine u.line u.data) s
  { s with hubs := Table.mapVals (fun _ (h : Hub) => { h with undo := h.undo.filter fun u => u.group != grp }) s.hubs }

/-- Binding slots that cover a virtual line in an ASID. -/
def Die.tags (d : Die) (asid : BitVec 16) (va : W64) : List Nat :=
  let v := bits va 7 49
  (d.bind.filter fun b => b.asid == asid && decide (b.rbase ≤ v) && decide (v < b.rbase + b.rlines)).map (·.slot)

/-- Fills in flight to a die may no longer be installed (R105). -/
def State.noInstall (s : State) (site : Nat) (which : Req → Bool) : State :=
  { s with reqs := s.reqs.map fun q =>
      match q.kind with
      | .load _ => if q.who.site = site ∧ which q then { q with install := false } else q
      | _ => q }

/-- A line of a die's cache stays when a group rolls back: it is bound by another (R388). -/
def RdcLine.stays (slots : List Nat) (l : RdcLine) : Bool :=
  match l.tag with
  | none => false
  | some t => !slots.contains t

/-- A die's cache forgets the lines bound by the group and its UNBOUND lines, without write-back (R388). -/
def Die.dropGroup (d : Die) (slots : List Nat) : Die := { d with rdc := d.rdc.filter fun l => l.stays slots }

/-- The binding slots of a die whose ASID is in a group. -/
def State.groupSlots (s : State) (d : Die) (grp : Nat) : List Nat :=
  (d.bind.filter fun b => s.cgroup b.asid.toNat = grp).map (·.slot)

/-- Every die's cache drops what the group has there, and the dies' L1 copies of those lines go (R79, R388). -/
def State.dropGroupLines (s : State) (grp : Nat) : State :=
  let gone (site line : Nat) : Bool :=
    let d := s.die site
    d.rdc.any fun l => l.line == line && !l.stays (s.groupSlots d grp)
  let s' : State := { s with
    cores := Table.mapVals (fun k (c : Core) => { c with l1 := c.l1.filter fun l => !gone (k / 256) l.line }) s.cores
    dies := Table.mapVals (fun _ (d : Die) => d.dropGroup (s.groupSlots d grp)) s.dies }
  -- fills on their way for those lines may not stay either (R105)
  s.dies.foldl (fun (x : State) e =>
    x.noInstall e.1 fun q =>
      let l := e.2.tags q.asid q.va
      q.home != e.1 && (l.isEmpty || l.any (s.groupSlots e.2 grp).contains)) s'

/-- A request by number belongs to a group. -/
def State.reqInGroup (s : State) (grp id : Nat) : Bool := s.reqs.any fun q => q.id == id && s.cgroup q.asid.toNat == grp

/-- Requests of merged reduction packets that carry contributions of a group and of others: such a packet is one write, and
cannot be taken apart (R153, R387). -/
def State.mixedIds (s : State) (grp : Nat) : List Nat :=
  s.reqs.flatMap fun w =>
    match w.kind with
    | .reduce _ _ _ c =>
      let ids := c.map (·.1)
      if ids.any (s.reqInGroup grp) && ids.any (fun i => !s.reqInGroup grp i) then w.id :: ids else []
    | _ => []

/-- A slice's miss entry once requests are gone: its next joiner takes the place of a request that no longer waits. -/
def SliceMiss.left (alive : Nat → Bool) (lead : Bool) (m : SliceMiss) : Option SliceMiss :=
  let l := m.joiners.filter alive
  if lead then some { m with joiners := l }
  else match l with
    | [] => none
    | _ :: l => some { m with joiners := l }

/-- Requests leave the machine, wherever they wait. -/
def State.dropReqs (s : State) (gone : Req → Bool) : State :=
  let reqs := s.reqs.filter fun q => !gone q
  let alive (i : Nat) : Bool := reqs.any fun q => q.id == i
  { s with
    reqs := reqs
    slices := Table.mapVals (fun k (l : Slice) =>
      { queue := l.queue.filter alive
        kept := l.kept.filter alive
        miss := l.miss.filterMap fun m =>
          m.left alive (reqs.any fun q => q.stage == .missing && q.home == k / 16 && s.lineOf q.pa == m.line &&
            !m.joiners.contains q.id) }) s.slices }

/-- The end of a rollback (R388): the group's lines are restored, or it is lost. -/
def State.endRollback (s : State) (grp : Nat) : State :=
  let g := Table.get (⟨0, false⟩ : CkGroup) s.groups grp
  -- the traffic of the restore is charged to system account 0 (R410)
  let s := if g.st = 1 ∧ !g.ovf then (List.range s.nSites).foldl (fun s d => s.bill d 0) (s.restoreUndo grp) else s
  { s with
    groups := Table.put s.groups grp { g with st := if g.ovf ∨ g.st = 0 then 3 else 2 }
    rollbacks := s.rollbacks.filter (· != grp) }.tqOn

/-- A merged reduction has been applied: the rollbacks that waited for the last of theirs end. -/
def State.rollbacksOn (s : State) : State :=
  s.rollbacks.foldl (fun s g => if (s.mixedIds g).isEmpty then s.endRollback g else s) s

/-- A region RETAINED for a record of a group (R77, R137). -/
def State.keptFor (s : State) (grp : Nat) (e : Region) : Bool :=
  match e.state with
  | .retained n => s.cgroup (s.recAsid n) == grp
  | _ => false

/-- The RETAINED regions of a group become FREE with its others (R137). -/
def State.freeKept (s : State) (grp : Nat) : State :=
  { s with cores := Table.mapVals (fun _ (c : Core) =>
      { c with regions := Table.mapVals (fun _ e => if s.keptFor grp e then e.freed else e) c.regions }) s.cores }

/-- Rollback of a containment group (R388). The homes restore its lines at once, or, while merged reductions of the group are
on their way, when the last of them has been applied. -/
def State.rollback (s : State) (grp : Nat) : State :=
  let mine := s.liveCtxs.filter fun r => s.cgroup (s.ctx r).asid.toNat = grp
  let s := mine.foldl (fun s r => s.endCore r 0x31 (BitVec.ofNat 64 grp)) s
  -- in-flight launches of the group take STATUS 6; their undispatched tasks are dropped
  let lser := (s.launches.filter fun l => l.inflight && s.cgroup (bits (l.data.getD 0 0) 32 16) == grp).map (·.lser)
  let s := lser.foldl (fun s l => s.failLaunch l 6) s
  -- the group's requests and packets still in flight are dropped (R137, R168), and so is what its engines have still to write
  let mixed := s.mixedIds grp
  let s := s.dropReqs fun q => s.cgroup q.asid.toNat = grp && q.stage != .done && !mixed.contains q.id
  let s := { s with cores := Table.mapVals (fun _ (c : Core) =>
    { c with
      obuf := c.obuf.filter fun e => !(e.dead && s.cgroup e.asid.toNat == grp)
      chunks := c.chunks.filter fun x => !(x.dead && s.cgroup x.asid.toNat == grp) }) s.cores }
  let s := (s.freeKept grp).dropGroupLines grp
  if mixed.isEmpty then s.endRollback grp else { s with rollbacks := grp :: s.rollbacks.filter (· != grp) }

/-- The dies of a hub's halt-tree partition (R384). -/
def State.htDies (s : State) (h : Nat) : List Nat :=
  (List.range s.nSites).filter fun d => bit (s.hreg h 0x3610) d

/-- A context of a stopped die keeps its state aside and is STOPPED, unless it stands between two slots of a dictionary bundle:
that one goes on to the bundle's end (R223, R384). -/
def Ctx.stopped (c : Ctx) : Ctx :=
  if c.st = CtxState.free ∨ c.st = CtxState.stopped ∨ c.mid then c else { c with prior := c.st, st := CtxState.stopped }

/-- What a core records for a context that stops: its resume point, in the TRAPPC layout (R385). -/
def Ctx.stopPoint (c : Ctx) : W64 := putBits c.pc 0 3 c.slot.toNat

/-- The core's part of a stop: its ring is left to a context still within a dictionary bundle, and it records where its
contexts stand (R384, R385). -/
def State.stopCore (s : State) (site core : Nat) (k : Core) : Core :=
  { k with
    owner := k.owner.filter fun c => (s.ctx ⟨site, core, c⟩).mid
    htMsg := k.msgRecv ++ k.msgSent
    ht := Vector.ofFn fun i : Fin 4 => (s.ctx ⟨site, core, i.val⟩).stopPoint }

/-- One die stops: every context in states 1 to 9 becomes STOPPED, each core records where (R384, R385); a gated die leaves
the gate (R412). -/
def State.stopDie (s : State) (site : Nat) : State :=
  let s := if (s.die site).gated then s.modDie site fun d => { d with gated := false } else s
  let s := { s with
    cores := Table.mapVals (fun k (c : Core) => if k / 256 = site then s.stopCore site (k % 256) c else c) s.cores
    ctxs := Table.mapVals (fun k (c : Ctx) => if k / 1024 = site then c.stopped else c) s.ctxs }
  -- a READY context within a bundle takes its core when that has no owner left
  let s := (s.ctxs.filter fun e => e.1 / 1024 == site && e.2.st == CtxState.ready && e.2.mid).foldl
    (fun s e => s.makeReady ⟨site, e.1 / 4 % 256, e.1 % 4⟩) s
  s.setSreg site 0x3608 (putBits (s.sreg site 0x3608) 4 1 1)

/-- A context of a stopped die that has come to its bundle's end stops there. -/
def State.stopLate (s : State) (r : CtxRef) : State :=
  let c := s.ctx r
  if !bit (s.sreg r.site 0x3608) 4 ∨ c.st = .free ∨ c.st = .stopped ∨ c.mid then s
  else
    let s := (s.modCtx r Ctx.stopped).modCore r.site r.core fun k =>
      { k with
        owner := k.owner.filter (· != r.ctx)
        htMsg := k.msgRecv ++ k.msgSent
        ht := k.ht.setIfInBounds r.ctx c.stopPoint }
    -- another context of the core within a dictionary bundle takes the core, to stop at its own bundle's end
    match ((List.range 4).map fun i => (⟨r.site, r.core, i⟩ : CtxRef)).find? fun x =>
      (s.ctx x).st = CtxState.ready && (s.ctx x).mid with
    | some x => s.makeReady x
    | none => s

/-- STOP of the partition of hub `h` (R384). -/
def State.haltStop (s : State) (h : Nat) : State :=
  let v := s.hreg h 0x3608
  let s := s.setHreg h 0x3608 (putBits v 16 16 (bits v 16 16 + 1))
  (s.htDies h).foldl (fun s d => s.stopDie d) s

/-- `end_context(c, v)` (R383): steps 1 to 5, and the stop of the partition where ONFATAL is set. -/
def State.endContext (s : State) (r : CtxRef) (code : Nat) (v : W64) : State :=
  let grp := s.cgroup (s.ctx r).asid.toNat
  let s := s.endCore r code v
  let s := if grp ≠ 0 then s.rollback grp else s
  let h := s.phys r.site
  if bit (s.hreg h 0x3608) 3 then s.haltStop h else s

/-! ### Taking an exception and returning from one (R372, R271) -/

/-- The registers after trap entry: what R372 writes. -/
def Ctx.enterTrap (c : Ctx) (async : Bool) (code : Nat) (v : W64) (addr : W64) (slot : BitVec 2) : Ctx :=
  { c with
    trappc := putBits addr 0 3 slot.toNat
    tstat := BitVec.ofNat 64 ((if c.sys then 1 else 0) + 2 + (if c.inTrap then 4 else 0))
    tcause := BitVec.ofNat 64 (code % 64 + if async then 64 else 0)
    tval := v
    sys := true
    walkFault := none
    fired := none
    handler := true
    redo := false
    pc := putBits c.tvec 0 3 0
    slot := 0
    mid := false
    ahead := none }

/-- The entries of a context in the replay queue and its stores in their walks, once it takes a trap: parked before it
(R131). -/
def Core.aged (k : Core) (ctx : Nat) : Core :=
  let f (e : ReplayEntry) : ReplayEntry := if e.ctx = ctx then { e with inTrap := false } else e
  { k with rq := k.rq.map f, stw := k.stw.map f }

/-- Those entries belong to no handler of the context that starts now. -/
def State.ageEntries (s : State) (r : CtxRef) : State :=
  if ((s.core r.site r.core).rq ++ (s.core r.site r.core).stw).any fun e => e.ctx == r.ctx && e.inTrap then
    s.modCore r.site r.core fun k => k.aged r.ctx
  else s

/-- The hub logs the cause when TQCTL asks for it (R381): 0x10 with LOGBAR, 0x24 with LOGENG, a store's 0x08 or 0x09
with LOGST. -/
def State.logTrap (s : State) (r : CtxRef) (store : Bool) (code : Nat) (v pc : W64) : State :=
  let q := (s.die r.site).tqctl
  if (store && (code == 8 || code == 9) && bit q 0) || (code == 0x24 && bit q 1) || (code == 0x10 && bit q 2) then
    s.trapRecord r.site (s.recOf r code v pc) false
  else s

/-- Trap entry (R372): a synchronous cause with INTRAP = 1 ends the context with cause 0x32. -/
def State.takeTrap (s : State) (r : CtxRef) (async store : Bool) (code : Nat) (v : W64) (addr : W64)
    (slot : BitVec 2) : State :=
  let c := s.ctx r
  if !async && c.inTrap then s.endContext r 0x32 (BitVec.ofNat 64 code)
  else
    let c' := c.enterTrap async code v addr slot
    ((s.setCtx r c').ageEntries r).logTrap r store code v c'.trappc

/-- A synchronous cause of the bundle in issue: the context in issue takes it, with the unit's first slot as resume
point. -/
def State.trap (s : State) (code : Nat) (v : W64) : State :=
  let s' := s.takeTrap s.cur false false code v s.c.pc s.c.slot
  if (s'.ctx s.cur).st = .free then s'.flow .ended else s'.flow .trapped

/-- The word in execution as it stands in the bundle (R370). -/
def Issue.word (i : Issue) : W32 := if i.inB then i.b else i.a

/-- TVAL of causes 0x03 and 0x04 (R222). -/
def dictTval (sw : BitVec 14) (bank slot : Nat) (w : W32) : W64 :=
  BitVec.ofNat 64 (sw.toNat + bank % 4 * 16384 + slot % 4 * 65536 + w.toNat * 4294967296)

/-- Cause 0x02 of the word in execution; 0x04 when it is an expansion, with the bank that the slot expanded from, which is the
leader's in a gang (R222; log entry 77). -/
def State.illegal (s : State) : State :=
  match s.issue.dict with
  | none => s.trap 0x02 (s.issue.word.setWidth 64)
  | some (swa, sla, swb, slb, b) =>
    if s.issue.inB then s.trap 0x04 (dictTval swb b slb s.issue.b) else s.trap 0x04 (dictTval swa b sla s.issue.a)

/-- Return from a trap (R271, R372): the saved mode and INTRAP come back, control goes to TRAPPC at its slot, and the
replay entries parked before the trap are to be translated again when INTRAP falls to 0 (R130); a cause of theirs that
still waits would be raised again by that translation. -/
def State.returnTrap (s : State) : State :=
  let c := s.c
  let pin := bit c.tstat 2
  let s := s.modC fun c =>
    { c with sys := bit c.tstat 0, tstat := putBits c.tstat 1 1 (if pin then 1 else 0), handler := pin && c.handler }
  let s := if pin then s else
    (s.modC fun c => { c with pendStore := c.pendStore.filter fun e => e.1 = 0x0E }).modCore s.cur.site s.cur.core fun k =>
    { k with
      rq := k.rq.map fun e => if e.ctx = s.cur.ctx ∧ e.faulted then { e with retry := true } else e
      mxq := k.mxq.map fun m => if m.ctx = s.cur.ctx then { m with hold := false } else m }
  s.flow (.jump (putBits c.trappc 0 3 0) (BitVec.ofNat 2 c.trappc.toNat))

end Machine
end Sys2Proof
end

