-- ==== Sys2Proof/Machine/Fp.lean ====
section
/-! DEFINITION. The arithmetic of 02: formats, exact values, rounding once (R43 to R50), the sums and comparisons of
R140, R249 to R253, the accumulation groups of R60 to R63, and the functions of the SFU (R321, R322). -/

namespace Sys2Proof

/-- A floating format: widths of exponent and fraction, bias, and whether it is E4M3, which has no infinities (R43). -/
structure Fmt where
  ew : Nat
  fw : Nat
  bias : Nat
  e4 : Bool
deriving DecidableEq, Repr

/-- The six formats of R43. -/
def Fmt.e4m3 : Fmt := ⟨4, 3, 7, true⟩
def Fmt.e5m2 : Fmt := ⟨5, 2, 15, false⟩
def Fmt.bf16 : Fmt := ⟨8, 7, 127, false⟩
def Fmt.fp16 : Fmt := ⟨5, 10, 15, false⟩
def Fmt.fp32 : Fmt := ⟨8, 23, 127, false⟩
def Fmt.fp64 : Fmt := ⟨11, 52, 1023, false⟩

/-- An exact value: NaN with its sign and fraction bits, an infinity, or the sign and magnitude m / d × 2^e. -/
inductive Fp where
  | nan (s : Bool) (f : Nat)
  | inf (s : Bool)
  | fin (s : Bool) (m d : Nat) (e : Int)
deriving DecidableEq, Repr

namespace Fmt

/-- Number of bits below the sign. -/
def mw (f : Fmt) : Nat := f.ew + f.fw

/-- Code of the largest finite magnitude. -/
def maxCode (f : Fmt) : Nat := if f.e4 then 0x7E else (2 ^ f.ew - 1) * 2 ^ f.fw - 1

/-- Code of the sign. -/
def signCode (f : Fmt) (s : Bool) : Nat := if s then 2 ^ f.mw else 0

/-- Quiet NaN without payload (R50). -/
def qnan (f : Fmt) (s : Bool) : Nat :=
  f.signCode s + (if f.e4 then 0x7F else (2 ^ f.ew - 1) * 2 ^ f.fw + 2 ^ (f.fw - 1))

/-- Infinity; for E4M3 the largest finite value (R50). -/
def infCode (f : Fmt) (s : Bool) : Nat := f.signCode s + (if f.e4 then 0x7E else (2 ^ f.ew - 1) * 2 ^ f.fw)

/-- The value that a code encodes (R43, R44). -/
def decode (f : Fmt) (b : Nat) : Fp :=
  let s := b / 2 ^ f.mw % 2 = 1
  let e := b / 2 ^ f.fw % 2 ^ f.ew
  let fr := b % 2 ^ f.fw
  if f.e4 ∧ e = 15 ∧ fr = 7 then .nan s fr
  else if !f.e4 ∧ e = 2 ^ f.ew - 1 then (if fr = 0 then .inf s else .nan s fr)
  else if e = 0 then .fin s fr 1 (1 - (f.bias : Int) - f.fw)
  else .fin s (2 ^ f.fw + fr) 1 ((e : Int) - f.bias - f.fw)

end Fmt

/-- m × 2^k as a fraction numerator and denominator factor. -/
def shiftFrac (m d : Nat) (k : Int) : Nat × Nat :=
  match k with
  | .ofNat n => (m * 2 ^ n, d)
  | .negSucc n => (m, d * 2 ^ (n + 1))

/-- floor(log2(m / d × 2^e)) for m, d positive. -/
def floorLog2 (m d : Nat) (e : Int) : Int :=
  let k : Int := (Nat.log2 m : Int) - Nat.log2 d
  let (n, q) := shiftFrac m d (-k)
  (if q ≤ n then k else k - 1) + e

/-- Whether the magnitude n + r / d goes up to n + 1 (R48). -/
def roundUp (md : Rm) (neg : Bool) (w : BitVec 16) (n r d : Nat) : Bool :=
  if r = 0 then false
  else
    match md with
    | .ne => decide (d < 2 * r) || (decide (2 * r = d) && decide (n % 2 = 1))
    | .rz => false
    | .rp => !neg
    | .rm => neg
    | .rs =>
      let t := r * 65536 / d
      decide (w.toNat < t) || (decide (t = w.toNat) && decide (r * 65536 % d ≠ 0))

/-- A rounded magnitude beyond the largest finite value (R49). -/
def Fmt.overflow (f : Fmt) (md : Rm) (s : Bool) : Nat :=
  let max := f.signCode s + f.maxCode
  if f.e4 then max
  else
    match md with
    | .ne => f.infCode s
    | .rs => f.infCode s
    | .rz => max
    | .rp => if s then max else f.infCode s
    | .rm => if s then f.infCode s else max

/-- Round an exact value into a floating format (R48 to R50). -/
def Fmt.round (f : Fmt) (md : Rm) (w : BitVec 16) : Fp → Nat
  | .nan s _ => f.qnan s
  | .inf s => f.infCode s
  | .fin s m d e =>
    if m = 0 then f.signCode s
    else
      let emin : Int := 1 - (f.bias : Int)
      let g := max (floorLog2 m d e) emin
      let (n, q) := shiftFrac m d (e - g + f.fw)
      let k := n / q + (if roundUp md s w (n / q) (n % q) q then 1 else 0)
      let code := ((g + f.bias - 1).toNat) * 2 ^ f.fw + k
      if f.maxCode < code then f.overflow md s else f.signCode s + code

/-- Round an exact value to an integer of [lo, hi] (R48 to R50). -/
def roundInt (lo hi : Int) (md : Rm) (w : BitVec 16) : Fp → Int
  | .nan _ _ => 0
  | .inf s => if s then lo else hi
  | .fin s m d e =>
    let (n, q) := shiftFrac m d e
    let k : Int := (n / q + (if roundUp md s w (n / q) (n % q) q then 1 else 0) : Nat)
    let v := if s then -k else k
    if v < lo then lo else if hi < v then hi else v

/-- The ranges of R45 and R253. -/
def toInt8 (md : Rm) (w : BitVec 16) (x : Fp) : Int := roundInt (-128) 127 md w x
def toInt32 (md : Rm) (w : BitVec 16) (x : Fp) : Int := roundInt (-2147483648) 2147483647 md w x
def toInt64 (md : Rm) (w : BitVec 16) (x : Fp) : Int := roundInt (-9223372036854775808) 9223372036854775807 md w x
def toUInt64 (md : Rm) (w : BitVec 16) (x : Fp) : Int := roundInt 0 18446744073709551615 md w x

/-- A NaN carried into a wider format: left-aligned fraction, quiet bit set; E4M3 carries none (R54, R253). -/
def nanWiden (src dst : Fmt) (s : Bool) (fr : Nat) : Nat :=
  let top := 2 ^ (dst.fw - 1)
  let p := if src.e4 then 0 else fr * 2 ^ (dst.fw - src.fw)
  dst.signCode s + (2 ^ dst.ew - 1) * 2 ^ dst.fw + (if p / top % 2 = 1 then p else p + top)

/-- An exact conversion to a wider format. -/
def widen (src dst : Fmt) (b : Nat) : Nat :=
  match src.decode b with
  | .nan s f => nanWiden src dst s f
  | x => dst.round .ne 0 x

namespace Fp

/-- Sign. -/
def sign : Fp → Bool
  | .nan s _ => s
  | .inf s => s
  | .fin s _ _ _ => s

/-- NaN. -/
def isNan : Fp → Bool
  | .nan _ _ => true
  | _ => false

/-- Infinite. -/
def isInf : Fp → Bool
  | .inf _ => true
  | _ => false

/-- Zero. -/
def isZero : Fp → Bool
  | .fin _ m _ _ => decide (m = 0)
  | _ => false

/-- The sign inverted. -/
def neg : Fp → Fp
  | .nan s f => .nan (!s) f
  | .inf s => .inf (!s)
  | .fin s m d e => .fin (!s) m d e

/-- The canonical NaN of arithmetic (R62). -/
def cnan : Fp := .nan false 0

/-- An integer. -/
def ofInt (i : Int) : Fp := .fin (decide (i < 0)) i.natAbs 1 0

/-- Exact signed numerator over the common denominator: value × d × 2^(−k), for k at most e. -/
def scaled (m : Nat) (s : Bool) (e k : Int) : Int :=
  let v : Int := (m * 2 ^ (e - k).toNat : Nat)
  if s then -v else v

/-- Exact sum; an exact zero sum takes the sign that R249 gives it. -/
def add (md : Rm) (x y : Fp) : Fp :=
  match x, y with
  | .nan _ _, _ => cnan
  | _, .nan _ _ => cnan
  | .inf a, .inf b => if a = b then .inf a else cnan
  | .inf a, _ => .inf a
  | _, .inf b => .inf b
  | .fin a m d e, .fin b n q f =>
    if m = 0 ∧ n = 0 then .fin (if a = b then a else md == .rm) 0 1 0
    else
      let k := min e f
      let v := scaled (m * q) a e k + scaled (n * d) b f k
      if v = 0 then .fin (md == .rm) 0 1 0 else .fin (decide (v < 0)) v.natAbs (d * q) k

/-- Exact product. -/
def mul (x y : Fp) : Fp :=
  match x, y with
  | .nan _ _, _ => cnan
  | _, .nan _ _ => cnan
  | .inf a, .inf b => .inf (a != b)
  | .inf a, .fin b n _ _ => if n = 0 then cnan else .inf (a != b)
  | .fin a m _ _, .inf b => if m = 0 then cnan else .inf (a != b)
  | .fin a m d e, .fin b n q f => .fin (a != b) (m * n) (d * q) (e + f)

/-- Exact quotient, signs by exclusive or (R250). -/
def div (x y : Fp) : Fp :=
  match x, y with
  | .nan _ _, _ => cnan
  | _, .nan _ _ => cnan
  | .inf _, .inf _ => cnan
  | .inf a, .fin b _ _ _ => .inf (a != b)
  | .fin a _ _ _, .inf b => .fin (a != b) 0 1 0
  | .fin a m d e, .fin b n q f =>
    if n = 0 then (if m = 0 then cnan else .inf (a != b)) else .fin (a != b) (m * q) (d * n) (e - f)

end Fp

/-- Integer square root by bits. -/
def isqrtGo : Nat → Nat → Nat → Nat
  | 0, _, r => r
  | k + 1, n, r => isqrtGo k n (if (r + 2 ^ k) * (r + 2 ^ k) ≤ n then r + 2 ^ k else r)

/-- Integer square root. -/
def isqrt (n : Nat) : Nat := isqrtGo (Nat.log2 n / 2 + 1) n 0

namespace Fp

/-- The square root to far more bits than any format has, with a last bit that is set when bits are lost, so that
rounding it once rounds the exact root (R250). -/
def sqrtMag (m d : Nat) (e : Int) : Fp :=
  let odd : Nat := (e % 2).toNat
  let n := m * 2 ^ (512 + odd)
  let r := isqrt (n / d)
  let exact := n % d = 0 ∧ r * r = n / d
  .fin false (2 * r + if exact then 0 else 1) 1 ((e - odd) / 2 - 257)

/-- Square root. -/
def sqrt : Fp → Fp
  | .nan _ _ => cnan
  | .inf s => if s then cnan else .inf false
  | .fin s m d e => if m = 0 then .fin s 0 1 0 else if s then cnan else sqrtMag m d e

/-- Exact order of two values that are not NaN; −0 equals +0 (R252). -/
def lt (x y : Fp) : Bool :=
  match x, y with
  | .nan _ _, _ => false
  | _, .nan _ _ => false
  | .inf a, .inf b => a && !b
  | .inf a, _ => a
  | _, .inf b => !b
  | .fin a m d e, .fin b n q f =>
    let k := min e f
    decide (scaled (m * q) a e k < scaled (n * d) b f k)

/-- Equality of values (R252). -/
def eq (x y : Fp) : Bool := !x.isNan && !y.isNan && !lt x y && !lt y x

/-- Less or equal. -/
def le (x y : Fp) : Bool := !x.isNan && !y.isNan && !lt y x

/-- Unordered. -/
def un (x y : Fp) : Bool := x.isNan || y.isNan

end Fp

/-- `fmin` of R140 on codes: −0 counts as less than +0; a NaN yields the other operand. -/
def Fmt.fmin (f : Fmt) (a b : Nat) : Nat :=
  let x := f.decode a
  let y := f.decode b
  if x.isNan then (if y.isNan then f.qnan false else b)
  else if y.isNan then a
  else if x.lt y || (x.isZero && y.isZero && x.sign) then a else b

/-- `fmax` of R140 on codes. -/
def Fmt.fmax (f : Fmt) (a b : Nat) : Nat :=
  let x := f.decode a
  let y := f.decode b
  if x.isNan then (if y.isNan then f.qnan false else b)
  else if y.isNan then a
  else if y.lt x || (x.isZero && y.isZero && !x.sign) then a else b

/-- `fclass` (R252): the number of the one bit set. -/
def Fmt.fclass (f : Fmt) (b : Nat) : Nat :=
  let normal := decide (2 ^ f.fw ≤ b % 2 ^ f.mw)
  match f.decode b with
  | .inf s => if s then 0 else 7
  | .nan _ fr => if fr / 2 ^ (f.fw - 1) % 2 = 1 then 9 else 8
  | .fin s m _ _ => if m = 0 then (if s then 3 else 4) else if normal then (if s then 1 else 6) else if s then 2 else 5

/-- Rounded sum of two codes, to nearest even unless stated (R140, R249). -/
def Fmt.fadd (f : Fmt) (md : Rm) (w : BitVec 16) (a b : Nat) : Nat :=
  f.round md w (Fp.add md (f.decode a) (f.decode b))

/-- Rounded fused product and sum (R251): (−1)^np × a × b + (−1)^nc × c. -/
def Fmt.fma (f : Fmt) (md : Rm) (np nc : Bool) (a b c : Nat) : Nat :=
  let p := Fp.mul (f.decode a) (f.decode b)
  let z := f.decode c
  f.round md 0 (Fp.add md (if np ∧ !p.isNan then p.neg else p) (if nc ∧ !z.isNan then z.neg else z))

/-! ### Accumulation groups (R60 to R63) -/

/-- A term cut to the window of 60 bits below 2^(E + 1), as a multiple of 2^(E − 59) (R61). -/
def Fp.window (E : Int) : Fp → Int
  | .fin s m d e =>
    let (n, q) := shiftFrac m d (e - (E - 59))
    let v : Int := (n / q : Nat)
    if s then -v else v
  | _ => 0

/-- floor(log2) of a finite non-zero term. -/
def Fp.expo : Fp → Option Int
  | .fin _ m d e => if m = 0 then none else some (floorLog2 m d e)
  | _ => none

/-- The result of one group from its terms (R61, R62). -/
def groupSum (f : Fmt) (ts : List Fp) : Nat :=
  if ts.any Fp.isNan then f.qnan false
  else if ts.any (fun t => t.isInf && t.sign) then
    (if ts.any (fun t => t.isInf && !t.sign) then f.qnan false else f.infCode true)
  else if ts.any Fp.isInf then f.infCode false
  else
    match (ts.filterMap Fp.expo).foldl (fun (a : Option Int) e => some (match a with | none => e | some x => max x e)) none with
    | none => f.signCode (ts.all Fp.sign)
    | some E =>
      let v := ts.foldl (fun a t => a + t.window E) 0
      if v = 0 then 0 else f.round .ne 0 (.fin (decide (v < 0)) v.natAbs 1 (E - 59))

/-- Exact sum of finite products; zero is −0 only when every term is −0 (R61). -/
def Fp.sumProducts (ps : List Fp) : Fp :=
  if ps.any Fp.isNan then Fp.cnan
  else
    ps.foldl (fun a p =>
      if a.isZero && p.isZero then .fin (a.sign && p.sign) 0 1 0
      else Fp.add .ne a p) (.fin true 0 1 0)

/-- The scaled partial sum P of an FP8 group (R61). -/
def scaledPartial (ps : List Fp) (sa sw : Fp) : Fp :=
  Fp.mul (Fp.mul (Fp.sumProducts ps) sa) sw

/-- P with the 0 × ∞ rule over all three factors at once (R61). -/
def scaledTerm (ps : List Fp) (sa sw : Fp) : Fp :=
  let q := Fp.sumProducts ps
  if q.isNan || sa.isNan || sw.isNan then Fp.cnan
  else if (q.isInf || sa.isInf || sw.isInf) && (q.isZero || sa.isZero || sw.isZero) then Fp.cnan
  else scaledPartial ps sa sw

/-- An INT8 group: exact sum, saturated once to INT32 (R63). -/
def groupInt (c : Int) (ps : List Int) : Int :=
  let v := ps.foldl (· + ·) c
  if v < -2147483648 then -2147483648 else if 2147483647 < v then 2147483647 else v

/-! ### Functions of the SFU (R321, R322)

Values are approximated in fixed point with 320 fraction bits. The exact value of each function at an FP32 argument is
either representable and handled as such, or irrational; rounding the approximation, with a last bit set, rounds the
exact value to nearest. -/

/-- Fraction bits of the fixed point. -/
def fxP : Nat := 320

/-- Series Σ x^(2k+1) / (2k+1), terms of alternating sign when `alt`, for x = 1 / n: arctangents of 1 / n. -/
def atanInv (alt : Bool) (n : Nat) : Nat → Nat → Int → Int
  | 0, _, acc => acc
  | fuel + 1, k, acc =>
    let t : Int := (2 ^ 320 / (n ^ (2 * k + 1) * (2 * k + 1)) : Nat)
    atanInv alt n fuel (k + 1) (if alt ∧ k % 2 = 1 then acc - t else acc + t)

/-- ln 2 = 2 artanh(1/3), and π = 16 arctan(1/5) − 4 arctan(1/239). -/
def fxLn2 : Int := 2 * atanInv false 3 110 0 0
def fxPi : Int := 16 * atanInv true 5 75 0 0 - 4 * atanInv true 239 25 0 0

/-- Product of two fixed-point values. -/
def fxMul (a b : Int) : Int := a * b / 2 ^ 320

/-- Taylor series of e^t: the terms t^k / k! from term number k on. -/
def fxExpGo (t : Int) : Nat → Nat → Int → Int → Int
  | 0, _, _, acc => acc
  | fuel + 1, k, term, acc => fxExpGo t fuel (k + 1) (fxMul term t / (k + 1)) (acc + term)

/-- e^t for |t| below 1. -/
def fxExpSmall (t : Int) : Int := fxExpGo t 90 0 (2 ^ 320) 0

/-- sin t for |t| at most 2: Σ (−1)^k t^(2k+1) / (2k+1)!. -/
def fxSinGo (t2 : Int) : Nat → Nat → Int → Int → Int
  | 0, _, _, acc => acc
  | fuel + 1, k, term, acc =>
    fxSinGo t2 fuel (k + 1) (-(fxMul term t2 / ((2 * k + 2) * (2 * k + 3)))) (acc + term)

/-- sin t. -/
def fxSin (t : Int) : Int := fxSinGo (fxMul t t) 50 0 t 0

/-- artanh z for |z| at most 1/3: Σ z^(2k+1) / (2k+1). -/
def fxAtanhGo (z2 : Int) : Nat → Nat → Int → Int → Int
  | 0, _, _, acc => acc
  | fuel + 1, k, p, acc => fxAtanhGo z2 fuel (k + 1) (fxMul p z2) (acc + p / (2 * k + 1))

/-- artanh z. -/
def fxAtanh (z : Int) : Int := fxAtanhGo (fxMul z z) 110 0 z 0

/-- A finite value as fixed point, cut to the range −256 to 256. -/
def fxOf (s : Bool) (m : Nat) (e : Int) : Int :=
  let (n, q) := shiftFrac m 1 (e + 320)
  let v : Int := (min (n / q) (2 ^ 328) : Nat)
  if s then -v else v

/-- A fixed-point approximation of an inexact value, × 2^k. -/
def fxVal (v : Int) (k : Int) : Fp := .fin (decide (v < 0)) (2 * v.natAbs + 1) 1 (k - 321)

/-- e^x in fixed point with its exponent: e^x = 2^n × e^r. -/
def fxExp (x : Int) : Int × Int :=
  let n := x / fxLn2
  (fxExpSmall (x - n * fxLn2), n)

/-- e^x as fixed point, for x at most 0. -/
def fxExpNeg (x : Int) : Int :=
  let (v, n) := fxExp x
  v / 2 ^ (-n).toNat

/-- Exact value, or an approximation that rounds like it, of an SFU function (R321). -/
def sfuValue (fn : SfuFn) (x : Fp) : Fp :=
  let one : Fp := .fin false 1 1 0
  let zero : Fp := .fin false 0 1 0
  match fn, x with
  | _, .nan _ _ => Fp.cnan
  | .rcp, x => Fp.div one x
  | .sqrt, x => x.sqrt
  | .rsqrt, .inf s => if s then Fp.cnan else zero
  | .rsqrt, .fin s m d e =>
    if m = 0 then .inf s else if s then Fp.cnan else Fp.sqrtMag d m (-e)
  | .exp2, .inf s => if s then zero else .inf false
  | .exp2, .fin s m _ e =>
    if m = 0 then one
    else
      let v := fxOf s m e
      let n := v / 2 ^ 320
      let r := v % 2 ^ 320
      if 128 ≤ n then .fin false 1 1 128
      else if n < -200 then .fin false 1 1 (-200)
      else if r = 0 then .fin false 1 1 n
      else fxVal (fxExpSmall (fxMul r fxLn2)) n
  | .exp, .inf s => if s then zero else .inf false
  | .exp, .fin s m _ e =>
    if m = 0 then one
    else
      let v := fxOf s m e
      if 90 * 2 ^ 320 < v then .fin false 1 1 128
      else if v < -140 * 2 ^ 320 then .fin false 1 1 (-200)
      else
        let (y, n) := fxExp v
        fxVal y n
  | .log2, .inf s => if s then Fp.cnan else .inf false
  | .log2, .fin s m _ e =>
    if m = 0 then .inf true
    else if s then Fp.cnan
    else
      let k := Nat.log2 m
      let E : Int := (k : Int) + e
      if m = 2 ^ k then Fp.ofInt E
      else
        let one : Int := (2 ^ 320 : Nat)
        let y : Int := (m * 2 ^ 320 / 2 ^ k : Nat)
        let z := (y - one) * one / (y + one)
        let l := 2 * fxAtanh z * one / fxLn2
        fxVal (E * one + l) 0
  | .sinpi, .inf _ => Fp.cnan
  | .sinpi, .fin s m _ e =>
    let (n, q) := shiftFrac m 1 e
    if n % q = 0 then .fin s 0 1 0
    else
      -- |x| mod 2 = i + f, 0 < f < 1
      let f := n % q
      let neg := if n / q % 2 = 1 then !s else s
      if 2 * f = q then .fin neg 1 1 0
      else
        let f' := if q < 2 * f then q - f else f
        let y := fxMul ((f' * 2 ^ 320 / q : Nat) : Int) fxPi
        match fxVal (fxSin y) 0 with
        | .fin _ m d e => .fin neg m d e
        | v => v
  | .cospi, .inf _ => Fp.cnan
  | .cospi, .fin _ m _ e =>
    -- cos(πx) = sin(π(1/2 − g)) with g = |x| mod 2 folded to 0 … 1/2
    let (n, q) := shiftFrac m 1 e
    let f := n % q
    let odd := decide (n / q % 2 = 1)
    if f = 0 then .fin odd 1 1 0
    else if 2 * f = q then zero
    else
      let neg := odd != decide (q < 2 * f)
      let f' := if q < 2 * f then q - f else f
      let y := fxMul (((q - 2 * f') * 2 ^ 319 / q : Nat) : Int) fxPi
      match fxVal (fxSin y) 0 with
      | .fin _ m d e => .fin neg m d e
      | v => v
  | .tanh, .inf s => .fin s 1 1 0
  | .tanh, .fin s m _ e =>
    if m = 0 then .fin s 0 1 0
    else
      let x := min (fxOf false m e) (64 * 2 ^ 320)
      let u := fxExpNeg (-2 * x)
      let one : Int := (2 ^ 320 : Nat)
      match fxVal ((one - u) * one / (one + u)) 0 with
      | .fin _ m d e => .fin s m d e
      | v => v
  | .sigmoid, .inf s => if s then zero else one
  | .sigmoid, .fin s m _ e =>
    if m = 0 then .fin false 1 1 (-1)
    else
      let x := min (fxOf false m e) (140 * 2 ^ 320)
      let u := fxExpNeg (-x)
      let one : Int := (2 ^ 320 : Nat)
      if s then fxVal (u * one / (one + u)) 0 else fxVal (one * one / (one + u)) 0
  | .map, x => x

/-- A scalar function on an FP32 code, rounded once to nearest even (R322). -/
def sfuFp32 (fn : SfuFn) (x : Nat) : Nat := Fmt.fp32.round .ne 0 (sfuValue fn (Fmt.fp32.decode x))

/-! ### Window conversions (R53 to R55) -/

/-- Format of a window code; RAW, INT8 and reserved codes have none. -/
def windowFmt : Nat → Option Fmt
  | 1 => some Fmt.e4m3
  | 2 => some Fmt.e5m2
  | 3 => some Fmt.bf16
  | 4 => some Fmt.fp16
  | _ => none

/-- Bytes of an element of a window code (R20); 4 stands for a RAW element of the vector unit (R318). -/
def elemBytes : Nat → Nat
  | 1 => 1
  | 2 => 1
  | 3 => 2
  | 4 => 2
  | 5 => 1
  | _ => 4

/-- The 32-bit result of a load of element bits `b` through window code `c`, with a scale when EN = 1 (R53). -/
def windowLoad (c b : Nat) (scale : Option W32) : W32 :=
  match windowFmt c with
  | none =>
    let v := (BitVec.ofNat 8 b).toInt
    match scale with
    | none => BitVec.ofInt 32 v
    | some s => BitVec.ofInt 32 (toInt32 .ne 0 (Fp.mul (Fp.ofInt v) (Fmt.fp32.decode s.toNat)))
  | some f =>
    let x := widen f Fmt.fp32 b
    match scale with
    | none => BitVec.ofNat 32 x
    | some s =>
      let p := Fp.mul (Fmt.fp32.decode x) (Fmt.fp32.decode s.toNat)
      if p.isNan then
        if (Fmt.fp32.decode x).isNan then BitVec.ofNat 32 x
        else if (Fmt.fp32.decode s.toNat).isNan then s ||| 0x400000#32
        else 0x7FC00000#32
      else BitVec.ofNat 32 (Fmt.fp32.round .ne 0 p)

/-- The quotient of R55: x / 0 takes the sign of x; a NaN quotient keeps the sign of a NaN source and is else
positive. -/
def windowQuot (x s : Fp) : Fp :=
  if x.isNan then x
  else if s.isZero && !x.isZero then .inf x.sign
  else Fp.div x s

/-- The element bits of a store of source `x` through window code `c` (R55). -/
def windowStore (c : Nat) (md : Rm) (w : BitVec 16) (x : W32) (scale : Option W32) : Nat :=
  let v := match windowFmt c with
    | none => Fp.ofInt x.toInt
    | some _ => Fmt.fp32.decode x.toNat
  let v := match scale with
    | none => v
    | some s => windowQuot v (Fmt.fp32.decode s.toNat)
  match windowFmt c with
  | none => (BitVec.ofInt 8 (toInt8 md w v)).toNat
  | some f => f.round md w v

end Sys2Proof
end

