-- ==== Sys2Proof/Machine/Operands.lean ====
section
/-! DEFINITION. Operand forms: general registers, predicates, the gang's members, lane patterns and vector operands
(R203, R239, R259, R303 to R305), and the registers that a word reads and writes (R203, R240). -/

namespace Sys2Proof.Machine

/-- What executing an instruction answers. -/
abbrev Result := Host.Outcome State Fault Refusal

/-- General register of the context in issue. -/
def State.g (s : State) (a : BitVec 5) : W64 := s.c.rg a

/-- Write a general register of the context in issue. -/
def State.gw (s : State) (d : BitVec 5) (v : W64) : State := s.modC fun c => c.wg d v

/-- Predicate of the context in issue. -/
def State.p (s : State) (n : BitVec 3) : Bool := s.c.rp n

/-- Write a predicate of the context in issue. -/
def State.pw (s : State) (n : BitVec 3) (b : Bool) : State := s.modC fun c => c.wp n b

/-- Low half of a register. -/
def lo32 (v : W64) : W32 := v.setWidth 32

/-- A 32-bit result, sign-extended (R239). -/
def sx32 (v : W32) : W64 := v.signExtend 64

/-- The random word that a rounding in mode `rm` draws (R51). -/
def State.rnd (s : State) : BitVec 16 := Config.randomWord s.tick

/-- After `n` results of a rounding instruction: stochastic mode has drawn a word for each (R51). -/
def State.drew (s : State) (md : Rm) (n : Nat) : State :=
  if md = .rs then { s with tick := s.tick + n } else s

/-! ### Gangs (R185, R259) -/

/-- The gang member at a quad position, as it stood before the bundle. -/
def State.member (s : State) (q : Nat) : Ctx :=
  match s.issue.peers[q]? with
  | some c => c
  | none => s.ctx ⟨s.cur.site, quadBase s.cur.core + q, s.cur.ctx⟩

/-- The context whose control registers count: the leader in a gang (R259). -/
def State.ctl (s : State) : Ctx := if s.c.gang then s.member 0 else s.c

/-- The context in issue follows a leader: transfers leave its own registers alone (R259). -/
def State.follows (s : State) : Bool := s.c.gang && decide (qpos s.cur ≠ 0)

/-! ### Vector operands (R303 to R305) -/

/-- Lane `i` of a vector register's contents; 0 beyond them. -/
def lane (l : List W32) (i : Nat) : W32 := l.getD i 0

/-- Mask bit `i`. -/
def mbit (l : List Bool) (i : Nat) : Bool := l.getD i false

/-- Whether lane `i` is active under MK (R304). -/
def Ctx.active (c : Ctx) (k : BitVec 2) (i : Nat) : Bool := k = 0 || mbit (c.rm k) i

/-- The lane of VT that result lane `i` reads (R305). -/
def lpLane (lp : Lp) (pat : W64) (i : Nat) : Nat :=
  let j := i % 32
  let b := i - j
  match lp with
  | .none => i
  | .rot => b + (j + bits pat 0 5) % 32
  | .rev => b + 31 - j
  | .w8 => b + 8 * (j / 8) + bits pat (10 + 3 * (j % 8)) 3
  | .bc => b + bits pat 5 5

/-- The checks of a vector instruction: a gang offset outside a gang is illegal (R185), a claim of 0 or a member with
another claim raises 0x0D (R190, R303). Answers the cause, if any. -/
def State.vcheck (s : State) (g : BitVec 2) : Option Nat :=
  if g ≠ 0 ∧ !s.c.gang then some 0x02
  else if s.c.claim = 0 then some 0x0D
  else if g ≠ 0 ∧ (s.member ((qpos s.cur + g.toNat) % 4)).claim ≠ s.c.claim then some 0x0D
  else none

/-- The source VT after gang offset and lane pattern. -/
def State.vt (s : State) (t : BitVec 4) (lp : Lp) (g : BitVec 2) : List W32 :=
  let src := if g = 0 then s.c.rv t else (s.member ((qpos s.cur + g.toNat) % 4)).rv t
  (List.range s.c.vl).map fun i => lane src (lpLane lp s.c.lanepat i)

/-- A vector instruction behind its checks. -/
def State.vguard (s : State) (g : BitVec 2) (f : State) : Result :=
  match s.vcheck g with
  | some 0x02 => .next s.illegal
  | some code => .next (s.trap code 0)
  | none => .next f

/-- Write the active lanes of a vector register; `f` gives lane `i` (R304). -/
def State.vw (s : State) (v : BitVec 4) (k : BitVec 2) (f : Nat → W32) : State :=
  s.modC fun c => c.wv v ((List.range c.vl).map fun i => if c.active k i then f i else lane (c.rv v) i)

/-- Write the active bits of a mask. -/
def State.mw (s : State) (d k : BitVec 2) (f : Nat → Bool) : State :=
  s.modC fun c => c.wm d ((List.range c.vl).map fun i => if c.active k i then f i else mbit (c.rm d) i)

/-- FP64 element `j` of a vector register's contents (R303). -/
def delem (l : List W32) (j : Nat) : Nat := (lane l (2 * j)).toNat + 4294967296 * (lane l (2 * j + 1)).toNat

/-- Write the active FP64 elements of a vector register; mask bit 2j governs element j. -/
def State.vwd (s : State) (v : BitVec 4) (k : BitVec 2) (f : Nat → Nat) : State :=
  s.modC fun c => c.wv v ((List.range c.vl).map fun i =>
    if c.active k (i / 2 * 2) then BitVec.ofNat 32 (f (i / 2) / 2 ^ (32 * (i % 2))) else lane (c.rv v) i)

/-- General register named by bit and field (R314). -/
def gnum (h : BitVec 1) (f : BitVec 4) : BitVec 5 := h ++ f

/-! ### Registers read and written (R203, R240) -/

/-- A set of registers: g, p, v and m by bits, ja0, ja1 and lr as bits 0 to 2 of `j`. -/
structure RegSet where
  g : BitVec 32
  p : BitVec 8
  v : BitVec 16
  m : BitVec 4
  j : BitVec 3
deriving DecidableEq, Repr

/-- No register. -/
def RegSet.empty : RegSet := ⟨0, 0, 0, 0, 0⟩

/-- Union. -/
def RegSet.union (a b : RegSet) : RegSet := ⟨a.g ||| b.g, a.p ||| b.p, a.v ||| b.v, a.m ||| b.m, a.j ||| b.j⟩

/-- Whether two sets share a register. -/
def RegSet.meets (a b : RegSet) : Bool :=
  a.g &&& b.g != 0 || a.p &&& b.p != 0 || a.v &&& b.v != 0 || a.m &&& b.m != 0 || a.j &&& b.j != 0

/-- g registers; g0 never counts. -/
def rG (l : List (BitVec 5)) : RegSet :=
  { RegSet.empty with g := (l.foldl (fun (a : BitVec 32) r => a ||| (1#32 <<< r.toNat)) 0) &&& ~~~1#32 }

/-- p registers; p0 never counts. -/
def rP (l : List (BitVec 3)) : RegSet :=
  { RegSet.empty with p := (l.foldl (fun (a : BitVec 8) r => a ||| (1#8 <<< r.toNat)) 0) &&& ~~~1#8 }

/-- v registers. -/
def rV (l : List (BitVec 4)) : RegSet :=
  { RegSet.empty with v := l.foldl (fun (a : BitVec 16) r => a ||| (1#16 <<< r.toNat)) 0 }

/-- m registers. -/
def rM (l : List (BitVec 2)) : RegSet :=
  { RegSet.empty with m := l.foldl (fun (a : BitVec 4) r => a ||| (1#4 <<< r.toNat)) 0 }

/-- The governing mask of MK; MK = 0 names none. -/
def rK (k : BitVec 2) : RegSet := if k = 0 then RegSet.empty else rM [k]

/-- ja0, ja1, lr. -/
def rJ (b : BitVec 3) : RegSet := { RegSet.empty with j := b }

/-- The registers whose reply is outstanding (R376). -/
def Pend.regs (p : Pend) : RegSet := ⟨p.g, p.p, p.v, p.m, 0⟩

end Sys2Proof.Machine
end

