-- ==== Sys2Proof/Machine/Address.lean ====
section
/-! DEFINITION. Address, immediate and coordinate instructions (R254 to R256, R27, R28). -/

namespace Sys2Proof.Machine

/-- Fields of a core name (R27). -/
def nDie (n : W64) : Nat := bits n 0 6
def nRect (n : W64) : Nat := bits n 6 4
def nRow (n : W64) : Nat := bits n 10 4
def nCol (n : W64) : Nat := bits n 14 4

/-- Height − 1 and width − 1 of a rectangle (R24). -/
def hm1 (e : W64) : Nat := bits e 8 4
def wm1 (e : W64) : Nat := bits e 12 4

/-- The rectangle that a name names, on the issuing die. -/
def State.nameRect (s : State) (n : W64) : W64 := s.rect s.cur.site (nRect n)

/-- A source name is valid (R255). -/
def State.nameOk (s : State) (n : W64) : Bool :=
  let e := s.nameRect n
  decide (nDie n = s.cur.site) && bit e 16 && decide (nRow n ≤ hm1 e) && decide (nCol n ≤ wm1 e)

/-- Physical core index of offsets (r, c) of a rectangle. -/
def pcoreAt (e : W64) (r c : Nat) : Nat := 16 * (bits e 0 4 + r) + bits e 4 4 + c

/-- The name at offsets (r, c) of the rectangle of `n` (R255). -/
def State.nameAt (s : State) (n : W64) (r c : Nat) : W64 :=
  let p := pcoreAt (s.nameRect n) r c
  BitVec.ofNat 64 (nDie n + nRect n * 64 + r * 1024 + c * 16384 +
    (if s.slow (nDie n) p = 0 then 0 else 262144) + p * 524288)

/-- An instruction with one source name. -/
def State.named (s : State) (n : W64) (f : State) : Result :=
  if s.nameOk n then .next f else .next (s.trap 0x0C n)

/-- Row and column offsets of `cstep` and `cwrap` as integers. -/
def stepRow (n b : W64) : Int := (nRow n : Int) + (BitVec.ofNat 8 (bits b 0 8)).toInt
def stepCol (n b : W64) : Int := (nCol n : Int) + (BitVec.ofNat 8 (bits b 8 8)).toInt

/-- TVAL of a `cstep` that leaves the rectangle (R256). -/
def stepTval (n : W64) (r c : Int) : W64 :=
  BitVec.ofNat 64 (nDie n + nRect n * 64 + (r % 16).toNat * 1024 + (c % 16).toNat * 16384 +
    (r % 256).toNat * 4294967296 + (c % 256).toNat * 1099511627776)

/-- `adda` (R254): ga plus an immediate. -/
def execAdda (d : BitVec 5) (a : BitVec 5) (i : BitVec 14) (s : State) : Result :=
  .next (s.gw d (s.g a + i.signExtend 64))

/-- `movi` (R254): a sign-extended immediate. -/
def execMovi (d : BitVec 5) (i : BitVec 19) (s : State) : Result :=
  .next (s.gw d (i.signExtend 64))

/-- `movk` (R254): halfword c of gd replaced. -/
def execMovk (d : BitVec 5) (c : BitVec 2) (v : BitVec 16) (s : State) : Result :=
  .next (s.gw d (putBits (s.g d) (16 * c.toNat) 16 v.toNat))

/-- `cstep` (R256): a step within the rectangle, 0x0C outside it. -/
def execCstep (d : BitVec 5) (a : BitVec 5) (b : BitVec 5) (s : State) : Result :=
  let n := s.g a
  let r := stepRow n (s.g b)
  let c := stepCol n (s.g b)
  if !s.nameOk n then .next (s.trap 0x0C n)
  else if 0 ≤ r ∧ r ≤ hm1 (s.nameRect n) ∧ 0 ≤ c ∧ c ≤ wm1 (s.nameRect n) then
    .next (s.gw d (s.nameAt n r.toNat c.toNat))
  else .next (s.trap 0x0C (stepTval n r c))

/-- `cwrap` (R256): a step that wraps within the rectangle. -/
def execCwrap (d : BitVec 5) (a : BitVec 5) (b : BitVec 5) (s : State) : Result :=
  let n := s.g a
  s.named n (s.gw d (s.nameAt n (stepRow n (s.g b) % (hm1 (s.nameRect n) + 1)).toNat
    (stepCol n (s.g b) % (wm1 (s.nameRect n) + 1)).toNat))

/-- `cdiff` (R256): the differences of two names of one rectangle. -/
def execCdiff (d : BitVec 5) (a : BitVec 5) (b : BitVec 5) (s : State) : Result :=
  let m := s.g a
  let n := s.g b
  if !s.nameOk m then .next (s.trap 0x0C m)
  else if !s.nameOk n ∨ nDie m ≠ nDie n ∨ nRect m ≠ nRect n then .next (s.trap 0x0C n)
  else .next (s.gw d (BitVec.ofNat 64 ((nRow n + 256 - nRow m) % 256 + (nCol n + 256 - nCol m) % 256 * 256)))

/-- `crect` (R256): the RECT entry. -/
def execCrect (d : BitVec 5) (a : BitVec 5) (s : State) : Result :=
  s.named (s.g a) (s.gw d (s.nameRect (s.g a)))

/-- `cidx` (R256): the linear index within the rectangle. -/
def execCidx (d : BitVec 5) (a : BitVec 5) (s : State) : Result :=
  s.named (s.g a) (s.gw d (BitVec.ofNat 64 (nRow (s.g a) * (wm1 (s.nameRect (s.g a)) + 1) + nCol (s.g a))))

/-- `cclus` (R256): the cluster core index of a core of the issuing cluster. -/
def execCclus (d : BitVec 5) (a : BitVec 5) (s : State) : Result :=
  let n := s.g a
  let p := pcoreAt (s.nameRect n) (nRow n) (nCol n)
  if s.nameOk n ∧ clusterOf p = clusterOf s.cur.core then .next (s.gw d (BitVec.ofNat 64 (clusterIdx p)))
  else .next (s.trap 0x0C n)

end Sys2Proof.Machine
end

