-- ==== Sys2Proof/Machine/Xlate.lean ====
section
/-! DEFINITION. Addresses: apertures, translation, the walk, and the checks that a memory instruction makes
(R8 to R14, R18 to R21, R31 to R41, R73, R275). -/

namespace Sys2Proof.Machine

/-! ### Leaf fields (R32) -/

/-- Fields of a page-table leaf. -/
def leafW (e : W64) : Bool := bit e 2
def leafX (e : W64) : Bool := bit e 3
def leafS (e : W64) : Bool := bit e 4
def leafA (e : W64) : Bool := bit e 5
def leafD (e : W64) : Bool := bit e 6
def leafG (e : W64) : Bool := bit e 7
def leafMT (e : W64) : Nat := bits e 10 2
def leafFmt (e : W64) : Nat := bits e 52 3
def leafXO (e : W64) : Bool := bit e 55
def leafHome (e : W64) : Nat := bits e 56 6

/-- First byte of the frame of a leaf of the given page size. -/
def leafFrame (e : W64) (size : Nat) : Nat := bits e 12 40 * 4096 / size * size

/-! ### Where an address leads -/

/-- What an address names: local memory of a core of the cluster with its window code, a self engine register, or a
translated address. -/
inductive Target where
  | loc (core off code : Nat)
  | engine (off : Nat)
  | mem (pa : Nat) (leaf : W64) (size : Nat)
deriving DecidableEq, Repr

/-- Outcome of the address rows: a target, a cause with its TVAL, a translation that no TLB holds, or a target of a write whose
leaf must have D set first (R36). -/
inductive Checked where
  | ok (t : Target)
  | cause (code : Nat) (v : W64)
  | miss
  | dirty (t : Target)
  /-- Row 4 failed with a cause: a leaf refusal, which a plain store parks on (R283). -/
  | refused (code : Nat)
deriving DecidableEq, Repr

/-- A virtual address is canonical (R8). -/
def canonical (va : W64) : Bool := va.toNat / 2 ^ 55 = 0 || va.toNat / 2 ^ 55 = 511

/-- The untranslated apertures of R9 and R10; none where the address lies in no aperture. -/
def State.aperture (s : State) (r : CtxRef) (va : W64) : Option Target :=
  let a := va.toNat
  if 0xFFFFFFFFFFC00000 ≤ a then some (.loc r.core (a % 524288) (a / 524288 % 8))
  else if 0xFFFFFFFFFF800000 ≤ a ∧ a < 0xFFFFFFFFFF810000 then some (.engine (a % 65536))
  else if 0xFFFFFFFFE0000000 ≤ a ∧ a < 0xFFFFFFFFF0000000 then
    let c := clusterOf r.core * 64 + a / 4194304 % 64
    if s.inRect r.site c then some (.loc c (a % 524288) (a / 524288 % 8)) else none
  else none

/-- The CXL port that claims a host-aperture address: the lowest valid decoder entry that covers it and whose port is
trained (R429). -/
def State.hapClaim (s : State) (pa : Nat) : Option Nat :=
  let h := pa / 4096 % 549755813888
  (List.range 16).findSome? fun i =>
    let lo := s.sreg 0 (0x1A00 + 16 * i)
    let hi := s.sreg 0 (0x1A08 + 16 * i)
    let p := bits lo 1 4
    if bit lo 0 ∧ bits lo 12 39 ≤ h ∧ h < bits hi 12 39 ∧ s.ports.getLsbD p then some p else none

/-- A physical address has a target (R14). -/
def State.hasTarget (s : State) (pa : Nat) : Bool :=
  let site := paSite pa
  match paRegion pa with
  | 0 => decide (pa / 68719476736 % 64 = 0) && decide (site < s.nSites)
  | 1 => decide (pa / 68719476736 % 64 = 0) && decide (site < s.nSites)
  | 2 => (s.windowAlias (pa % 281474976710656)).isSome
  | 3 => decide (pa / 1073741824 % 4096 = 0) && s.computeSite site && s.inRect site (pa / 524288 % 256)
  | 4 => decide (pa / 134217728 % 32768 = 0) && decide (pa / 65536 % 8 = 0) && s.computeSite site &&
      s.inRect site (pa / 524288 % 256)
  | 5 => decide (pa / 16777216 % 262144 = 0) && decide (site < s.nSites)
  | 6 => false
  | 7 => false
  | n => decide (n < 16) && (s.hapClaim pa).isSome

/-- The peer object that an address in a peer window names: module and physical address there (R431). -/
def State.peerWin (s : State) (pa : Nat) : Option (Nat × Nat) :=
  let o := pa % 281474976710656
  if paRegion pa ≠ 2 then none
  else
    (List.range 8).findSome? fun i =>
      let lo := s.sreg 0 (0x1B00 + 16 * i)
      let hi := s.sreg 0 (0x1B08 + 16 * i)
      let base := bits lo 30 18 * 1073741824
      let size := bits lo 48 8 * 1073741824
      if bit lo 0 ∧ base ≤ o ∧ o < base + size then some (bits lo 1 5, bits hi 30 22 * 1073741824 + (o - base)) else none

/-- Home site of a line (R11, R13, R34). -/
def State.homeOf (s : State) (pa : Nat) (leaf : W64) : Nat :=
  if 8 ≤ paRegion pa then leafHome leaf else paSite (s.plain pa)

/-! ### TLBs (R39) -/

/-- An entry translates an address in an ASID. -/
def TlbEntry.hits (e : TlbEntry) (asid : BitVec 16) (va : Nat) : Bool :=
  (leafG e.leaf || e.asid == asid) && decide (e.vbase ≤ va) && decide (va < e.vbase + e.size)

/-- Physical address that an entry gives. -/
def TlbEntry.pa (e : TlbEntry) (va : Nat) : Nat := leafFrame e.leaf e.size + (va - e.vbase)

/-- One of the entries of a TLB that translate an address: where several do (two differing global entries, R38), a free
choice picks the one that an access of this tick uses (log entry 13). -/
def tlbPick (pick : Nat) (l : List TlbEntry) (asid : BitVec 16) (va : Nat) : Option TlbEntry :=
  match l.filter fun e => e.hits asid va with
  | [] => none
  | [e] => some e
  | e :: f :: es => (e :: f :: es)[pick % (es.length + 2)]?

/-- The entry that translates an address for a core: its own TLB, then the die's. -/
def State.tlbFind (s : State) (site core : Nat) (asid : BitVec 16) (va : Nat) : Option TlbEntry :=
  match tlbPick (Config.choice s.tick) (s.core site core).tlb asid va with
  | some e => some e
  | none => tlbPick (Config.choice s.tick) (s.die site).tlb asid va

/-- Insert into a list of bounded length; a free choice picks the victim (log entry 10). -/
def insertCap {α : Type} (cap pick : Nat) (l : List α) (x : α) : List α :=
  if l.length < cap then l ++ [x] else l.eraseIdx (pick % l.length) ++ [x]

/-- Place of the entry that leaves a set-associative structure for a new one: `same` says which entries stand in its set,
of `ways` places; a free choice among the cold ones, among all where none is cold; none where the set has room. -/
def victimAt {α : Type} (same cold : α → Bool) (ways pick : Nat) (l : List α) : Option Nat :=
  let mine := (List.range l.length).filter fun i => (l[i]?.map same).getD false
  if mine.length < ways then none
  else
    let cs := mine.filter fun i => (l[i]?.map cold).getD false
    let cs := if cs.isEmpty then mine else cs
    cs[pick % cs.length]?

/-- A new entry of a set-associative structure, in place of the victim. -/
def insertSet {α : Type} (same cold : α → Bool) (ways pick : Nat) (l : List α) (x : α) : List α :=
  match victimAt same cold ways pick l with
  | some i => l.eraseIdx i ++ [x]
  | none => l ++ [x]

/-- Two entries of one page in one ASID. -/
def TlbEntry.same (e x : TlbEntry) : Bool := x.asid == e.asid && decide (x.vbase = e.vbase) && decide (x.size = e.size)

/-- Set of the die TLB in which an entry stands: the low ten bits of its virtual page number (R39; log entry 10). -/
def TlbEntry.set (e : TlbEntry) : Nat := e.vbase / e.size % 1024

/-- Not-recently-used replacement (R39): the new entry takes the place of one of its set that has not been used recently;
where all of a full set have, they are no longer recent (log entry 10). An entry of the same page goes. -/
def tlbInsert (same : TlbEntry → Bool) (ways pick : Nat) (l : List TlbEntry) (e : TlbEntry) : List TlbEntry :=
  let l := l.filter fun x => !e.same x
  let set := l.filter same
  let l := if ways ≤ set.length ∧ set.all (·.used) then l.map fun x => if same x then { x with used := false } else x else l
  insertSet same (fun x => !x.used) ways pick l { e with used := true }

/-- Put an entry into a core's TLB: 96 entries, fully associative. -/
def State.coreTlbPut (s : State) (site core : Nat) (e : TlbEntry) : State :=
  (s.modCore site core fun k => { k with tlb := tlbInsert (fun _ => true) 96 (Config.choice s.tick) k.tlb e }).next

/-- Put an entry into a die's TLB: 1,024 sets of 8. -/
def State.dieTlbInsert (s : State) (site : Nat) (e : TlbEntry) : State :=
  (s.modDie site fun d => { d with tlb := tlbInsert (fun x => x.set == e.set) 8 (Config.choice s.tick) d.tlb e }).next

/-- Put an entry into a core's TLB and its die's TLB. -/
def State.tlbPut (s : State) (site core : Nat) (e : TlbEntry) : State :=
  (s.coreTlbPut site core e).dieTlbInsert site e

/-- The entry of a translation has been used; a die-TLB hit refills the core's TLB (R39). -/
def State.tlbTouch (s : State) (r : CtxRef) (va : W64) : State :=
  match s.tlbFind r.site r.core (s.ctx r).asid va.toNat with
  | none => s
  | some e =>
    if (s.core r.site r.core).tlb.contains e then
      if e.used then s
      else s.modCore r.site r.core fun k => { k with tlb := k.tlb.map fun x => if x = e then { x with used := true } else x }
    else
      (s.modDie r.site fun d => { d with tlb := d.tlb.map fun x => if x = e then { x with used := true } else x }).coreTlbPut
        r.site r.core e

/-! ### The walk (R29 to R36) -/

/-- A table may lie in regions 0x0 and 0x2 only, aligned to its size, and must exist. -/
def State.tableOk (s : State) (pa size : Nat) : Bool :=
  (paRegion pa = 0 || paRegion pa = 2) && decide (pa % size = 0) && s.hasTarget pa

/-- A leaf of the level with the given page size breaks no rule of R33 and R34 but the last of R33. -/
def State.leafOk (s : State) (e : W64) (lvl size : Nat) : Bool :=
  let f := bits e 12 40 * 4096
  let reg := paRegion f
  let home := leafHome e
  decide (bits e 62 2 = 0) && decide (lvl < 3) && decide (bits e 8 2 < 2) && (lvl = 0 || bits e 8 2 = 0) &&
    decide (leafMT e ≠ 3) && decide (f % size = 0) &&
    (if reg = 0 ∨ reg = 1 then home = paSite f
     else if 8 ≤ reg then decide (home < s.nSites)
     else home = 0) &&
    !(leafXO e && (leafFmt e ≠ 0 || leafMT e = 2 || (reg ≠ 0 && reg ≠ 2)))

/-- Page size of a leaf at a level. -/
def leafSize (e : W64) (lvl : Nat) : Nat :=
  match lvl with
  | 0 => if bits e 8 2 = 1 then 65536 else 4096
  | 1 => 2097152
  | _ => 1073741824

/-- Outcome of a walk: the leaf's address, the leaf, its page size; or a cause. -/
inductive WalkEnd where
  | leaf (pa : Nat) (e : W64) (size : Nat)
  | cause (code : Nat)
deriving DecidableEq, Repr

/-- Bits of a virtual address that select the entry of a table at a level, with those of the levels above. -/
def walkTag (va lvl : Nat) : Nat := va % 2 ^ 56 / 2 ^ (12 + 9 * lvl)

/-- Levels from `lvl` down; `tbl` is the table's address. -/
def State.walkFrom (s : State) (va : Nat) : Nat → Nat → Nat → WalkEnd
  | 0, _, _ => .cause 0x09
  | fuel + 1, lvl, tbl =>
    let idx := if lvl = 4 then va / 2 ^ 48 % 256 else va / 2 ^ (12 + 9 * lvl) % 512
    let pa := tbl + 8 * idx
    if !s.tableOk tbl (if lvl = 4 then 2048 else 4096) then .cause 0x09
    else
      let e := s.dword pa
      if !bit e 0 then .cause 0x08
      else if bit e 1 then
        let size := leafSize e lvl
        if !s.leafOk e lvl size then .cause 0x09
        else if paRegion (bits e 12 40 * 4096) = 3 ∧ bits e 27 3 ≠ leafFmt e then .cause 0x0E
        else if !s.hasTarget (leafFrame e size + va % size) && (s.peerWin (leafFrame e size + va % size)).isNone then .cause 0x09
        else .leaf pa e size
      else if lvl = 0 ∨ bits e 62 2 ≠ 0 then .cause 0x09
      else State.walkFrom s va fuel (lvl - 1) (bits e 12 40 * 4096)

/-- The table that a hub's page-walk cache gives for a walk, the lowest level first: with its level (R40). -/
def State.walkHit (s : State) (site : Nat) (asid : BitVec 16) (va : Nat) : Option (Nat × Nat) :=
  [1, 2, 3, 4].findSome? fun lvl =>
    ((s.hub (s.phys site)).pwc.find? fun p => p.asid == asid && p.lvl == lvl && p.tag == walkTag va lvl).map
      fun p => (lvl - 1, p.table)

/-- A walk of a virtual address in an ASID by the walkers of a site's hub: from the table that the hub's page-walk cache
gives, else from the root. The ASID table's entry is read wherever ASIDTBASE puts it, when that has a target (R29; log entry
75). -/
def State.walkVa (s : State) (site : Nat) (asid : BitVec 16) (va : Nat) : WalkEnd :=
  let a := s.asidDw asid.toNat 0
  if !s.hasTarget (s.asidPa asid.toNat) then .cause 0x09
  else if !bit a 0 then .cause 0x09
  else if bits a 1 11 ≠ 0 ∨ bits a 52 12 ≠ 0 ∨ bits (s.asidDw asid.toNat 1) 12 52 ≠ 0 ∨ s.asidDw asid.toNat 3 ≠ 0 then .cause 0x09
  else
    match s.walkHit site asid va with
    | some (lvl, tbl) => s.walkFrom va (lvl + 1) lvl tbl
    | none => s.walkFrom va 5 4 (bits a 12 40 * 4096)

/-- Addresses of the entries that a walk reads from a level down. -/
def State.walkReads (s : State) (va : Nat) : Nat → Nat → Nat → List Nat
  | 0, _, _ => []
  | fuel + 1, lvl, tbl =>
    let pa := tbl + 8 * (if lvl = 4 then va / 2 ^ 48 % 256 else va / 2 ^ (12 + 9 * lvl) % 512)
    if !s.tableOk tbl (if lvl = 4 then 2048 else 4096) then []
    else
      let e := s.dword pa
      if lvl = 0 ∨ !bit e 0 ∨ bit e 1 then [pa] else pa :: State.walkReads s va fuel (lvl - 1) (bits e 12 40 * 4096)

/-- The valid pointer entries that a walk reads from a level down, with the tables that they point to. -/
def State.walkPtrs (s : State) (asid : BitVec 16) (va : Nat) : Nat → Nat → Nat → List WalkPtr
  | 0, _, _ => []
  | fuel + 1, lvl, tbl =>
    let idx := if lvl = 4 then va / 2 ^ 48 % 256 else va / 2 ^ (12 + 9 * lvl) % 512
    let e := s.dword (tbl + 8 * idx)
    if lvl = 0 ∨ !bit e 0 ∨ bit e 1 ∨ bits e 62 2 ≠ 0 ∨ !s.tableOk tbl (if lvl = 4 then 2048 else 4096) then []
    else ⟨asid, lvl, walkTag va lvl, bits e 12 40 * 4096⟩ :: State.walkPtrs s asid va fuel (lvl - 1) (bits e 12 40 * 4096)

/-- The pointer entries of a walk enter the hub's page-walk cache: 512 entries, a free choice picks the victims (R40; log
entry 10). -/
def State.keepPtrs (s : State) (site : Nat) (asid : BitVec 16) (va : Nat) : State :=
  let l := match s.walkHit site asid va with
    | some (lvl, tbl) => s.walkPtrs asid va (lvl + 1) lvl tbl
    | none => s.walkPtrs asid va 5 4 (bits (s.asidDw asid.toNat 0) 12 40 * 4096)
  if l.isEmpty then s
  else (s.modHub (s.phys site) fun h => { h with pwc := l.foldl (fun c p => insertCap 512 (Config.choice s.tick) c p) h.pwc }).next

/-- A miss of a context's core for a page: it joins the miss entry of the pair, takes a new one, or waits to be presented
again (R40); `waits` when the context itself is parked on it. -/
def State.askWalk (s : State) (r : CtxRef) (asid : BitVec 16) (va : W64) (setD waits : Bool) : State :=
  let vpn := va.toNat / 4096
  let ws := if waits then [r] else []
  s.modDie r.site fun d =>
    if d.miss.any fun m => m.asid == asid && m.vpn == vpn then
      { d with miss := d.miss.map fun m =>
          if m.asid == asid && m.vpn == vpn then { m with waiters := m.waiters ++ ws, setD := m.setD || setD } else m }
    else if d.miss.length < 256 then { d with miss := d.miss ++ [⟨asid, vpn, ws, setD⟩] }
    else { d with missWait := d.missWait ++ [⟨r, asid, vpn, setD, waits⟩] }

/-! ### Checks of R275 -/

/-- What a memory instruction asks of an address. -/
structure Access where
  /-- Bytes, and the required alignment. -/
  size : Nat
  align : Nat
  write : Bool
  /-- `ld.d` and `st.d` may reach the self engine registers. -/
  engine : Bool
  /-- Widening, narrowing or vector access: converts through a window. -/
  window : Bool
  /-- Atomic or reduction. -/
  atomic : Bool
  /-- Push or pop. -/
  exch : Bool
  /-- Synchronisation object, or word of `waita`, that may lie on no device page. -/
  noDevice : Bool
  /-- A page with XO = 1 is refused (R106). -/
  noXO : Bool
  /-- Untranslated addresses are refused (R159, R288). -/
  noLocal : Bool
deriving DecidableEq, Repr

/-- A plain load or store of a size. -/
def Access.plain (size : Nat) (write : Bool) : Access :=
  ⟨size, size, write, size == 8, false, false, false, false, false, false⟩

/-- Bytes [off, off + n) of local memory lie in one region that a context holds, for a write exclusively (R73). -/
def Core.covers (k : Core) (h : Holder) (write : Bool) (off n : Nat) : Bool :=
  k.regions.any fun e =>
    decide (64 * e.2.base ≤ off) && decide (off + n ≤ 64 * e.2.base + 64 * e.2.len) &&
      (match e.2.state with
        | .exclusive o => o = h
        | .shared hs => !write && hs.contains h
        | _ => false)

/-- Rows 5 to 7 for local memory: layout and holding, of a context in its mode. -/
def State.localCheck (s : State) (r : CtxRef) (core off n code : Nat) (write : Bool) : Option Nat :=
  let c := s.ctx r
  let special := off < 0x16000
  if 5 < code then some 0x0E
  else if code ≠ 0 ∧ special then some 0x0E
  else if c.sys then none
  else if special then
    (if !write ∧ core = r.core ∧ 0x800 * r.ctx ≤ off ∧ off + n ≤ 0x800 * r.ctx + 0x800 then none else some 0x09)
  else if (s.core r.site core).covers (holderOf r) write off n then none
  else some 0x0A

/-- The leaf is for system mode: S = 1, or a frame in regions 0x3 to 0x7 (R19). -/
def leafSystem (leaf : W64) (pa : Nat) : Bool :=
  leafS leaf || (decide (3 ≤ paRegion pa) && decide (paRegion pa ≤ 7))

/-- Leaf refusals by W, XO and MT (R37, R106, R142, R159). -/
def leafRefuses (sys : Bool) (a : Access) (leaf : W64) : Bool :=
  (a.write && !a.exch && !leafW leaf) ||
    (a.write && !a.exch && leafXO leaf && !sys) ||
    (a.exch && !leafXO leaf) ||
    ((a.atomic || a.noDevice || a.exch) && decide (leafMT leaf = 2)) ||
    (a.noXO && leafXO leaf)

/-- An access through a page of a window other than RAW whose frame is a constant window or a save area (R21). -/
def frameWindow (leaf : W64) (pa : Nat) : Bool :=
  leafFmt leaf ≠ 0 && paRegion pa == 3 && decide (pa % 524288 < 0x16000)

/-- The leaf rows, in the order of R275 for loads and stores and of R142 for atomics and exchanges, whose window row
comes before the refusals by MT, W and XO. -/
def leafCheck (sys : Bool) (a : Access) (leaf : W64) (pa : Nat) (va : W64) : Option Checked :=
  let badFmt := (leafFmt leaf ≠ 0 && !a.window) || decide (5 < leafFmt leaf) || frameWindow leaf pa
  if !sys && leafSystem leaf pa then some (.refused 0x09)
  else if (a.atomic || a.exch) && badFmt then some (.cause 0x0E va)
  else if leafRefuses sys a leaf then some (.refused 0x09)
  else if badFmt then some (.cause 0x0E va)
  else none

/-- A write through a leaf with D = 0 waits for the walk that sets it, once every other check has passed (R36, R283). -/
def needsD (a : Access) (leaf : W64) : Bool := a.write && !a.exch && !leafD leaf

/-- The rows of R275 for one address of a context: rows 2 to 7. A push or pop through a local aperture ends in the 0x09 of R159
before its alignment and window are looked at (log entry 60). -/
def State.check (s : State) (r : CtxRef) (a : Access) (va : W64) : Checked :=
  let c := s.ctx r
  if !canonical va then .cause 0x09 va
  else if bit va 55 then
    match s.aperture r va with
    | none => .cause 0x09 va
    | some (.engine off) =>
      if !a.engine then .cause 0x09 va
      else if va.toNat % a.align ≠ 0 then .cause 0x0B va
      else .ok (.engine off)
    | some (.loc core off code) =>
      if a.noLocal then .cause 0x09 va
      else if va.toNat % a.align ≠ 0 then .cause 0x0B va
      else if code ≠ 0 ∧ !a.window then .cause 0x0E va
      else
        match s.localCheck r core off a.size code a.write with
        | some cc => .cause cc va
        | none => .ok (.loc core off code)
    | some t => .ok t
  else if va.toNat % a.align ≠ 0 then .cause 0x0B va
  else
    match s.tlbFind r.site r.core c.asid va.toNat with
    | none =>
      match c.walkFault with
      | some (vpn, cc) =>
        if vpn = va.toNat / 4096 then (if cc = 0x0E then .cause cc va else .refused cc) else .miss
      | none => .miss
    | some e =>
      let pa := e.pa va.toNat
      match leafCheck c.sys a e.leaf pa va with
      | some k => k
      | none =>
        if !(s.hasTarget pa || (a.exch && (s.peerWin pa).isSome)) then .cause 0x09 va
        else if needsD a e.leaf then .dirty (.mem pa e.leaf e.size)
        else .ok (.mem pa e.leaf e.size)

/-- Window code of a target. -/
def Target.code : Target → Nat
  | .loc _ _ c => c
  | .engine _ => 0
  | .mem _ l _ => leafFmt l

end Sys2Proof.Machine
end

