-- ==== Sys2Proof/Machine/Mem.lean ====
section
/-! DEFINITION. Caches, homes and requests: L1, the remote-data cache, bindings, writes at a line's home with their undo
records, requests in flight and their replies (R78 to R89, R99 to R111, R387). -/

namespace Sys2Proof.Machine

/-! ### Lines -/

/-- Bytes of a line with some replaced, by offset. -/
def patch (data : List Byte) (bs : List (Nat × Byte)) : List Byte :=
  bs.foldl (fun l b => l.set b.1 b.2) data

/-- Mask of a line with bits set at offsets. -/
def patchMask (mask : List Bool) (bs : List (Nat × Byte)) (v : Bool) : List Bool :=
  bs.foldl (fun l b => l.set b.1 v) mask

/-- A line that L1 and the remote-data cache may hold: MT = 00, XO = 0, not the keep tier (R78, R87). -/
def cacheable (leaf : W64) (pa : Nat) : Bool :=
  decide (leafMT leaf = 0) && !leafXO leaf && (paRegion pa = 0 || paRegion pa = 2 || decide (8 ≤ paRegion pa))

/-! ### L1 and instruction caches -/

/-- The L1 copy of a line. -/
def State.l1Find (s : State) (site core line : Nat) : Option CLine :=
  (s.core site core).l1.find? fun l => l.line = line

/-- Install a line in L1: 64 sets of 4 lines (R78; log entry 10). -/
def State.l1Put (s : State) (site core line : Nat) (data : List Byte) : State :=
  (s.modCore site core fun k =>
    { k with
      l1 := insertSet (fun (l : CLine) => l.line % 64 == line % 64) (fun _ => true) 4 (Config.choice s.tick)
        (k.l1.filter fun l => l.line != line) ⟨line, data⟩ }).next

/-- A store updates the core's own copy if present (R78). -/
def State.l1Write (s : State) (site core line : Nat) (bs : List (Nat × Byte)) : State :=
  s.modCore site core fun k =>
    { k with l1 := k.l1.map fun l => if l.line = line then { l with data := patch l.data bs } else l }

/-- L2 slice of a line at its home (R83). -/
def sliceOf (line : Nat) : Nat :=
  let f (k : Nat) : BitVec 4 := BitVec.ofNat 4 (line / 2 ^ (4 * k))
  (f 0 ^^^ f 1 ^^^ f 2 ^^^ f 3 ^^^ f 4).toNat

/-- Memory controller of a line of a site's DRAM (R90). -/
def dramController (line : Nat) : Nat := (BitVec.ofNat 2 line ^^^ BitVec.ofNat 2 (line / 256)).toNat

/-- DRAM stack behind the controller (R90). -/
def dramStack (line : Nat) : Nat := dramController line / 2

/-- A line is present in its home's L2. -/
def State.inL2 (s : State) (line : Nat) : Bool := s.l2.any fun l => l.line = line

/-- Two lines of one site stand in one set of one slice: 2,048 sets of 16 lines (R82; log entry 10). -/
def L2Line.sameSet (home line : Nat) (l : L2Line) : Bool :=
  l.home == home && sliceOf l.line == sliceOf line && l.line / 16 % 2048 == line / 16 % 2048

/-- A dirty line of host memory that leaves the home's L2 goes back to the host. -/
def State.cacheBack (s : State) (v : L2Line) : State :=
  if 8 ≤ paRegion (v.line * 128) ∧ v.dirty then s.emit (.cacheBack v.line (s.bytes (v.line * 128) 128)) else s

/-- A line becomes present in its home's L2. In a full set another leaves, one that neither the host holds nor a core owns,
dirty bytes written back to DRAM; the directory forgets its sharers, whose L1 copies go with the fills still on their way there (log entry 67). Where every line
of the set is so held the new one is not kept. -/
def State.fillL2 (s : State) (line home : Nat) : State :=
  if s.inL2 line then s
  else
    let fixed (l : L2Line) : Bool := l.host || (s.ownerOf l.line).isSome
    match victimAt (L2Line.sameSet home line) (fun l => !fixed l) 16 (Config.choice s.tick) s.l2 with
    | none => { s.cacheReq line false with l2 := s.l2 ++ [⟨line, home, false, false, false⟩] }
    | some i =>
      match s.l2[i]? with
      | none => s
      | some v =>
        if fixed v then s
        else
          { (((s.l1Drop home v.line none).staleFills v.line fun q => q.who.site = home).cacheBack v).next.cacheReq line false with
            l2 := s.l2.eraseIdx i ++ [⟨line, home, false, false, false⟩] }

/-! ### Walks at the tables' homes (R36, R40, R146) -/

/-- How a walk with its A and D bits ends: the entry, a cause, or a line that the home must have back from the host first. -/
inductive WalkSet where
  | entry (e : TlbEntry)
  | cause (code : Nat)
  | wait
deriving DecidableEq, Repr

/-- Lines that a walk reads: the ASID's entry and the entries of the tables. -/
def State.walkLines (s : State) (site : Nat) (asid : BitVec 16) (va : Nat) : List Nat :=
  let l := match s.walkHit site asid va with
    | some (lvl, tbl) => s.walkReads va (lvl + 1) lvl tbl
    | none => s.walkReads va 5 4 (bits (s.asidDw asid.toNat 0) 12 40 * 4096)
  (s.asidPa asid.toNat :: l).map s.lineOf

/-- A walk that sets A in the leaf, and D for a store to a writable page, each by an OR at the entry's home (R36). -/
def State.walkSet (s : State) (site : Nat) (asid : BitVec 16) (va : Nat) (setD : Bool) : State × WalkSet :=
  match s.claimLines none (s.walkLines site asid va) with
  | (s, false) => (s, .wait)
  | (s, true) =>
    match s.walkVa site asid va with
    | .cause c => (s, .cause c)
    | .leaf pa e size =>
      let s := s.keepPtrs site asid va
      let e' := e ||| 0x20#64 ||| (if setD && leafW e then 0x40#64 else 0)
      let line := s.lineOf pa
      let s := if e' = e then s
        else s.homeWrite line (paSite (s.plain pa)) asid none (runAt (pa % 128) (toBytes 8 e'.toNat))
      (s, .entry ⟨asid, va / size * size, size, e', true⟩)

/-! ### Routes (R415 to R417) -/

/-- Numbers from `a` towards `b`, both included. -/
def span (a b : Nat) : List Nat :=
  if a ≤ b then (List.range (b - a + 1)).map (a + ·) else (List.range (a - b + 1)).map (a - ·)

/-- Switches from hub `a` to hub `b`, both included, on the Y-first network (`y`) or the X-first one. -/
def legHubs (y : Bool) (a b : Nat) : List Nat :=
  if y then
    ((span (hubRow a) (hubRow b)).map fun r => 8 * r + hubCol a) ++
      ((span (hubCol a) (hubCol b)).drop 1).map fun c => 8 * hubRow b + c
  else
    ((span (hubCol a) (hubCol b)).map fun c => 8 * hubRow a + c) ++
      ((span (hubRow a) (hubRow b)).drop 1).map fun r => 8 * r + hubCol b

/-- Switches of a leg, as a packet of the relay class or of its own passes them. -/
def legHops (y relay : Bool) (a b : Nat) : List Hop := (legHubs y a b).map fun h => ⟨h, y, relay⟩

/-- Switches of a route by the source's NST entry, each with the network and the class in which the packet departs from it. The
first leg of a relayed route is of the relay class; the relay's switch moves the packet to the second leg (R414 to R417). -/
def State.hops (s : State) (src dst : Nat) : List Hop :=
  let e := s.sreg src (0x1600 + 8 * dst)
  let a := s.phys src
  let b := s.phys dst
  match bits e 0 2 with
  | 1 => legHops true false a b
  | 2 =>
    let m := s.phys (bits e 2 6)
    (legHops (bit e 8) true a m).dropLast ++ legHops (bit e 9) false m b
  | _ => legHops false false a b

/-- Switches of a route, each with the network on which the packet departs from it. -/
def State.route (s : State) (src dst : Nat) : List (Nat × Bool) := (s.hops src dst).map fun h => (h.hub, h.y)

/-- A link of the pair from a hub to a neighbour passed its hub test (R424): network, direction code, link. -/
def State.linkGood (s : State) (h : Nat) (y : Bool) (dir l : Nat) : Bool :=
  bit (s.hreg h 0x260) (24 + (if y then 8 else 0) + 2 * dir + l)

/-- Direction code of the neighbour `b` of a hub `a`: 0 north, 1 east, 2 south, 3 west. -/
def dirOf (a b : Nat) : Nat := if b + 8 = a then 0 else if b = a + 1 then 1 else if b = a + 8 then 2 else 3

/-- The link of the pair that a packet takes: the one that bit 7 of its line's address names, or its partner where that one
failed test (R413). -/
def State.linkOf (s : State) (h : Hop) (next line : Nat) : Nat :=
  let l := line % 2
  let d := dirOf h.hub next
  if !s.linkGood h.hub h.y d l && s.linkGood h.hub h.y d (1 - l) then 1 - l else l

/-- The links that a packet to a line takes, pair by pair of its route. -/
def State.linksOn (s : State) (src dst line : Nat) : List Nat :=
  let l := s.hops src dst
  (l.zip (l.drop 1)).map fun x => s.linkOf x.1 x.2.hub line

/-- Two packets from one site to one home travel on the same link of each pair, so that they keep their order (R413, R415). -/
def State.sameLinks (s : State) (a b : Req) : Bool :=
  a.who.site == b.who.site && a.home == b.home &&
    s.linksOn a.who.site a.home (a.pa / 128) == s.linksOn b.who.site b.home (b.pa / 128)

/-- Network on which a site's requests to a home leave (R86, R415). -/
def State.netOf (s : State) (src dst : Nat) : Bool := ((s.route src dst).head?.map (·.2)).getD false

/-! ### Requests (R84 to R86) -/

/-- A core has a request to a line in flight (R86); write-backs are the die's, not a core's, and what comes over a module link
is a peer's. -/
def State.lineBusy (s : State) (site core line : Nat) : Bool :=
  s.reqs.any fun q => q.who.site == site && q.who.core == core && s.lineOf q.pa == line && q.ext.isNone &&
    (match q.kind with | .writeback _ _ => false | _ => true)

/-- A write of a die's agents to a line is in flight and not yet accepted by its home: a store, or a write-back of the die's
cache. -/
def State.dieWrites (s : State) (site line : Nat) : Bool :=
  s.reqs.any fun q => q.who.site == site && s.lineOf q.pa == line && q.stage != .done &&
    (match q.kind with | .store _ _ => true | .writeback _ _ => true | _ => false)

/-- A context has a device access in flight (R103), or an earlier store still in its walk, which may be one: those numbered
below `before` count. -/
def State.deviceBusyTo (s : State) (r : CtxRef) (before : Nat) : Bool :=
  (s.reqs.any fun q => q.who == r && !q.orphan && q.device &&
    (match q.kind with | .load _ => true | .store _ _ => true | _ => false)) ||
    (s.core r.site r.core).stw.any fun e => e.ctx == r.ctx && decide (e.id < before)

/-- A device access of the context in issue has to wait (R103). -/
def State.deviceBusy (s : State) (r : CtxRef) : Bool := s.deviceBusyTo r s.nextId

/-! ### Order of a core's requests (R86, R101) -/

/-- An atomic or reduction, which a home performs on a line that it holds (R144). -/
def ReqKind.atHome : ReqKind → Bool
  | .atomic _ _ _ _ _ _ => true
  | .reduce _ _ _ _ => true
  | _ => false

/-- A write-back of a die's cache, or a peer's write. -/
def ReqKind.back : ReqKind → Bool
  | .writeback _ _ => true
  | _ => false

/-- A push or pop. -/
def ReqKind.exch : ReqKind → Bool
  | .push _ _ _ _ => true
  | .pop _ _ _ _ => true
  | _ => false

/-- A request of a core's own: no write-back of its die's cache, and not come over a module link. -/
def Req.ofCore (q : Req) (site core : Nat) : Bool :=
  q.who.site == site && q.who.core == core && !q.kind.back && q.ext.isNone

/-- A request still in its core's hands: in the injection queue, refused, or a push or pop that has not reached the switch of its
site. -/
def Req.unsent (q : Req) : Bool :=
  match q.stage with
  | .sent => true
  | .refused _ => true
  | .atSwitch 0 _ => true
  | _ => false

/-- Requests of a core that stand in its injection queue for the network of a home, or wait behind it for an entry: those that the
load-store unit holds of a vector access with more lines than the queue has room for. -/
def State.injected (s : State) (site core home : Nat) : List Req :=
  s.reqs.filter fun q => q.ofCore site core && q.unsent && s.netOf site q.home == s.netOf site home

/-- The core's injection queue for the network of a home is full (R86): 32 requests of the core stand in it or are refused. -/
def State.injFull (s : State) (r : CtxRef) (home : Nat) : Bool := decide (32 ≤ (s.injected r.site r.core home).length)

/-- A request has one of the 32 entries of its injection queue: fewer than 32 older ones stand there. -/
def State.hasEntryIn (s : State) (q : Req) : Bool :=
  !q.ofCore q.who.site q.who.core ||
    decide (((s.injected q.who.site q.who.core q.home).filter fun x => decide (x.id < q.id)).length < 32)

/-- Two requests leave one core for one slice. -/
def State.sameSlice (s : State) (a b : Req) : Bool :=
  b.ofCore a.who.site a.who.core && a.ofCore a.who.site a.who.core && a.home == b.home &&
    sliceOf (s.lineOf a.pa) == sliceOf (s.lineOf b.pa)

/-- Two requests of a core to one line, of which one may be in flight at a time; pushes and pops of two contexts may both be
(R160). -/
def State.sameReqLine (s : State) (old q : Req) : Bool :=
  s.lineOf old.pa == s.lineOf q.pa && !(old.kind.exch && q.kind.exch && old.who.ctx != q.who.ctx)

/-- An older request keeps a younger one from leaving: of the same core, to the same line, to the same slice while the older
has not left, or once it has been overtaken 16 times (R86); of the same die, to a remote line that the older one writes,
since the die's copy shows the write already (R101). -/
def State.holdsBack (s : State) (old q : Req) : Bool :=
  let sameDie := old.who.site == q.who.site && s.lineOf old.pa == s.lineOf q.pa
  let writes : Bool := match old.kind with | .store _ _ => old.home != old.who.site | _ => false
  if old.kind.back || q.kind.back then sameDie && old.stage != .done
  else
    (sameDie && writes && old.stage != .done) ||
      (q.ofCore old.who.site old.who.core && old.ofCore old.who.site old.who.core &&
        (s.sameReqLine old q || (old.unsent && (s.sameSlice old q || decide (16 ≤ old.overtaken)))))

/-- A request may leave now, or, once it has left, reach its slice now. -/
def State.mayLeave (s : State) (q : Req) : Bool :=
  let free : Bool := !(s.reqs.any fun x => decide (x.id < q.id) && s.holdsBack x q) && s.hasEntryIn q
  match q.stage with
  | .sent => free
  | .atSwitch 0 _ => free
  | .left => !(s.reqs.any fun x => decide (x.id < q.id) && x.stage == .left && s.sameSlice x q)
  | _ => false

/-- Older requests still in the core's queue are overtaken. -/
def State.overtake (s : State) (q : Req) : State :=
  { s with reqs := s.reqs.map fun x =>
      if q.unsent && decide (x.id < q.id) && x.ofCore q.who.site q.who.core && q.ofCore q.who.site q.who.core && x.unsent then
        { x with overtaken := x.overtaken + 1 }
      else x }

/-- Dirty bytes of a die's copy go home while loads of the line by agents of the die are on their way: the replies take
them, as they would have taken the dirty bytes (R88, R124). -/
def State.forward (s : State) (site line : Nat) (bs : List (Nat × Byte)) : State :=
  { s with reqs := s.reqs.map fun q =>
      match q.kind with
      | .load _ => if q.who.site = site ∧ s.lineOf q.pa = line then { q with fwd := q.fwd ++ bs } else q
      | _ => q }

/-- VA[55:7] of the object under whose binding a line is held, as an address; 0 for UNBOUND. -/
def Die.lineObj (d : Die) (l : RdcLine) : W64 :=
  match l.tag with
  | some t => BitVec.ofNat 64 (((d.bind.find? fun b => b.slot = t).map (·.obj * 128)).getD 0)
  | none => 0

/-- A die sends dirty bytes of a line of its cache home as a request of its own, which names the binding slot (64 for none) and
the object bound there. -/
def State.sendBack (s : State) (site : Nat) (l : RdcLine) (asid : BitVec 16) (bs : List (Nat × Byte)) : State :=
  let q : Req :=
    { id := s.nextId, who := ⟨site, 0, 0⟩, asid := asid, va := (s.die site).lineObj l, pa := l.line * 128, home := l.home,
      kind := .writeback bs (l.tag.getD 64), stage := .sent, refusals := 0, overtaken := 0, data := [], value := 0, status := 0,
      install := true, orphan := true, device := false, uncached := false, grp := s.nextId, page := 0, ext := none, fwd := [], replayed := false }
  let s := s.forward site l.line bs
  { s with reqs := s.reqs ++ [q], nextId := s.nextId + 1 }

/-- A new request of a context in an ASID; its number is `nextId`. -/
def State.sendAs (s : State) (r : CtxRef) (asid : BitVec 16) (va : W64) (pa : Nat) (leaf : W64) (kind : ReqKind)
    (stage : ReqStage) (data : List Byte) : State :=
  let q : Req :=
    { id := s.nextId, who := r, asid := asid, va := va, pa := pa, home := s.homeOf pa leaf, kind := kind,
      stage := stage, refusals := 0, overtaken := 0, data := data, value := 0, status := 0,
      install := cacheable leaf pa, orphan := false, device := decide (leafMT leaf = 2),
      uncached := decide (8 ≤ paRegion pa) && leafMT leaf != 0 && !kind.atHome,
      grp := s.nextId, page := 0, ext := none, fwd := [], replayed := false }
  let s := match kind with
    | .writeback _ _ => s
    | _ => s.modCore r.site r.core fun k => { k with msgSent := k.msgSent + 1 }
  { s with reqs := s.reqs ++ [q], nextId := s.nextId + 1 }

/-- A new request of a context. -/
def State.send (s : State) (r : CtxRef) (va : W64) (pa : Nat) (leaf : W64) (kind : ReqKind) (stage : ReqStage)
    (data : List Byte) : State := s.sendAs r (s.ctx r).asid va pa leaf kind stage data

/-- A number is taken. -/
def State.takeId (s : State) : State := { s with nextId := s.nextId + 1 }

/-- A request by number. -/
def State.req (s : State) (id : Nat) : Option Req := s.reqs.find? fun q => q.id = id

/-- Change a request. -/
def State.modReq (s : State) (id : Nat) (f : Req → Req) : State :=
  { s with reqs := s.reqs.map fun q => if q.id = id then f q else q }

/-- A request is over. -/
def State.dropReq (s : State) (id : Nat) : State := { s with reqs := s.reqs.filter fun q => q.id != id }

/-! ### The remote-data cache (R87, R88) -/

/-- The copy of a line in a die's cache. -/
def State.rdcFind (s : State) (site line : Nat) : Option RdcLine := (s.die site).rdc.find? fun l => l.line = line

/-- The tag that a line takes when the cache allocates it: the slot of the binding that covers it, else UNBOUND; where
several bindings cover it, a free choice among their slots and UNBOUND (R111; log entry 58). -/
def Die.tagOf (d : Die) (pick : Nat) (asid : BitVec 16) (va : W64) : Option Nat :=
  match d.tags asid va with
  | [] => none
  | [t] => some t
  | l => l[pick % (l.length + 1)]?

/-- A write-back of a line by a die that has not reached the home yet. -/
def State.lateBack (s : State) (site line : Nat) (q : Req) : Option (List (Nat × Byte)) :=
  match q.kind with
  | .writeback bs _ => if q.who.site = site ∧ s.lineOf q.pa = line ∧ q.stage ≠ .done then some bs else none
  | _ => none

/-- Write a line's dirty bytes home under the byte mask (R89), the bytes of write-backs still on their way first. The home
recalls a line that a core owns (R146); while the host holds the line, which the home must have back first (R99), the
bytes leave as a request, and wait there. -/
def State.rdcFlush (s : State) (site : Nat) (l : RdcLine) (asid : BitVec 16) : State :=
  let mine := (List.range 128).filterMap fun i => if l.dirty.getD i false then some (i, l.data.getD i 0) else none
  if s.hostHolds l.line then (if mine.isEmpty then s else s.sendBack site l asid mine)
  else
    let late := s.reqs.flatMap fun q => (s.lateBack site l.line q).getD []
    let bs := late ++ mine
    let s0 := s
    let s := if late.isEmpty then s
      else { s with reqs := s.reqs.map fun q =>
        match s0.lateBack site l.line q, q.kind with
        | some _, .writeback _ t => { q with kind := .writeback [] t }
        | _, _ => q }
    if bs.isEmpty then s
    else ((((s.forward site l.line bs).recallLine l.line none).fillL2 l.line l.home).homeWrite l.line l.home asid none bs)

/-- ASID under whose binding a line is held; 0 for UNBOUND. -/
def Die.lineAsid (d : Die) (l : RdcLine) : BitVec 16 :=
  match l.tag with
  | some t => ((d.bind.find? fun b => b.slot = t).map (·.asid)).getD 0
  | none => 0

/-- Lines that leave the cache: dirty bytes written back, L1 copies of the die removed (R79, R88). -/
def State.rdcEvict (s : State) (site : Nat) (which : RdcLine → Bool) : State :=
  let d := s.die site
  let gone := d.rdc.filter which
  let s := gone.foldl (fun s l => (s.rdcFlush site l (d.lineAsid l)).l1Drop site l.line none) s
  s.modDie site fun d => { d with rdc := d.rdc.filter fun l => !which l }

/-- Every UNBOUND line of a die invalidated (fence of module or system scope). -/
def State.rdcUnbound (s : State) (site : Nat) : State :=
  ((s.rdcEvict site fun l => l.tag = none)).noInstall site fun q =>
    ((s.die site).tags q.asid q.va).length != 1 && q.home != site

/-- Acquire of slot `t`: dirty bytes home, then every line of the slot invalidated. -/
def State.rdcAcquire (s : State) (site t : Nat) : State :=
  (s.rdcEvict site fun l => l.tag = some t).noInstall site fun q => ((s.die site).tags q.asid q.va).contains t

/-- Insert or replace a line: 16,384 sets of 16 lines; in a full set a free choice evicts one (R87; log entry 10). -/
def State.rdcPut (s : State) (site : Nat) (l : RdcLine) : State :=
  let d := s.die site
  let s := if d.rdc.any fun x => x.line = l.line then s
    else
      match victimAt (fun (x : RdcLine) => x.line % 16384 == l.line % 16384) (fun _ => true) 16 (Config.choice s.tick) d.rdc with
      | none => s
      | some i =>
        let v := (d.rdc[i]?).map (·.line)
        (s.rdcEvict site fun x => some x.line = v).next
  s.modDie site fun d => { d with rdc := (d.rdc.filter fun x => x.line != l.line) ++ [l] }

/-- A fill of a line: bytes that are dirty locally are kept (R88). -/
def State.rdcFill (s : State) (site line home : Nat) (asid : BitVec 16) (va : W64) (data : List Byte) : State :=
  match s.rdcFind site line with
  | some l =>
    s.rdcPut site { l with
      data := (List.range 128).map fun i => if l.dirty.getD i false then l.data.getD i 0 else data.getD i 0
      valid := List.replicate 128 true }
  | none =>
    s.rdcPut site ⟨line, home, data, List.replicate 128 true, List.replicate 128 false,
      (s.die site).tagOf (Config.choice s.tick) asid va⟩

/-- A store to a line of a bound region: bytes valid and dirty, allocated without fetching when absent. -/
def State.rdcStore (s : State) (site line home tag : Nat) (bs : List (Nat × Byte)) : State :=
  match s.rdcFind site line with
  | some l =>
    s.rdcPut site { l with data := patch l.data bs, valid := patchMask l.valid bs true, dirty := patchMask l.dirty bs true }
  | none =>
    s.rdcPut site ⟨line, home, patch (List.replicate 128 0) bs, patchMask (List.replicate 128 false) bs true,
      patchMask (List.replicate 128 false) bs true, some tag⟩

/-- A write that passes the cache: the copy present is updated; `clean` also clears the bytes' dirty bits (R88, R124). -/
def State.rdcPass (s : State) (site line : Nat) (bs : List (Nat × Byte)) (clean : Bool) : State :=
  s.modDie site fun d => { d with rdc := d.rdc.map fun l =>
    if l.line = line then
      { l with
        data := patch l.data bs
        valid := patchMask l.valid bs true
        dirty := if clean then patchMask l.dirty bs false else l.dirty }
    else l }

/-- The tag under which a store treats a remote line: that of its copy, else that of the binding cache. -/
def State.storeTag (s : State) (site line : Nat) (asid : BitVec 16) (va : W64) : Option Nat :=
  match s.rdcFind site line with
  | some l => l.tag
  | none => (s.die site).tagOf (Config.choice s.tick) asid va

/-- A line leaves the issuing core's L1 and its die's cache before an atomic, reduction or exchange (R80). -/
def State.dropForAtomic (s : State) (r : CtxRef) (line : Nat) : State :=
  let s := s.modCore r.site r.core fun k => { k with l1 := k.l1.filter fun l => l.line != line }
  s.rdcEvict r.site fun l => l.line = line

/-! ### What a load does with its bytes -/

/-- Bytes and sign of a load. -/
def ldSize : LdMode → Nat
  | .b => 1 | .h => 2 | .w => 4 | .d => 8 | .bu => 1 | .hu => 2 | .wu => 4

/-- Extension to 64 bits (R277). -/
def ldExtend (m : LdMode) (n : Nat) : W64 :=
  match m with
  | .b => sext 8 n | .h => sext 16 n | .w => sext 32 n
  | .d => BitVec.ofNat 64 n | .bu => BitVec.ofNat 64 n | .hu => BitVec.ofNat 64 n | .wu => BitVec.ofNat 64 n

/-- The agent that a request acts for where it is a context (R97): no engine, peer or die's cache is. -/
def Req.agent (q : Req) : Option CtxRef :=
  match q.kind with
  | .load (.engine _) => none
  | .store _ job => if job = 0 then some q.who else none
  | .writeback _ _ => none
  | _ => if q.ext.isSome then none else some q.who

/-- Bytes of a store. -/
def stSize : StSize → Nat
  | .b => 1 | .h => 2 | .w => 4 | .d => 8

/-- The number in `n` bytes at an offset of a line. -/
def fieldAt (data : List Byte) (off n : Nat) : Nat := ofBytes ((data.drop off).take n)

/-- A widening load's result in gd (R278). -/
def widenG (code b : Nat) (scale : Option W32) : W64 :=
  let v := windowLoad code b scale
  if code = 5 then sx32 v else v.setWidth 64

/-- A vector lane's value: raw for code 0 (R319). -/
def laneValue (code b : Nat) (scale : Option W32) : W32 :=
  if code = 0 then BitVec.ofNat 32 b else windowLoad code b scale

/-- A load's bytes reach their destination. -/
def Ctx.deliver (c : Ctx) (dst : LoadDst) (data : List Byte) : Ctx :=
  match dst with
  | .g d m off => c.wg d (ldExtend m (fieldAt data off (ldSize m)))
  | .widen d code off sc => c.wg d (widenG code (fieldAt data off (elemBytes code)) sc)
  | .lanes v ls =>
    c.wv v (ls.foldl (fun (l : List W32) e =>
      l.set e.1 (laneValue e.2.2.1 (fieldAt data e.2.1 (elemBytes e.2.2.1)) e.2.2.2)) (c.rv v))
  | .fetch _ => c
  | .prefetch _ => c
  | .engine _ => c
  | .ahead => c

/-- The registers that a destination keeps waiting. -/
def LoadDst.pend : LoadDst → RegSet
  | .g d _ _ => rG [d]
  | .widen d _ _ _ => rG [d]
  | .lanes v _ => rV [v]
  | _ => RegSet.empty

/-- Set and clear bits of PEND. -/
def Pend.add (p : Pend) (r : RegSet) : Pend := ⟨p.g ||| r.g, p.p ||| r.p, p.v ||| r.v, p.m ||| r.m⟩
def Pend.sub (p : Pend) (r : RegSet) : Pend := ⟨p.g &&& ~~~r.g, p.p &&& ~~~r.p, p.v &&& ~~~r.v, p.m &&& ~~~r.m⟩

/-- The context in issue parks until requests are answered; its bundle counts as issued. -/
def State.parkOn (s : State) (ids : List Nat) (pend : RegSet) : State :=
  ((s.modC fun c => { c with wait := .replies ids, pend := c.pend.add pend }).leave s.cur .parked).flow .park

/-- The context in issue parks until the walk of a page has ended; its bundle executes again (R39, R41). -/
def State.waitWalk (s : State) (va : W64) (setD : Bool) : State :=
  let s := s.askWalk s.cur s.c.asid va setD true
  ((s.modC fun c => { c with wait := .walk (va.toNat / 4096), redo := true }).leave s.cur .parked).flow .again

/-- A reply is no longer awaited. -/
def State.answered (s : State) (r : CtxRef) (id : Nat) : State :=
  (s.modCtx r fun c =>
    { c with wait := match c.wait with
        | .replies ids => .replies (ids.filter fun i => i != id)
        | w => w }).unpark r

/-! ### The replay queue (R128 to R131) -/

/-- 4 KiB page number of an address. -/
def pageOf (va : W64) : Nat := va.toNat / 4096

/-- The context in issue has a parked store for a page. -/
def State.pageParked (s : State) (r : CtxRef) (va : W64) : Bool :=
  let k := s.core r.site r.core
  (k.rq.any fun e => e.ctx == r.ctx && pageOf e.va == pageOf va) ||
    s.reqs.any fun q => q.replayed && q.who == r && !q.orphan && pageOf q.va == pageOf va

/-- The context has a store to a page whose walk is under way. -/
def State.pageWalking (s : State) (r : CtxRef) (va : W64) : Bool :=
  (s.core r.site r.core).stw.any fun e => e.ctx == r.ctx && pageOf e.va == pageOf va

/-- An operation of a context whose reply it awaits. -/
def ReqKind.awaited : ReqKind → Bool
  | .load (.g _ _ _) => true
  | .load (.widen _ _ _ _) => true
  | .load (.lanes _ _) => true
  | .atomic _ _ _ _ _ _ => true
  | .pop _ _ _ _ => true
  | .acq _ _ => true
  | .answer _ => true
  | _ => false

/-- An operation of a context, numbered below `before`, still awaits its reply. -/
def State.awaitingTo (s : State) (r : CtxRef) (before : Nat) : Bool :=
  s.reqs.any fun q => q.who == r && !q.orphan && decide (q.id < before) && q.kind.awaited

/-- An operation of a context still awaits its reply: none of a RUNNING context's does but after a pre-emption (R375). -/
def State.awaiting (s : State) (r : CtxRef) : Bool := s.reqs.any fun q => q.who == r && !q.orphan && q.kind.awaited

/-- A context's acquire, pop, `bind` or ordered atomic is not complete: no later access of the context is performed before it
is (R112, R113, R143, R166). -/
def State.accessHeld (s : State) (r : CtxRef) : Bool :=
  s.reqs.any fun q => q.who == r && !q.orphan &&
    (match q.kind with
      | .atomic _ _ _ _ ord _ => ord != .relaxed
      | .pop _ _ _ _ => true
      | .acq _ _ => true
      | .answer _ => true
      | _ => false)

/-- Entries that `rel`, `fence`, halt and engine enqueues wait for: in a handler only those created during it
(R131; log entry 27). -/
def State.rqBusy (s : State) (r : CtxRef) : Bool :=
  let k := s.core r.site r.core
  let t := (s.ctx r).inHandler
  (k.rq.any fun e => e.ctx == r.ctx && (!t || e.inTrap)) ||
    (k.stw.any fun e => e.ctx == r.ctx && (!t || e.inTrap))

/-- Stores of a context that count in ocs and were not parked before the trap it handles (R131, R290). -/
def State.ocsNow (s : State) (r : CtxRef) : Nat :=
  let c := s.ctx r
  let k := s.core r.site r.core
  let old := (k.rq ++ k.stw).filter fun e => e.ctx == r.ctx && e.src == .store && !e.inTrap
  if c.inHandler then c.ocs - old.length else c.ocs

/-- The condition of `waitc` holds (R290, R131). -/
def State.countersMet (s : State) (r : CtxRef) (l x c t : BitVec 5) : Bool :=
  let k := s.ctx r
  let ok (lim : BitVec 5) (v : Nat) : Bool := lim = 31 || decide (v ≤ lim.toNat)
  ok l k.ocl && ok x (s.ocsNow r) && ok c k.occ && ok t k.oct

/-- A context whose counters or busy flag changed leaves its wait when the condition holds (R290, R292). -/
def State.wake (s : State) (r : CtxRef) : State :=
  match (s.ctx r).wait with
  | .waitc l x c t => if s.countersMet r l x c t then s.rouse r else s
  | .sfufence => if (s.ctx r).sfuBusy then s else s.rouse r
  | _ => s

/-- Room for one more entry in the core's replay queue, those set aside for stores in their walks counted (R128, R130). -/
def State.rqRoom (s : State) (r : CtxRef) : Bool :=
  let k := s.core r.site r.core
  decide (k.rq.length + k.stw.length < 16)

/-- A store parks. A FAULTED entry makes its cause pending at the next bundle boundary; an entry behind one of the same
page is WAITING (R128, R129). -/
def State.parkStore (s : State) (r : CtxRef) (e : ReplayEntry) (code : Option Nat) : State :=
  let s := s.modCore r.site r.core fun k => { k with rq := k.rq ++ [{ e with faulted := code.isSome }] }
  match code with
  | some c => (s.modCtx r fun x => { x with pendStore := x.pendStore ++ [(c, e.va)] }).rouse r
  | none => s

end Sys2Proof.Machine
end

