-- ==== Sys2Proof/Machine/Hub.lean ====
section
/-! DEFINITION. The registers that memory-mapped accesses reach: the hub registers of region 0x5 with their writable
fields (R15 to R17, R24, R96, R354, R367, R379, R384, R387, R395, R416, R423 to R436), the die registers behind them,
and the core engine registers of region 0x4 with the debug aperture (R232, R328, R329, R385). -/

namespace Sys2Proof

/-- `n` ones from bit `lo` up. -/
def ones (lo n : Nat) : W64 := BitVec.ofNat 64 ((2 ^ n - 1) * 2 ^ lo)

/-- A list of 0/1 flags as a number, first flag lowest. -/
def packBits : List Bool → Nat
  | [] => 0
  | b :: l => (if b then 1 else 0) + 2 * packBits l

namespace Machine

/-! ### Hub registers (region 0x5) -/

/-- Kinds of hub registers: plain with the mask of its RW fields, or found on edge hubs only. -/
structure HubReg where
  rw : W64
  edge : Bool
deriving DecidableEq, Repr

/-- The register at an offset, none where no register lies. -/
def hubReg (off : Nat) : Option HubReg :=
  let plain (m : W64) : Option HubReg := some ⟨m, false⟩
  let edge (m : W64) : Option HubReg := some ⟨m, true⟩
  let inn (lo n : Nat) : Bool := decide (lo ≤ off) && decide (off < lo + n)
  if off % 8 ≠ 0 then none
  else if off = 0x100 then plain 0
  else if off = 0x108 ∨ off = 0x118 ∨ inn 0x120 0x20 then edge 0
  else if inn 0x200 0x100 then plain 0
  else if inn 0x1000 0x200 then plain 0xFF
  else if off = 0x1200 ∨ off = 0x1208 then plain 0x7F
  else if off = 0x1210 then plain (ones 12 40)
  else if off = 0x1218 then plain 0x1F
  else if inn 0x1400 0x80 then plain 0x1FFFF
  else if inn 0x1480 0x40 then plain (ones 0 64)
  else if inn 0x1600 0x200 then plain 0x7FF
  else if off = 0x1800 ∨ off = 0x1808 then plain 0
  else if inn 0x1A00 0x100 then plain (if off % 16 = 0 then ones 0 5 ||| ones 12 39 else ones 12 39)
  else if inn 0x1B00 0x80 then plain (if off % 16 = 0 then ones 0 6 ||| ones 30 26 else ones 30 22)
  else if inn 0x1B80 0x100 then plain 0x9F
  else if inn 0x1D00 0x40 then plain (ones 0 32)
  else if off = 0x2000 then plain 0xFF
  else if off = 0x2008 ∨ off = 0x2020 then plain 0
  else if off = 0x2010 ∨ off = 0x2018 then plain (ones 0 64)
  else if off = 0x2028 then plain 0xFFFF
  else if inn 0x3000 0x100 then
    (match off % 0x40 with
      | 0x00 => plain (ones 6 46)
      | 0x08 => plain 0x3F
      | 0x10 => plain (ones 0 32)
      | 0x18 => plain 0
      | 0x20 => plain (1 ||| ones 6 46)
      | 0x28 => plain 0
      | _ => none)
  else if off = 0x3200 then plain (ones 8 44)
  else if off = 0x3208 then plain (ones 0 17)
  else if off = 0x3400 then plain 0
  else if off = 0x3600 then plain (ones 0 14)
  else if off = 0x3608 then plain 0xC
  else if off = 0x3610 then plain (ones 0 64)
  else if off = 0x3618 then plain (ones 0 15)
  else if off = 0x3620 ∨ off = 0x3638 then plain 0
  else if off = 0x3628 then plain (ones 0 52)
  else if off = 0x3630 then plain (ones 0 40)
  else if off = 0x3640 then plain (ones 0 64)
  else if off = 0x4010 ∨ (inn 0x4080 0x30) ∨ off = 0x4100 ∨ off = 0x4108 then plain 0
  else if off = 0x5000 then plain 0
  else if off = 0x5008 then plain (ones 0 31)
  else if off = 0x5010 then plain (ones 0 24)
  else if off = 0x5018 then plain 0
  else if off = 0x5020 then plain (ones 0 27)
  else if off = 0x5028 then plain 0x7F
  else if off = 0x5030 then plain (ones 0 17)
  else if off = 0x5038 then plain (1 ||| ones 12 40)
  else if inn 0x5040 0x80 then plain 0
  else if off = 0x6000 then plain 0
  else if inn 0x6010 0x20 then edge (ones 0 64)
  else if off = 0x6030 then edge 0
  else if inn 0x8000 0x8000 then edge (ones 0 64)
  else if inn 0x10000 0x43A8 then edge 0
  else none

/-- The offsets of the configuration set, ascending (R425). -/
def configOffs : List Nat :=
  let run (lo n : Nat) : List Nat := (List.range n).map fun i => lo + 8 * i
  run 0x1000 64 ++ run 0x1200 4 ++ run 0x1400 16 ++ run 0x1480 8 ++ run 0x1600 64 ++ run 0x1A00 32 ++ run 0x1B00 16 ++
    run 0x1B80 32 ++ [0x3200, 0x3208]

/-- An edge hub. -/
def edgeHub (h : Nat) : Bool := decide (hubRow h = 0 ∨ hubRow h = 7 ∨ hubCol h = 0 ∨ hubCol h = 7)

/-- Physical index of the hub that carries a module-link port (R430). -/
def linkHub (p : Nat) : Nat :=
  match p / 8 with
  | 0 => p % 8
  | 1 => 8 * (p % 8) + 7
  | 2 => 56 + (7 - p % 8)
  | _ => 8 * (7 - p % 8)

/-- Physical index of the hub that carries a CXL port (R428). -/
def cxlHub (p : Nat) : Nat :=
  let k := [1, 2, 5, 6].getD (p % 4) 0
  match p / 4 with
  | 0 => k
  | 1 => 8 * k + 7
  | 2 => 56 + [6, 5, 2, 1].getD (p % 4) 0
  | _ => 8 * [6, 5, 2, 1].getD (p % 4) 0

/-- Codes of R423. -/
def HubState.code : HubState → Nat
  | .off => 0 | .clocked => 1 | .linked => 2 | .tested => 3 | .configured => 4 | .serving => 5 | .failed => 6

/-- HUBSTATE (R423). -/
def State.hubState (s : State) (h : Nat) : W64 :=
  let u := s.hub h
  BitVec.ofNat 64 (u.st.code + (if edgeHub h then 8 else 0) + u.parent % 8 * 16 + u.cfgerr % 16 * 256 +
    hubRow h * 65536 + hubCol h * 524288)

/-- An edge hub at LINKED or beyond. -/
def State.edgeUp (s : State) (h : Nat) : Bool :=
  let c := (s.hub h).st.code
  edgeHub h && decide (2 ≤ c) && decide (c ≤ 5)

/-- BOOTSTAT with its count of edge hubs (R427). -/
def State.bootstatNow (s : State) : W64 := putBits s.bootstat 8 8 ((List.range 64).filter s.edgeUp).length

/-- Logical site of a hub. -/
def State.siteOf (s : State) (h : Nat) : Nat := if s.sites.contains h then s.sites.idxOf h else h

/-- Halter mode (R427). -/
def State.halter (s : State) : Bool := bit s.bootstat 6

/-- This module's number (R425). -/
def State.modnum (s : State) : Nat := bits (s.sreg 0 0x1218) 0 5

/-- UP of a hub's own map entry for a module: the port that the entry names is trained and its peer reports this number (R430,
R452). -/
def State.linkUpAt (s : State) (h pmod : Nat) : Bool :=
  let l := Table.get (⟨false, 0⟩ : Link) s.links (bits (s.hreg h (0x1B80 + 8 * pmod)) 0 5)
  l.up && decide (l.peer = pmod)

/-- The link to a module is up, by the map that every hub of a serving module holds. -/
def State.linkUp (s : State) (pmod : Nat) : Bool := s.linkUpAt (s.phys 0) pmod

/-- The map entry of a peer module is valid and its link is up (R430, R433). -/
def State.peerOk (s : State) (pmod : Nat) : Bool := bit (s.sreg 0 (0x1B80 + 8 * pmod)) 7 && s.linkUp pmod

/-- Die registers that the host reaches by offset (R381, R386). -/
def State.dieHostReg (s : State) (site num : Nat) : W64 :=
  let d := s.die site
  match num with
  | 0x142 => d.nplim
  | 0x150 => d.tqbase
  | 0x151 => d.tqctl
  | 0x152 => d.tqprod.setWidth 64
  | 0x153 => d.tqcons.setWidth 64
  | 0x154 => d.tqdrop.setWidth 64
  | 0x155 => BitVec.ofNat 64 (d.tqheld.length + (d.tqwait.filter (·.2)).length)
  | 0x160 => d.stctl
  | 0x161 => d.ststat
  | _ => 0

/-- Live bytes of a hub's undo log (R387). -/
def Hub.undoUse (u : Hub) : Nat := (u.undo.dropWhile (·.dead)).length * 144

/-- Every context of a die that the halt tree stops has stopped (R384). -/
def State.allStopped (s : State) (site : Nat) : Bool :=
  s.ctxs.all fun e => e.1 / 1024 != site || e.2.st = .free || e.2.st = .stopped

/-- THRSTAT as it reads: of the alarms in SRC the coolant alarm and FORCE as they stand now (R395). -/
def State.thrstat (s : State) (h : Nat) : W64 :=
  putBits (putBits (s.hreg h 0x5018) 3 1 (if s.coolant then 1 else 0)) 5 1 (if bit (s.hreg h 0x5010) 0 then 1 else 0)

/-- A read of a hub register; none where the offset names none (R6). -/
def State.hubRead (s : State) (h off : Nat) : Option W64 :=
  match hubReg off with
  | none => none
  | some r =>
    if r.edge && !edgeHub h then none
    else
      some <|
        if off = 0x100 then s.hubState h
        else if off = 0x108 then s.bootstatNow
        else if 0x1B80 ≤ off ∧ off < 0x1C80 then
          putBits (s.hreg h off) 8 1 (if s.linkUpAt h ((off - 0x1B80) / 8) then 1 else 0)
        else if off = 0x3608 then
          putBits (s.hreg h off) 4 1 (if bit (s.hreg h off) 4 ∧ s.allStopped (s.siteOf h) then 1 else 0)
        else if off = 0x3620 then
          let g := Table.get (⟨0, false⟩ : CkGroup) s.groups (bits (s.hreg h 0x3618) 0 12)
          BitVec.ofNat 64 (g.st % 4 + if g.ovf then 4 else 0)
        else if off = 0x3638 then BitVec.ofNat 64 (s.hub h).undoUse
        else if 0x4000 ≤ off ∧ off < 0x4200 then s.dieHostReg (s.siteOf h) (0x140 + (off - 0x4000) / 8)
        else if off = 0x5018 then s.thrstat h
        else if off = 0x5030 then putBits (s.hreg h off) 17 1 (if (s.die (s.siteOf h)).gated then 1 else 0)
        else if off = 0x6000 then putBits s.grade 33 1 (if s.halter then 1 else 0)
        else s.hreg h off

/-- The register after a plain write: RW fields take the new bits (R6). -/
def maskWrite (old v rw : W64) : W64 := (old &&& ~~~rw) ||| (v &&& rw)

/-! ### Engine registers (R328, R329) -/

/-- MXSTAT. -/
def Core.mxstat (k : Core) : W64 :=
  let run := k.mxq.head?.filter (·.started)
  BitVec.ofNat 64 (k.mxq.length + (match run with | some m => m.ctx * 32 + 128 | none => 0) + k.obuf.length % 32 * 256)

/-- Codes of a slot's state. -/
def SlotState.code : SlotState → Nat
  | .free => 0 | .owned => 1 | .reserved => 2

/-- MXSLOT. -/
def Core.mxslot (k : Core) : W64 :=
  BitVec.ofNat 64 (ofBytes (k.slots.toList.map fun a =>
    if a.state = .free then 0 else BitVec.ofNat 8 (a.state.code + a.owner % 4 * 4 + a.type % 4 * 16)))

/-- A context owns a slot. -/
def AccSlot.ownedBy (a : AccSlot) (c : Nat) : Bool := a.state = .owned && a.owner == c

/-- MXCTX. -/
def Core.mxctx (k : Core) (c : Nat) : W64 :=
  BitVec.ofNat 64 ((k.mxq.filter fun m => m.ctx = c).length + 32 * packBits (k.slots.toList.map fun a => a.ownedBy c))

/-- Rows of the active copy whose bytes are all written: no chunk of them waits for its bytes or for its write (R349). -/
def Core.rowsDone (k : Core) (a : CopyRun) : Nat := (k.chunks.filter fun c => c.job == a.job).foldl (fun n c => min n c.row) a.row

/-- CPSTAT. -/
def Core.cpstat (k : Core) (x : Ctx) (c : Nat) : W64 :=
  BitVec.ofNat 64 ((if x.cpArmed then 1 else 0) +
    (match k.cp with
      | some a => if a.ctx = c then 2 + k.rowsDone a % 65536 * 65536 else 0
      | none => 0))

/-- CPCORE. -/
def Core.cpcore (k : Core) : W64 :=
  match k.cp with
  | some a => BitVec.ofNat 64 (1 + 2 * a.ctx)
  | none => 0

/-- A per-context or per-core engine register of the self aperture. -/
def State.engRead (s : State) (r : CtxRef) (off : Nat) : Option W64 :=
  let x := s.ctx r
  let k := s.core r.site r.core
  if off % 8 ≠ 0 then none
  else if off < 0x40 then some (x.mxstage.toList.getD (off / 8) 0)
  else
    match off with
    | 0x40 => some k.mxstat
    | 0x48 => some k.mxslot
    | 0x50 => some (k.mxctx r.ctx)
    | 0x58 => some x.mxfault
    | 0x60 => some x.mxfaddr
    | 0x1000 => some x.cpsrc
    | 0x1008 => some x.cpdst
    | 0x1010 => some x.cplen
    | 0x1018 => some x.cpstride
    | 0x1020 => some x.cpctl
    | 0x1028 => some (k.cpstat x r.ctx)
    | 0x1030 => some x.cpfault
    | 0x1038 => some x.cpfaddr
    | 0x1040 => some k.cpcore
    | _ => none

/-- DICTCTL (R214). -/
def Ctx.dictctl (c : Ctx) : W64 :=
  BitVec.ofNat 64 (c.dactive.toNat + (if c.dload.isSome then 4 else 0) + c.lbank.toNat * 8)

/-- One of the two versions of a dictionary entry: the one that the choice takes (R228). -/
def Ctx.dictEntry (c : Ctx) (key : Nat) (old : Bool) : W64 :=
  match Table.find c.dictOld key with
  | some v => if old then v else Table.get 0 c.dict key
  | none => Table.get 0 c.dict key

/-- DICTCTL (`base` false) or DICTBASE of a context as the debug aperture shows it: the saved one while it is PREEMPTED
(R232, R376). -/
def State.debugDictReg (s : State) (r : CtxRef) (base : Bool) : W64 :=
  let c := s.ctx r
  if c.saved then s.dword (savePa r (if base then 0x1F0 else 0x1E8)) else if base then c.dictbase else c.dictctl

/-- A dictionary entry, key 64 × bank + index, as the debug aperture shows it: one whole version, the saved one while the
context is PREEMPTED (R228, R232, R376). -/
def State.debugDictEntry (s : State) (r : CtxRef) (key : Nat) : W64 :=
  let c := s.ctx r
  if c.saved then s.dword (savePa r (0x800 + 8 * key)) else c.dictEntry key (Config.choice s.tick % 2 = 0)

/-- CTXSTAT of a context as state `st` (R177). -/
def State.ctxstat (s : State) (r : CtxRef) (st : CtxState) : W64 :=
  let c := s.ctx r
  BitVec.ofNat 64 (st.code + (if c.sys then 16 else 0) + (if c.gang then 32 else 0) + qpos r * 64 + c.claim * 256 +
    c.want % 16 * 4096 + (if c.unmet then 65536 else 0) + r.ctx * 131072 +
    (if c.st = .stopped then c.prior.code * 1048576 else 0))

/-- The offset of the debug aperture at which it shows CTXSTAT of a context, which the spec does not give: a free one among those
that no rule uses (R177, R232; log entry 73). -/
def ctxstatOff (c : Nat) : Nat := 0xE040 + 8 * (Config.ctxstatPlace % 501 + c)

/-- A register of a core in region 0x4; none where no register lies (R177, R232, R328, R385). -/
def State.coreReg (s : State) (site core off : Nat) : Option W64 :=
  let at_ (c : Nat) : CtxRef := ⟨site, core, c⟩
  if off % 8 ≠ 0 then none
  else if off = 0x40 ∨ off = 0x48 ∨ off = 0x1040 then s.engRead (at_ 0) off
  else if 0x4000 ≤ off ∧ off < 0xC000 then
    let c := (off - 0x4000) / 0x2000
    let x := (off - 0x4000) % 0x2000
    if x = 0x40 ∨ x = 0x48 ∨ x = 0x1040 then none else s.engRead (at_ c) x
  else if 0xC000 ≤ off ∧ off < 0xE000 then
    let o := off - 0xC000
    some (s.debugDictEntry (at_ (o / 0x800)) (o % 0x800 / 8))
  else if 0xE000 ≤ off ∧ off < 0xE040 then
    some (s.debugDictReg (at_ ((off - 0xE000) / 16)) (decide (off % 16 ≠ 0)))
  else if 0xF000 ≤ off ∧ off < 0xF040 then
    if off % 16 = 0 then some ((s.core site core).ht.toList.getD ((off - 0xF000) / 16) 0) else none
  else if off = 0xF040 then
    some (s.core site core).htMsg
  else if 0xE040 ≤ off ∧ off < 0xF000 then
    ((List.range 4).find? fun c => off = ctxstatOff c).map fun c => s.ctxstat (at_ c) (s.ctx (at_ c)).st
  else none

/-! ### Bytes at a target -/

/-- `n` bytes that a read at its target returns: memory, or a register's; none where no register lies (R14). -/
def State.targetRead (s : State) (pa n : Nat) : Option (List Byte) :=
  let reg (v : W64) : List Byte := ((toBytes 8 v.toNat).drop (pa % 8)).take n
  match paRegion pa with
  | 4 => (s.coreReg (paSite pa) (pa / 524288 % 256) (pa % 65536 / 8 * 8)).map reg
  | 5 => (s.hubRead (s.phys (paSite pa)) (pa % 16777216 / 8 * 8)).map reg
  | _ => some (s.bytes pa n)

/-- An address of regions 0x4 or 0x5 where no register lies (R14, R328, R329). -/
def State.noReg (s : State) (pa : Nat) : Bool := (s.targetRead pa 1).isNone

/-- An access to the debug aperture that is not of 8 aligned bytes (R232). -/
def debugBad (pa n : Nat) : Bool :=
  paRegion pa = 4 && decide (0xC000 ≤ pa % 65536) && decide (pa % 65536 < 0xF000) && n != 8

/-- The 128 bytes of the line of an address as its target gives them, register by register. -/
def State.targetLine (s : State) (pa : Nat) : List Byte :=
  if paRegion pa = 4 ∨ paRegion pa = 5 then
    (List.range 16).flatMap fun i => (s.targetRead (pa / 128 * 128 + 8 * i) 8).getD (List.replicate 8 0xFF)
  else s.bytes (pa / 128 * 128) 128

end Machine
end Sys2Proof
end

