-- ==== Sys2Proof/Machine/Image.lean ====
section
/-! DEFINITION. A context's save area in local memory: its layout, its writing and its reading back, and the spilling of
replies into it (R18, R230, R375, R376, R454). -/

namespace Sys2Proof.Machine

/-! ### Places -/

/-- Write doublewords from an address. -/
def State.setDwords (s : State) (pa : Nat) (ws : List W64) : State := s.setBytes pa (ws.flatMap fun w => toBytes 8 w.toNat)

/-! ### The words -/

/-- The word at 0x0170. -/
def Ctx.imageFlags (c : Ctx) (q claim : Nat) : W64 :=
  BitVec.ofNat 64 ((c.p ||| 1#8).toNat + c.ocl % 256 * 2 ^ 8 + c.ocs % 256 * 2 ^ 16 + c.occ % 256 * 2 ^ 24 +
    c.oct % 256 * 2 ^ 32 + (if c.sfuBusy then 2 ^ 40 else 0) + (if c.gang then 2 ^ 41 else 0) + q * 2 ^ 42 +
    claim * 2 ^ 44)

/-- The word at 0x0178. -/
def Pend.image (p : Pend) : W64 :=
  BitVec.ofNat 64 (p.g.toNat + p.p.toNat * 2 ^ 32 + p.v.toNat * 2 ^ 40 + p.m.toNat * 2 ^ 56)

/-- The words of a `dictld` in progress: bank and source; their places are the model's (log entry 15). -/
def DictLoad.image : Option DictLoad → W64
  | none => 0
  | some d => BitVec.ofNat 64 (1 + d.bank.toNat * 2 + d.src / 64 * 64)

/-- The system registers at 0x0180, in order. -/
def Ctx.imageRegs (c : Ctx) : List W64 :=
  [c.asid.setWidth 64, c.tcause, c.tval, c.trappc, c.tstat, c.tvec, c.tscratch0, c.tscratch1] ++ c.wscale.toList ++
    [c.dictctl, c.dictbase, c.lanepat, c.issued, if c.npsec then 1 else 0, c.npcount.setWidth 64, c.girthSel.setWidth 64,
      BitVec.ofNat 64 (packBits ((List.range 16).map fun i => c.pendAsync.any fun x => x.1 == 0x20 + i)),
      DictLoad.image c.dload]

/-- Registers g0 to g31; g0 as 0. -/
def Ctx.imageG (c : Ctx) : List W64 := (List.range 32).map fun i => c.rg (BitVec.ofNat 5 i)

/-- Copy-engine state at 0x0480 (R454). -/
def imageCopy (c : Ctx) (cp : Option CopyRun) (armed : Bool) : List W64 :=
  let act : List W64 := match cp with
    | some a => [BitVec.ofNat 64 (a.off % 2 ^ 32 + a.row % 2 ^ 16 * 2 ^ 32 + 2 ^ 63), a.src, a.dst, a.len, a.stride, a.ctl]
    | none => List.replicate 6 0
  act ++ [if armed then 1 else 0, c.cpsrc, c.cpdst, c.cplen, c.cpstride, c.cpctl]

/-- SFU request `q` in its 32 bytes; the places of the fields are the model's (log entry 15). -/
def SfuReq.image (fn : SfuFn → Nat) (q : SfuReq) : List W64 :=
  [q.a, q.b, BitVec.ofNat 64 (q.d.toNat + fn q.fn * 2 ^ 8 + (if q.acq then 2 ^ 16 else 0) +
    (if q.rel.isSome then 2 ^ 17 else 0)), BitVec.ofNat 64 q.next]

/-- Number of a function of the unit, in the order of R321. -/
def sfuCode : SfuFn → Nat
  | .rcp => 0 | .rsqrt => 1 | .sqrt => 2 | .exp2 => 3 | .log2 => 4 | .sinpi => 5 | .cospi => 6 | .tanh => 7
  | .sigmoid => 8 | .exp => 9 | .map => 10

/-- Bytes of a mask. -/
def imageMask (l : List Bool) : List Byte := toBytes ((l.length + 7) / 8) (packBits l)

/-- Bytes of a vector register. -/
def imageVec (l : List W32) : List Byte := l.flatMap fun w => toBytes 4 w.toNat

/-- The context's registers and state go to its save area (R374, R376): `claim` blocks were held. -/
def State.saveImage (s : State) (r : CtxRef) (claim : Nat) (cp : Option CopyRun) (armed : Bool) : State :=
  let c := s.ctx r
  let n := 32 * claim
  let at_ (off : Nat) : Nat := savePa r off
  -- unused bytes are unspecified
  let s := { (s.setDwords (at_ 0) ((List.range 2560).map fun i => Config.freeWord (s.tick + i))) with tick := s.tick + 2560 }
  let s := s.setDwords (at_ 0) (c.imageG ++ c.ls.toList ++ c.le.toList)
  let s := s.setBytes (at_ 0x140) (c.lc.toList.flatMap fun w => toBytes 4 w.toNat)
  let s := s.setDwords (at_ 0x150) [c.ja0, c.ja1, c.lr, putBits c.pc 0 3 c.slot.toNat, c.imageFlags (qpos r) claim, c.pend.image]
  let s := s.setDwords (at_ 0x180) c.imageRegs
  let s := s.setDwords (at_ 0x238) [c.pwrreq, c.energy]
  let s := s.setDwords (at_ 0x280) (c.savedSfu.flatMap (SfuReq.image sfuCode))
  let s := s.setDwords (at_ 0x480) (imageCopy c cp armed)
  let s := (List.range 4).foldl (fun s i => s.setBytes (at_ (0x500 + 32 * i)) (imageMask ((c.m.toList.getD i []).take n))) s
  let s := s.setDwords (at_ 0x800) ((List.range 256).map fun i => Table.get 0 c.dict i)
  (List.range 16).foldl (fun s i => s.setBytes (at_ (0x1000 + 0x400 * i)) (imageVec ((c.v.toList.getD i []).take n))) s

/-! ### Spilling (R375) -/

/-- After a reply or an acknowledgement for a PREEMPTED context: the destination's image, PEND and the counts in the save
area take what the context now holds. -/
def State.spill (s : State) (r : CtxRef) (regs : RegSet) : State :=
  let c := s.ctx r
  if c.st ≠ .preempted ∧ c.prior ≠ .preempted then s
  else
    let at_ (off : Nat) : Nat := savePa r off
    let s := (List.range 32).foldl (fun s i =>
      if regs.g.getLsbD i then s.setDword (at_ (8 * i)) (c.rg (BitVec.ofNat 5 i)) else s) s
    let s := (List.range 16).foldl (fun s i =>
      if regs.v.getLsbD i then s.setBytes (at_ (0x1000 + 0x400 * i)) (imageVec (c.v.toList.getD i [])) else s) s
    s.setDwords (at_ 0x170) [c.imageFlags (qpos r) c.savedClaim, c.pend.image]

/-! ### Reading back (R375, R378) -/

/-- `n` doublewords of the save area. -/
def State.saveDw (s : State) (r : CtxRef) (off : Nat) : W64 := s.dword (savePa r off)

/-- Asynchronous causes after resumption: those that became pending meanwhile and those that the image records. -/
def restoreAsync (live : List (Nat × W64)) (mask : W64) : List (Nat × W64) :=
  (List.range 16).filterMap fun i =>
    match Table.find live (0x20 + i) with
    | some v => some (0x20 + i, v)
    | none => if bit mask i then some (0x20 + i, 0) else none

/-- Writable bits of the copy registers. -/
def cplenMask : W64 := ones 0 48
def cpctlMask : W64 := ones 1 12 ||| ones 16 16

/-- Bits of the saved system registers that are fields; the others are reserved, and read 0 whatever the save area holds in
them (R6, R22, R215, R302, R373, R398). -/
def imageMasks : List W64 :=
  [ones 0 16, ones 0 7, ones 0 64, ones 0 2 ||| ones 3 61, ones 0 3, ones 3 61, ones 0 64, ones 0 64] ++
    List.replicate 5 (ones 0 46) ++ [ones 0 5, ones 0 56, ones 0 34]

/-- The registers and state read back; `claim` blocks are held again. The dictionary loads again what a `dictld` in
progress named (R230). -/
def State.loadImage (s : State) (r : CtxRef) (c : Ctx) (claim : Nat) : Ctx :=
  let dw (off : Nat) : W64 := s.saveDw r off
  let f := dw 0x170
  let pd := dw 0x178
  let n := 32 * claim
  let reg (i : Nat) : W64 := dw (0x180 + 8 * i) &&& imageMasks.getD i (ones 0 64)
  let bytesAt (off k : Nat) : List Byte := s.bytes (savePa r off) k
  { c with
    g := Vector.ofFn fun i : Fin 32 => dw (8 * i.val)
    ls := Vector.ofFn fun i : Fin 4 => dw (0x100 + 8 * i.val)
    le := Vector.ofFn fun i : Fin 4 => dw (0x120 + 8 * i.val)
    lc := Vector.ofFn fun i : Fin 4 => s.word (savePa r (0x140 + 4 * i.val))
    ja0 := dw 0x150
    ja1 := dw 0x158
    lr := dw 0x160
    pc := putBits (dw 0x168) 0 3 0
    slot := BitVec.ofNat 2 (bits (dw 0x168) 0 2)
    p := BitVec.ofNat 8 (bits f 0 8)
    ocl := bits f 8 8
    ocs := bits f 16 8
    occ := bits f 24 8
    oct := bits f 32 8
    sfuBusy := bit f 40
    pend := ⟨BitVec.ofNat 32 (bits pd 0 32), BitVec.ofNat 8 (bits pd 32 8), BitVec.ofNat 16 (bits pd 40 16),
      BitVec.ofNat 4 (bits pd 56 4)⟩
    asid := (reg 0).setWidth 16
    tcause := reg 1
    tval := reg 2
    trappc := reg 3
    tstat := reg 4
    tvec := reg 5
    tscratch0 := reg 6
    tscratch1 := reg 7
    wscale := Vector.ofFn fun i : Fin 5 => reg (8 + i.val)
    dactive := BitVec.ofNat 2 (bits (reg 13) 0 2)
    dictbase := reg 14
    lanepat := reg 15
    issued := reg 16
    npsec := bit (reg 17) 0
    npcount := (reg 18).setWidth 32
    girthSel := BitVec.ofNat 3 (bits (reg 19) 0 3)
    pendAsync := restoreAsync c.pendAsync (reg 20)
    dload := none
    lbank := BitVec.ofNat 2 (bits (reg 13) 3 2)
    pwrreq := dw 0x238 &&& ones 0 9
    energy := dw 0x240
    m := Vector.ofFn fun i : Fin 4 =>
      let x := ofBytes (bytesAt (0x500 + 32 * i.val) (4 * claim))
      (List.range n).map fun j => x / 2 ^ j % 2 = 1
    v := Vector.ofFn fun i : Fin 16 => (List.range n).map fun j => s.word (savePa r (0x1000 + 0x400 * i.val + 4 * j))
    dict := (List.range 256).foldl (fun t i => Table.set 0 t i (dw (0x800 + 8 * i))) []
    dictOld := [] }

/-- The load that the image records as in progress. -/
def State.imageLoad (s : State) (r : CtxRef) : Option DictLoad :=
  let x := s.saveDw r (0x180 + 8 * 21)
  if bit x 0 then some ⟨BitVec.ofNat 2 (bits x 1 2), bits x 6 13 * 64⟩ else none

end Sys2Proof.Machine
end

