-- ==== Sys2Proof/Machine/Engine.lean ====
section
/-! DEFINITION. The matrix unit and the copy engine (R328 to R353): the command queue, operands, `mma`, `mdist`,
`topk`, accumulator slots, the epilogue with its output buffer, copies, engine faults and count-down. An event carries
out as many of R338's steps (or rows, elements, chunks) as its argument says, all that remain when it says none. -/

namespace Sys2Proof.Machine

/-! ### Accesses of an engine -/

/-- A local-memory address of an engine: core, offset, window code. -/
def State.engLoc (s : State) (r : CtxRef) (va : W64) : Option (Nat × Nat × Nat) :=
  if canonical va ∧ bit va 55 then
    match s.aperture r va with
    | some (.loc c o code) => some (c, o, code)
    | _ => none
  else none

/-- Reason 4 or 5 of R347 for one bank access. -/
def State.locReason (s : State) (r : CtxRef) (core off n code : Nat) (write : Bool) : Option Nat :=
  match s.localCheck r core off n code write with
  | none => none
  | some 0x0A => some 5
  | some _ => some 4

/-- The bank checks of a run of local bytes, one for each aligned 64 bytes (R73): reason and failing offset. -/
def State.locRange (s : State) (r : CtxRef) (core off n code : Nat) (write : Bool) : Option (Nat × Nat) :=
  if n = 0 then none
  else
    (List.range ((off + n - 1) / 64 - off / 64 + 1)).findSome? fun i =>
      let b := (off / 64 + i) * 64
      let lo := max b off
      (s.locReason r core lo (min (b + 64) (off + n) - lo) code write).map fun x => (x, lo)

/-- How a translated access of an engine ends: physical address and leaf, a translation cause, a leaf refusal by W or
S, a reason of R347, or a line of the tables that the home must have back from the host first. -/
inductive EngXlate where
  | ok (pa : Nat) (leaf : W64)
  | cause (code : Nat)
  | refused
  | reason (n : Nat)
  | wait
deriving DecidableEq, Repr

/-- The entry that translates an address for an engine: a TLB's, else that of a walk made at once. -/
def State.engEntry (s : State) (r : CtxRef) (asid : BitVec 16) (va : W64) (write : Bool) : State × WalkSet :=
  let walk (s : State) (setD : Bool) : State × WalkSet :=
    match s.walkSet r.site asid va.toNat setD with
    | (s, .entry e) => (s.tlbPut r.site r.core e, .entry e)
    | x => x
  match s.tlbFind r.site r.core asid va.toNat with
  | some e => if write ∧ leafW e.leaf ∧ !leafD e.leaf then walk s true else (s, .entry e)
  | none => walk s write

/-- What a leaf says of an engine's access through window `win`, made in system mode or not (R14, R21, R329, R347 reasons 3 and 6,
R343, R351): of two reasons the lower; a write that the leaf refuses by W or S is no reason, but parks. -/
def State.engLeaf (s : State) (sys : Bool) (va : W64) (win : Nat) (write : Bool) (e : TlbEntry) : EngXlate :=
  let pa := e.pa va.toNat
  let system := leafSystem e.leaf pa && !sys
  let never := leafMT e.leaf == 2 || leafXO e.leaf
  let odd := !s.hasTarget pa || s.noReg pa || frameWindow e.leaf pa || leafFmt e.leaf != win || decide (5 < leafFmt e.leaf)
  if write && system then .refused
  else if odd && (!write || never) then .reason 3
  else if system || never then .reason 6
  else if write && !leafW e.leaf then .refused
  else if odd then .reason 3
  else .ok pa e.leaf

/-- What comes of a translation for an engine's access. -/
def State.engAt (s : State) (r : CtxRef) (va : W64) (win : Nat) (write : Bool) : WalkSet → EngXlate
  | .cause c => if c = 0x0E then .reason 3 else .cause c
  | .wait => .wait
  | .entry e => s.engLeaf (s.ctx r).sys va win write e

/-- A translated access of an engine; D is set for a write that nothing else stops (R36). An address that no translation serves, a
non-canonical one included, ends in reason 3 of R347, which speaks of engines, and not in cause 0x09, which R8 names for an
access of any agent (log entry 59). -/
def State.engXlate (s : State) (r : CtxRef) (asid : BitVec 16) (va : W64) (win : Nat) (write : Bool) : State × EngXlate :=
  if !canonical va ∨ bit va 55 then (s, .reason 3)
  else
    let (s, x) := s.engEntry r asid va false
    match s.engAt r va win write x with
    | .ok pa leaf =>
      if !write || leafD leaf then (s, .ok pa leaf)
      else
        let (s, x) := s.engEntry r asid va true
        (s, s.engAt r va win write x)
    | y => (s, y)

/-- The reason for which an access of an engine within one line would end now, with its address: nothing is changed, and a
walk that fails or a refusal by W or S is a reason for a read only (R347). -/
def State.engWhy (s : State) (r : CtxRef) (asid : BitVec 16) (va : W64) (n win : Nat) (write : Bool) : Option (Nat × W64) :=
  match s.engLoc r va with
  | some (c, o, code) =>
    if code ≠ win ∨ 5 < code ∨ 524288 < o + n then some (3, va)
    else (s.locRange r c o n code write).map fun x => (x.1, va + BitVec.ofNat 64 (x.2 - o))
  | none =>
    if !canonical va ∨ bit va 55 then some (3, va)
    else
      let e : WalkSet :=
        match s.tlbFind r.site r.core asid va.toNat with
        | some e => .entry e
        | none =>
          match s.walkVa r.site asid va.toNat with
          | .leaf _ e size => .entry ⟨asid, va.toNat / size * size, size, e, true⟩
          | .cause c => .cause c
      match e with
      | .cause c => if c = 0x0E then some (3, va) else if write then none else some (6, va)
      | .wait => none
      | .entry e =>
        match s.engLeaf (s.ctx r).sys va win write e with
        | .reason x => some (x, va)
        | _ => none

/-- What a read by an engine gives: bytes, a reason with its address, or nothing yet. -/
inductive EngRead where
  | ok (bs : List Byte)
  | fault (reason : Nat) (va : W64)
  | wait
deriving DecidableEq, Repr

/-- A read of a line that an engine's job asks the home for, past L1 (R124); its number. None while the core's injection
queue is full. -/
def State.engAsk (s : State) (r : CtxRef) (asid : BitVec 16) (va : W64) (pa : Nat) (leaf : W64) (job : Nat) :
    Option (State × Nat) :=
  if s.injFull r (s.homeOf pa leaf) then none
  else
    let id := s.nextId
    let s := s.sendAs r asid va (pa / 128 * 128) leaf (.load (.engine job)) .sent []
    some (s.modReq id fun q => { q with install := false }, id)

/-- Where the bytes of an engine's read lie, within one line: in local memory, or at a global target. -/
inductive EngSrc where
  | bytes (bs : List Byte)
  | far (pa : Nat) (leaf : W64)
  | fault (reason : Nat) (va : W64)
  | wait
deriving DecidableEq, Repr

/-- The checks of a read of `n` bytes within one line, through a window that must be `win`. -/
def State.engSrc (s : State) (r : CtxRef) (asid : BitVec 16) (va : W64) (n win : Nat) : State × EngSrc :=
  match s.engLoc r va with
  | some (c, o, code) =>
    if code ≠ win ∨ 5 < code ∨ 524288 < o + n then (s, .fault 3 va)
    else
      match s.locRange r c o n code false with
      | some (x, bad) => (s, .fault x (va + BitVec.ofNat 64 (bad - o)))
      | none =>
        let s := s.powerUp r.site c o n
        (s, .bytes (s.bytes (lmemPa r.site c o) n))
  | none =>
    match s.engXlate r asid va win false with
    | (s, .reason x) => (s, .fault x va)
    | (s, .cause _) => (s, .fault 6 va)
    | (s, .refused) => (s, .fault 6 va)
    | (s, .wait) => (s, .wait)
    | (s, .ok pa leaf) => (s, .far pa leaf)

/-- Read `n` bytes within one line for a command: a global line is asked for once and kept for the command until it ends. -/
def State.engLoad (s : State) (r : CtxRef) (asid : BitVec 16) (va : W64) (n win job : Nat) : State × EngRead :=
  match s.engSrc r asid va n win with
  | (s, .bytes bs) => (s, .ok bs)
  | (s, .fault x bad) => (s, .fault x bad)
  | (s, .wait) => (s, .wait)
  | (s, .far pa leaf) =>
    let line := s.lineOf pa
    match (s.core r.site r.core).ebuf.find? fun e => e.job = job ∧ e.line = line with
    | some e => (s, .ok ((e.data.drop (pa % 128)).take n))
    | none =>
      if s.reqs.any fun q => q.who == r && s.lineOf q.pa == line && q.kind == .load (.engine job) then (s, .wait)
      else
        match s.engAsk r asid va pa leaf job with
        | some (s, _) => (s, .wait)
        | none => (s, .wait)

/-- A write by an engine at a global target: byte-masked to the home, merged into the die's copy, L1 copies dropped
(R124). -/
def State.engStore (s : State) (r : CtxRef) (asid : BitVec 16) (va : W64) (pa : Nat) (leaf : W64) (job : Nat)
    (bs : List (Nat × Byte)) : State :=
  let line := s.lineOf pa
  let s := (s.rdcPass r.site line bs true).l1Drop r.site line none
  s.sendAs r asid va (pa / 128 * 128) leaf (.store bs job) .sent []

/-- Engine stores in the replay queue hold at most 12 of its 16 entries, of which those of stores in their walks are taken (R130,
R343). -/
def Core.engRoom (k : Core) : Bool :=
  decide ((k.rq.filter fun e => e.src != .store).length < 12) && decide (k.rq.length + k.stw.length < 16)

/-- The bytes of a line that a list gives, ascending, the last of each. -/
def lineBytes (l : List (Nat × Byte)) : List (Nat × Byte) :=
  (List.range 128).filterMap fun i => l.reverse.find? fun b => b.1 = i

/-- Runs of adjacent bytes of a line: first offset and length. -/
def runsOf (l : List (Nat × Byte)) : List (Nat × Nat) :=
  ((lineBytes l).map (·.1)).foldl (fun a i =>
    match a.getLast? with
    | some (o, n) => if o + n = i then a.dropLast ++ [(o, n + 1)] else a ++ [(i, 1)]
    | none => [(i, 1)]) []

/-- A replay entry for bytes of a line: the span from the first to the last of them, with its gaps. -/
def lineEntry (r : CtxRef) (asid : BitVec 16) (line : W64) (bs : List (Nat × Byte)) (win job : Nat) (src : ReplaySrc)
    (tag : BitVec 16) (inTrap sys : Bool) : ReplayEntry :=
  let l := lineBytes bs
  let lo := (l.map (·.1)).headD 0
  let n := ((l.map (·.1)).getLastD 0) + 1 - lo
  let at_ (i : Nat) : Option Byte := (l.find? fun b => b.1 = lo + i).map (·.2)
  { ctx := r.ctx, asid := asid, va := putBits line 0 7 lo
    data := (List.range n).map fun i => (at_ i).getD 0
    faulted := false, src := src, win := win, inTrap := inTrap, job := job, retry := false, tag := tag, id := 0
    holes := (List.range n).filter fun i => (at_ i).isNone
    sys := sys }

/-- The bytes of an entry's store, by offset in its line. -/
def ReplayEntry.bytes (e : ReplayEntry) : List (Nat × Byte) :=
  (runAt (e.va.toNat % 128) e.data).filter fun b => !e.holes.contains (b.1 - e.va.toNat % 128)

/-- An engine's write of bytes of the line at `line`: performed on its way, parked, refused with a reason, or held back for
want of a replay entry or of a line of the tables (none). An entry of an ended context does not park. -/
def State.engWrite (s : State) (r : CtxRef) (asid : BitVec 16) (line : W64) (bs : List (Nat × Byte)) (win job : Nat)
    (src : ReplaySrc) (tag : BitVec 16) (dead : Bool) : Option (State × Option (Nat × W64)) :=
  let bs := lineBytes bs
  let va := putBits line 0 7 ((bs.map (·.1)).headD 0)
  match s.engLoc r line with
  | some (c, o, code) =>
    if code ≠ win ∨ 5 < code then some (s, some (3, va))
    else
      match (runsOf bs).findSome? fun x => s.locRange r c (o + x.1) x.2 code true with
      | some (x, bad) => some (s, some (x, line + BitVec.ofNat 64 (bad - o)))
      | none =>
        let s := (runsOf bs).foldl (fun s x => s.powerUp r.site c (o + x.1) x.2) s
        some (bs.foldl (fun s b => s.setByte (lmemPa r.site c (o + b.1)) b.2) s, none)
  | none =>
    let e := lineEntry r asid line bs win job src tag (s.ctx r).inHandler (s.ctx r).sys
    let park (s : State) (code : Option Nat) : Option (State × Option (Nat × W64)) :=
      if dead then some (s, none)
      else if (s.core r.site r.core).engRoom then some ((s.parkStore r { e with id := s.nextId } code).takeId, none)
      else none
    if !dead && s.pageParked r va then park s none
    else
      match s.engXlate r asid va win true with
      | (s, .reason x) => some (s, some (x, va))
      | (s, .cause c) => park s (some c)
      | (s, .refused) => park s (some 0x09)
      | (_, .wait) => none
      | (s, .ok pa leaf) =>
        if s.injFull r (s.homeOf pa leaf) then none
        else some (s.engStore r asid va pa leaf job bs, none)

/-! ### Writes of earlier work (R346) -/

/-- Physical address that an engine address names now. -/
def State.engPa (s : State) (r : CtxRef) (asid : BitVec 16) (va : W64) : Option Nat :=
  match s.engLoc r va with
  | some (c, o, _) => some (lmemPa r.site c o)
  | none =>
    match s.tlbFind r.site r.core asid va.toNat with
    | some e => some (e.pa va.toNat)
    | none =>
      match s.walkVa r.site asid va.toNat with
      | .leaf _ e size => some (leafFrame e size + va.toNat % size)
      | .cause _ => none

/-- The byte that an engine address names: its place in memory, or, where nothing translates it now, the address in its ASID,
above all places. -/
def State.engKey (s : State) (r : CtxRef) (asid : BitVec 16) (va : W64) : Nat :=
  match s.engPa r asid va with
  | some pa => s.canon pa
  | none => (asid.toNat + 1) * 18446744073709551616 + va.toNat

/-- A job number is a copy's. -/
def Core.copyJob (k : Core) (job : Nat) : Bool :=
  (match k.cp with | some a => a.job == job | none => false) || k.chunks.any (fun c => c.job == job) ||
    k.jobs.any fun j => j.job == job && j.kind == .copy

/-- The bytes that a context's earlier work on one engine has still to write, parked stores among it. -/
def State.engOut (s : State) (r : CtxRef) (copy : Bool) (but : Nat) : List Nat :=
  let k := s.core r.site r.core
  let lines (asid : BitVec 16) (va : W64) (os : List Nat) : List Nat :=
    let at_ := s.engKey r asid (putBits va 0 7 0)
    os.map fun o => at_ + o
  let q := s.reqs.flatMap fun q =>
    match q.kind with
    | .store bs job =>
      if q.who = r ∧ job ≠ 0 ∧ job ≠ but ∧ k.copyJob job = copy then bs.map fun b => s.canon (q.pa / 128 * 128) + b.1 else []
    | _ => []
  let p := k.rq.flatMap fun e =>
    if e.ctx = r.ctx ∧ e.src ≠ .store ∧ e.job ≠ but ∧ (e.src = .copy) = copy then lines e.asid e.va (e.bytes.map (·.1)) else []
  let o := if copy then
      k.chunks.flatMap fun c =>
        if c.ctx = r.ctx ∧ !c.dead ∧ c.job ≠ but ∧ c.peer ≠ 2 then
          lines c.asid c.dst ((List.range c.n).map fun i => c.dst.toNat % 128 + i) else []
    else k.obuf.flatMap fun e => if e.ctx = r.ctx ∧ !e.dead ∧ e.job ≠ but then lines e.asid e.va (e.data.map (·.1)) else []
  q ++ p ++ o

/-- The bytes that a context's earlier copies have still to read. -/
def State.engIn (s : State) (r : CtxRef) (but : Nat) : List Nat :=
  (s.core r.site r.core).chunks.flatMap fun c =>
    if c.ctx = r.ctx ∧ !c.dead ∧ c.job ≠ but ∧ c.peer ≠ 1 ∧ c.stage = .reading then
      let at_ := s.engKey r c.asid c.src
      (List.range c.n).map fun o => at_ + o
    else []

/-- A run of bytes meets a byte still to be written. -/
def meetsOut (out : List Nat) (key n : Nat) : Bool := out.any fun b => decide (key ≤ b) && decide (b < key + n)

/-! ### Commands (R330, R331, R333) -/

/-- A field of a command's doubleword. -/
def MxCmd.f (m : MxCmd) (i lo n : Nat) : Nat := bits (m.dw.toList.getD i 0) lo n

/-- Doubleword of a command. -/
def MxCmd.d (m : MxCmd) (i : Nat) : W64 := m.dw.toList.getD i 0

def MxCmd.opc (m : MxCmd) : Nat := m.f 0 0 4
def MxCmd.slot (m : MxCmd) : Nat := m.f 0 4 3
def MxCmd.acq (m : MxCmd) : Bool := m.f 0 7 1 = 1
def MxCmd.rel (m : MxCmd) : Bool := m.f 0 8 1 = 1
def MxCmd.scope (m : MxCmd) : Nat := m.f 0 9 3
def MxCmd.rows (m : MxCmd) : Nat := m.f 0 12 6 + 1
def MxCmd.cols (m : MxCmd) : Nat := m.f 0 18 6 + 1
def MxCmd.k (m : MxCmd) : Nat := m.f 0 24 16
def MxCmd.bt (m : MxCmd) : Bool := m.f 0 40 1 = 1
def MxCmd.scl (m : MxCmd) : Bool := m.f 0 41 1 = 1
def MxCmd.tag (m : MxCmd) : BitVec 16 := BitVec.ofNat 16 (m.f 7 0 16)

/-- Scope codes of R98. -/
def scopeOf (n : Nat) : Option Scope :=
  match n with
  | 0 => some .core | 1 => some .cluster | 2 => some .die | 3 => some .module | 4 => some .system | _ => none

/-- A row of R335. -/
structure MxRow where
  type : Nat
  group : Nat
  esA : Nat
  esB : Nat
deriving DecidableEq, Repr

/-- The row of R335 that the windows of A and B and RAWT form. -/
def mxRow (a b : Nat) (rawt : Bool) : Option MxRow :=
  let fp8 (x : Nat) : Bool := x = 1 || x = 2
  let f16 (x : Nat) : Bool := x = 3 || x = 4
  if !rawt && fp8 a && fp8 b then some ⟨0, 128, 1, 1⟩
  else if !rawt && a = 5 && b = 5 then some ⟨1, 128, 1, 1⟩
  else if !rawt && f16 a && f16 b then some ⟨0, 32, 2, 2⟩
  else if a = 0 && b = 0 then some (if rawt then ⟨2, 4, 8, 8⟩ else ⟨0, 8, 4, 4⟩)
  else none

/-- Windows of A and B. -/
def MxCmd.winA (m : MxCmd) : Nat := m.f 1 19 3
def MxCmd.winB (m : MxCmd) : Nat := m.f 2 19 3

/-- Row of R335 of a command with operands. -/
def MxCmd.row (m : MxCmd) : Option MxRow := mxRow m.winA m.winB (m.f 0 42 1 = 1)

/-- Bits that a kind of command may set, by doubleword (R331). -/
def mxAllowed (m : MxCmd) : List W64 :=
  let all := ones 0 64
  let tag := ones 0 16
  let s (b : Bool) : W64 := if b then all else 0
  match m.opc with
  | 3 => [(ones 0 4 ||| ones 7 43) &&& ~~~(ones 41 1), all, all, ones 0 60, all, ones 0 32, 0, tag]
  | 4 => [ones 0 12 ||| ones 24 2, 0, 0, 0, 0, 0, 0, tag]
  | 5 => [ones 0 26, all, 0, ones 0 20, 0, 0, 0, tag]
  | 6 => [ones 0 35, all, 0, ones 0 20, s (m.f 0 25 2 = 1), s (m.f 0 27 1 = 1),
      (if m.f 0 25 2 = 2 then ones 0 32 else 0) ||| (if m.f 0 28 4 = 2 then ones 32 32 else 0), tag]
  | _ => [ones 0 43, all, all, ones 0 40, s m.scl, s m.scl, s m.scl, tag]

/-- A malformed command (R333), given the type of the slot that it names. -/
def MxCmd.malformed (m : MxCmd) (slotType : Nat) : Bool :=
  let o := m.opc
  o = 0 || 6 < o ||
    (List.range 8).any (fun i => m.d i &&& ~~~(mxAllowed m).getD i 0 != 0) ||
    (m.scope ≠ 0 && !m.acq && !m.rel) ||
    ((o = 4 || o = 5) && m.f 0 24 2 = 3) ||
    (o = 6 && (m.f 0 25 2 = 3 || 4 < m.f 0 32 3 || 4 < m.f 0 28 4)) ||
    (o = 3 && (m.f 0 45 5 = 0 || 16 < m.f 0 45 5)) ||
    (o ≤ 3 && m.row = none) ||
    (o ≤ 2 && m.scl && (!(m.winA = 1 || m.winA = 2) || m.f 6 32 16 % 128 ≠ 0)) ||
    (o = 3 && (m.row.map (·.type)) = some 2) ||
    (let fp64 := match o with
        | 5 => m.f 0 24 2 = 2
        | 6 => slotType = 2
        | 1 => slotType = 2
        | 2 => slotType = 2
        | _ => false
      fp64 && (31 < m.f 0 18 6 || (o = 6 && (m.f 0 28 4 = 3 || m.f 0 28 4 = 4))))

/-! ### Local operands (R334, R336) -/

/-- Rows of local bytes that a command reads or writes: base address, first offset from it, rows, distance, bytes of a
row, element size, and whether the window must be RAW. -/
structure Span where
  va : W64
  skip : Nat
  rows : Nat
  str : Nat
  len : Nat
  es : Nat
  raw : Bool
  write : Bool
deriving DecidableEq, Repr

/-- Reasons 3, 4 and 5 for a span, each with its address. -/
def State.spanFaults (s : State) (r : CtxRef) (sp : Span) : List (Nat × W64) :=
  match s.engLoc r sp.va with
  | none => [(3, sp.va)]
  | some (c, o, code) =>
    let bad := 5 < code || (sp.raw && code ≠ 0) || sp.va.toNat % sp.es ≠ 0 || sp.str % sp.es ≠ 0
    if bad then [(3, sp.va)]
    else if sp.rows = 0 ∨ sp.len = 0 then []
    else if 524288 < o + sp.skip + (sp.rows - 1) * sp.str + sp.len then
      -- the first element that leaves the core
      (((List.range sp.rows).map fun i => o + sp.skip + i * sp.str).find? fun a => decide (524288 < a + sp.len)).toList.map
        fun a => (3, sp.va + BitVec.ofNat 64 (max a 524288 - o))
    else (List.range sp.rows).filterMap fun i =>
      let a := o + sp.skip + i * sp.str
      (s.locRange r c a sp.len code sp.write).map fun e => (e.1, sp.va + BitVec.ofNat 64 (e.2 - o))

/-- The banks of a command's spans power up where one is gated (R68). -/
def State.powerSpans (s : State) (r : CtxRef) (l : List Span) : State :=
  l.foldl (fun s sp =>
    match s.engLoc r sp.va with
    | none => s
    | some (c, o, _) => (List.range sp.rows).foldl (fun s i => s.powerUp r.site c (o + sp.skip + i * sp.str) sp.len) s) s

/-- A span meets bytes that earlier work has still to write. -/
def State.spanWaits (s : State) (r : CtxRef) (out : List Nat) (sp : Span) : Bool :=
  match s.engLoc r sp.va with
  | none => false
  | some (c, o, _) => (List.range sp.rows).any fun i =>
    meetsOut out (s.canon (lmemPa r.site c (o + sp.skip + i * sp.str))) sp.len

/-- Element bits at a byte distance from a local base address. -/
def State.elemAt (s : State) (r : CtxRef) (va : W64) (dist es : Nat) : Nat :=
  match s.engLoc r va with
  | some (c, o, _) => ofBytes (s.bytes (lmemPa r.site c (o + dist)) es)
  | none => 0

/-- Number of groups. -/
def MxCmd.groups (m : MxCmd) : Nat :=
  match m.row with
  | some w => (m.k + w.group - 1) / w.group
  | none => 0

/-- Spans of A and B. -/
def MxCmd.abSpans (m : MxCmd) : List Span :=
  match m.row with
  | none => []
  | some w =>
    let a : Span := ⟨m.d 1, 0, m.rows, m.f 3 0 20, m.k * w.esA, w.esA, false, false⟩
    let b : Span := if m.bt then ⟨m.d 2, 0, m.cols, m.f 3 20 20, m.k * w.esB, w.esB, false, false⟩
      else ⟨m.d 2, 0, m.k, m.f 3 20 20, m.cols * w.esB, w.esB, false, false⟩
    [a, b]

/-- Spans of the scale arrays (R336). -/
def MxCmd.scaleSpans (m : MxCmd) : List Span :=
  if !m.scl then []
  else
    let korg := m.f 6 32 16 / 128
    let norg := m.f 6 48 16
    let sw := m.f 6 16 16
    [⟨m.d 4, 4 * korg, m.rows, 4 * m.f 6 0 16, 4 * m.groups, 4, true, false⟩,
     ⟨m.d 5, 4 * (korg * sw + norg / 128), m.groups, 4 * sw, 4 * ((norg % 128 + m.cols - 1) / 128 + 1), 4, true, false⟩]

/-- Spans of the list of `topk` and of the vectors of `epi`. -/
def MxCmd.otherSpans (m : MxCmd) : List Span :=
  if m.opc = 3 then [⟨m.d 4, 0, m.rows, m.f 3 40 20, 8 * m.f 0 45 5, 8, true, true⟩]
  else if m.opc = 6 then
    (if m.f 0 25 2 = 1 then [⟨m.d 4, 0, 1, 0, 4 * m.cols, 4, true, false⟩] else []) ++
      (if m.f 0 27 1 = 1 then [⟨m.d 5, 0, 1, 0, 4 * m.cols, 4, true, false⟩] else [])
  else []

/-- Every local span of a command. -/
def MxCmd.spans (m : MxCmd) : List Span :=
  (if m.opc ≤ 3 then m.abSpans ++ (if m.opc = 3 then [] else m.scaleSpans) else []) ++ m.otherSpans

/-! ### Arithmetic of one element (R337, R338) -/

/-- An operand element as an exact value, by window. -/
def mxDecode (code : Nat) (rawt : Bool) (b : Nat) : Fp :=
  match windowFmt code with
  | some f => f.decode b
  | none => if code = 5 then Fp.ofInt (BitVec.ofNat 8 b).toInt else if rawt then Fmt.fp64.decode b else Fmt.fp32.decode b

/-- A(m, k) and B(k, n), as bits (R334). -/
def State.mxA (s : State) (r : CtxRef) (c : MxCmd) (w : MxRow) (m k : Nat) : Nat :=
  s.elemAt r (c.d 1) (m * c.f 3 0 20 + k * w.esA) w.esA
def State.mxB (s : State) (r : CtxRef) (c : MxCmd) (w : MxRow) (k n : Nat) : Nat :=
  s.elemAt r (c.d 2) (if c.bt then n * c.f 3 20 20 + k * w.esB else k * c.f 3 20 20 + n * w.esB) w.esB

/-- The scales of group `g` for element (m, n); 1.0 without SCL. -/
def State.mxScales (s : State) (r : CtxRef) (c : MxCmd) (m n g : Nat) : Fp × Fp :=
  if !c.scl then (Fp.ofInt 1, Fp.ofInt 1)
  else
    let kk := (c.f 6 32 16 + 128 * g) / 128
    (Fmt.fp32.decode (s.elemAt r (c.d 4) (4 * (m * c.f 6 0 16 + kk)) 4),
     Fmt.fp32.decode (s.elemAt r (c.d 5) (4 * (kk * c.f 6 16 16 + (c.f 6 48 16 + n) / 128)) 4))

/-- The running value of element (m, n) after group `g`, from the value `acc` before it; `dist` for `mdist` terms. -/
def State.mxGroup (s : State) (r : CtxRef) (c : MxCmd) (w : MxRow) (dist : Bool) (m n g : Nat) (acc : Nat) : Nat :=
  let ks := (List.range (min ((g + 1) * w.group) c.k - g * w.group)).map fun i => g * w.group + i
  let rawt := w.type = 2
  let ab := ks.map fun k => (mxDecode c.winA rawt (s.mxA r c w m k), mxDecode c.winB rawt (s.mxB r c w k n))
  if w.type = 1 then
    let vals := ks.map fun k => ((BitVec.ofNat 8 (s.mxA r c w m k)).toInt, (BitVec.ofNat 8 (s.mxB r c w k n)).toInt)
    (BitVec.ofInt 32 (groupInt (BitVec.ofNat 32 acc).toInt
      (vals.map fun v => if dist then (v.1 - v.2) * (v.1 - v.2) else v.1 * v.2))).toNat
  else
    let f := if w.type = 2 then Fmt.fp64 else Fmt.fp32
    let cur := f.decode acc
    let (sa, sw) := s.mxScales r c m n g
    let sq (x : Fp) : Fp := Fp.mul x x
    let t := ab.map fun v =>
      if dist then sq (Fp.add .ne (Fp.mul sa v.1) (Fp.mul sw v.2).neg) else Fp.mul v.1 v.2
    if w.group = 128 then groupSum f [cur, if dist then Fp.sumProducts t else scaledTerm t sa sw]
    else groupSum f (cur :: t)

/-! ### Faults, ends and counters (R330, R347, R348) -/

/-- A fault record takes a fault of the matrix unit or of the copy engine: the first one stands while VALID, NDISC grows
(R348). -/
def faultRecord (old : W64) (copy : Bool) (reason : Nat) (tag : BitVec 16) (ndisc : Nat) : W64 :=
  if bit old 0 then putBits (putBits old 5 1 1) 8 8 (min 255 (bits old 8 8 + ndisc))
  else BitVec.ofNat 64 (1 + reason * 2 + 32 + (if copy then 64 else 0) + min 255 ndisc * 256 + tag.toNat * 65536)

/-- The recorded commands of a PREEMPTED context leave its accumulator-save region (R377). -/
def State.wipeCmds (s : State) (r : CtxRef) : State :=
  match (if (s.ctx r).saved then (s.ctx r).saveAt else none) with
  | none => s
  | some o => (s.setDword o (s.dword o &&& ~~~ones 24 5)).setDword (o + 0x80) 0

/-- An engine fault of the matrix unit: record, cause 0x24, the context's other commands discarded, those recorded by a pre-emption
too (R348). -/
def State.mxFault (s : State) (r : CtxRef) (job : Nat) (tag : BitVec 16) (reason : Nat) (va : W64) : State :=
  let k := s.core r.site r.core
  let c := s.ctx r
  let all := (k.mxq.filter fun m => m.ctx = r.ctx) ++ c.savedMx
  let later := all.filter fun m => m.job ≠ job
  let rec_ := faultRecord c.mxfault false reason tag later.length
  let s := s.modCtx r fun x =>
    { x with
      mxfault := rec_
      mxfaddr := if bit c.mxfault 0 then x.mxfaddr else va
      savedMx := []
      oct := x.oct - later.length }
  let s := (((s.wipeCmds r).spill r RegSet.empty).pendCause r 0x24 rec_).wake r
  let mine := all.any fun m => m.job = job
  s.modCore r.site r.core fun k =>
    { k with
      mxq := k.mxq.filter fun m => m.ctx ≠ r.ctx
      ebuf := k.ebuf.filter fun e => e.job != job
      jobs := if mine then k.jobs ++ [⟨r.ctx, job, .matrix, none, none⟩] else k.jobs }

/-- The copy-engine words of a PREEMPTED context's save area, when its recorded copy or armed shadow is gone (R454). -/
def State.wipeCopy (s : State) (r : CtxRef) (act armed : Bool) : State :=
  if !(s.ctx r).saved then s
  else
    let s := if act then s.setDword (savePa r 0x480) (s.dword (savePa r 0x480) &&& ~~~ones 63 1) else s
    if armed then s.setDword (savePa r 0x4B0) 0 else s

/-- A context's shadow set is armed: in the engine, or as its save area records it (R454). -/
def State.shadowArmed (s : State) (r : CtxRef) : Bool :=
  (s.ctx r).cpArmed || ((s.ctx r).saved && bit (s.saveDw r 0x4B0) 0)

/-- An engine fault of the copy engine; the context's armed shadow is disarmed. The copy ends, be it active or recorded by
a pre-emption. -/
def State.cpFault (s : State) (r : CtxRef) (job : Nat) (tag : BitVec 16) (reason : Nat) (va : W64) : State :=
  let c := s.ctx r
  let n := if s.shadowArmed r then 1 else 0
  let rec_ := faultRecord c.cpfault true reason tag n
  let saved := match c.savedCp with | some a => decide (a.job = job) | none => false
  let s := s.modCtx r fun x =>
    { x with
      cpfault := rec_
      cpfaddr := if bit c.cpfault 0 then x.cpfaddr else va
      cpArmed := false
      savedCp := if saved then none else x.savedCp
      occ := x.occ - n }
  let s := (s.wipeCopy r saved true).spill r RegSet.empty
  let s := (s.pendCause r 0x24 rec_).wake r
  s.modCore r.site r.core fun k =>
    let mine := match k.cp with | some a => decide (a.job = job) | none => false
    { k with
      cp := if mine then none else k.cp
      cpLast := if mine then r.ctx else k.cpLast
      jobs := if mine || saved then k.jobs ++ [⟨r.ctx, job, .copy, none, none⟩] else k.jobs }

/-- The lowest reason of a list. -/
def lowest (l : List (Nat × W64)) : Option (Nat × W64) :=
  l.foldl (fun a x => match a with | none => some x | some y => some (if x.1 < y.1 then x else y)) none

/-- The command at the head of the queue has issued its last access and leaves it. -/
def State.mxDone (s : State) (site core : Nat) (m : MxCmd) (slot : Option Nat) : State :=
  s.modCore site core fun k =>
    { k with
      mxq := k.mxq.filter fun x => x.job ≠ m.job
      ebuf := k.ebuf.filter fun e => e.job != m.job
      jobs := k.jobs ++ [⟨m.ctx, m.job, .matrix, if m.rel then scopeOf m.scope else none, slot⟩] }

/-- Change the command at the head of the queue. -/
def State.mxMod (s : State) (site core : Nat) (f : MxCmd → MxCmd) : State :=
  s.modCore site core fun k => { k with mxq := match k.mxq with | [] => [] | m :: l => f m :: l }

/-- Slot of a core. -/
def State.slotOf (s : State) (site core i : Nat) : AccSlot := (s.core site core).slots.toList.getD i AccSlot.reset

/-- Change a slot. -/
def State.modSlot (s : State) (site core i : Nat) (f : AccSlot → AccSlot) : State :=
  s.modCore site core fun k => { k with slots := k.slots.mapFinIdx fun j a _ => if j = i then f a else a }

/-- Whether R340 lets a context use the slot for this command. -/
def slotOk (a : AccSlot) (ctx : Nat) (m : MxCmd) : Bool :=
  match m.opc with
  | 3 => true
  | 4 => a.state = .free || a.ownedBy ctx
  | 5 => a.state = .free || a.ownedBy ctx
  | 6 => a.ownedBy ctx
  | _ => a.ownedBy ctx && m.row.map (·.type) == some a.type

/-- Element size of the destination. -/
def epiEs (win type : Nat) : Nat := if win = 0 then (if type = 2 then 8 else 4) else elemBytes win

/-- Window of a destination address: the local code, the leaf's code, or a translation cause. -/
def State.epiWin (s : State) (r : CtxRef) (asid : BitVec 16) (va : W64) : Except Nat (Option Nat) :=
  match s.engLoc r va with
  | some (_, _, code) => .ok (some code)
  | none =>
    if !canonical va ∨ bit va 55 then .ok none
    else
      match s.tlbFind r.site r.core asid va.toNat with
      | some e => .ok (some (leafFmt e.leaf))
      | none =>
        match s.walkVa r.site asid va.toNat with
        | .leaf _ e _ => .ok (some (leafFmt e))
        | .cause c => if c = 0x0E then .ok none else .error c

/-- The reason for which the first element of an epilogue would end it as it starts. -/
def State.epiWhy (s : State) (r : CtxRef) (m : MxCmd) (type : Nat) : Option (Nat × W64) :=
  match s.epiWin r m.asid (m.d 1) with
  | .error _ => none
  | .ok none => some (3, m.d 1)
  | .ok (some win) =>
    if 5 < win ∨ (m.d 1).toNat % epiEs win type ≠ 0 then some (3, m.d 1)
    else s.engWhy r m.asid (m.d 1) (epiEs win type) win true

/-- Address and bytes of element `i` of an `acl`, in row-major order (R341). -/
def MxCmd.aclAt (m : MxCmd) (eb i : Nat) : W64 := m.d 1 + BitVec.ofNat 64 (i / m.cols * m.f 3 0 20 + i % m.cols * eb)

/-- Element size of an `acl`. -/
def MxCmd.aclEs (m : MxCmd) : Nat := if m.f 0 24 2 = 2 then 8 else 4

/-- A local operand leaves its base's core or window (R334, R341, R351). -/
def State.leaves (s : State) (r : CtxRef) (base va : W64) : Bool :=
  (s.engLoc r base).isSome && decide (va.toNat / 524288 ≠ base.toNat / 524288)

/-- The parts of `n` bytes from an address that lie each in one line: distance from the address, and length. -/
def lineParts (va : W64) (n : Nat) : List (Nat × Nat) :=
  let a := min n (128 - va.toNat % 128)
  if a < n then [(0, a), (a, n - a)] else [(0, n)]

/-- Reasons for which the reads of an `acl` would end as it starts. -/
def State.aclWhy (s : State) (r : CtxRef) (m : MxCmd) : List (Nat × W64) :=
  (List.range (m.rows * m.cols)).flatMap fun i =>
    let va := m.aclAt m.aclEs i
    (lineParts va m.aclEs).filterMap fun p =>
      let a := va + BitVec.ofNat 64 p.1
      if s.leaves r (m.d 1) a then some (3, a) else s.engWhy r m.asid a p.2 0 false

/-- Reasons that hold as a command starts (R347): 1 alone, since a malformed command makes no access; else 2, 7 and
those of its operands, of an `acl`'s source and of an epilogue's first element (log entry 68). -/
def State.mxReasons (s : State) (r : CtxRef) (m : MxCmd) : List (Nat × W64) :=
  let a := s.slotOf r.site r.core m.slot
  if m.malformed (if a.ownedBy r.ctx then a.type else 0) then [(1, 0)]
  else
    (if (m.acq || m.rel) && 4 < m.scope then [(2, 0)] else []) ++
      (if slotOk a r.ctx m then [] else [(7, 0)]) ++ (m.spans.flatMap fun sp => s.spanFaults r sp) ++
      (if m.opc = 5 then s.aclWhy r m else []) ++ (if m.opc = 6 then (s.epiWhy r m a.type).toList else [])

/-- A slot claimed by a context with contents. -/
def claimSlot (ctx type : Nat) (elems : Table W64) : AccSlot := ⟨.owned, ctx, type, elems⟩

/-- An `acl` claims its slot as it starts; until its reads are done, and where one fails, nothing specifies the contents (R340,
R341). -/
def State.unknownSlot (s : State) (site core : Nat) (m : MxCmd) : State :=
  let t0 := s.tick
  let s := s.modSlot site core m.slot fun _ =>
    claimSlot m.ctx (m.f 0 24 2) ((List.range 4096).map fun i => (i, Config.freeWord (t0 + i)))
  { s with tick := s.tick + 4096 }

/-- Accesses of a command as it starts meet bytes that earlier work of its context has still to write (R346): its local spans,
and the elements of an `acl`. -/
def State.mxWaits (s : State) (r : CtxRef) (m : MxCmd) : Bool :=
  let out := s.engOut r false m.job
  !out.isEmpty &&
    ((m.spans.any fun sp => s.spanWaits r out sp) ||
      (decide (m.opc = 5) && (List.range (m.rows * m.cols)).any fun i =>
        let va := m.aclAt m.aclEs i
        (lineParts va m.aclEs).any fun p => meetsOut out (s.engKey r m.asid (va + BitVec.ofNat 64 p.1)) p.2))

/-- Acquire side of a flag at a scope: the remote-data-cache action of a fence (R125, R118). -/
def State.engFence (s : State) (site scope : Nat) : State := if 3 ≤ scope then s.rdcUnbound site else s

/-- The head command starts, if it has not: a queue's commands start in queue order (R97). Its checks and the ACQ action, which
waits for what its context issued before it (R125). Answers the state and whether it may go on. -/
def State.mxStart (s : State) (site core : Nat) : State × Option MxCmd :=
  match (s.core site core).mxq with
  | [] => (s, none)
  | m :: _ =>
    let r : CtxRef := ⟨site, core, m.ctx⟩
    if m.hold then (s, none)
    else if m.started then (s, some m)
    else
      let a := s.slotOf site core m.slot
      if !m.malformed (if a.ownedBy m.ctx then a.type else 0) && s.mxWaits r m then (s, none)
      else
        match lowest (s.mxReasons r m) with
        | some (x, va) =>
          let s := if m.opc = 5 ∧ 3 ≤ x ∧ slotOk a m.ctx m then s.unknownSlot site core m else s
          (s.mxFault r m.job m.tag x va, none)
        | none =>
          if m.acq && s.awaitingTo r m.job then (s, none)
          else
            let s := if m.acq then s.engFence site m.scope else s
            let s := if m.opc = 5 then s.unknownSlot site core m else s
            (s.mxMod site core fun m => { m with started := true }, some { m with started := true })

/-- An event about a command of a kind: it acts when the head command has that kind (a reserved kind ends in reason 1
whichever event takes it up). -/
def State.mxHead (s : State) (site core opc : Nat) : Bool :=
  match (s.core site core).mxq with
  | [] => false
  | m :: _ => m.opc == opc || m.opc == 0 || decide (6 < m.opc)

/-- Repeat a part of a command until it says stop. -/
def State.engLoop (f : State → State × Bool) : Nat → State → State
  | 0, s => s
  | n + 1, s =>
    match f s with
    | (s, true) => State.engLoop f n s
    | (s, false) => s

/-! ### `mma`, `mdist` (R337, R338) -/

/-- One step: group `t mod groups` of block `t div groups`. -/
def State.mmaStep (s : State) (r : CtxRef) (m : MxCmd) (w : MxRow) (dist : Bool) (t : Nat) : State :=
  let nb := (m.cols + 7) / 8
  let b := t / m.groups
  let g := t % m.groups
  let ms := (List.range 8).filterMap fun i => if b / nb * 8 + i < m.rows then some (b / nb * 8 + i) else none
  let ns := (List.range 8).filterMap fun i => if b % nb * 8 + i < m.cols then some (b % nb * 8 + i) else none
  let elem (e : Table W64) (i j : Nat) : Table W64 :=
    Table.put e (64 * i + j) (BitVec.ofNat 64 (s.mxGroup r m w dist i j g (Table.get (0 : W64) e (64 * i + j)).toNat))
  s.modSlot r.site r.core m.slot fun a =>
    { a with elems := ms.foldl (fun e i => ns.foldl (fun e j => elem e i j) e) a.elems }

/-- Steps of a command. -/
def MxCmd.steps (m : MxCmd) : Nat := (m.rows + 7) / 8 * ((m.cols + 7) / 8) * m.groups

/-- Progress of an `mma` or `mdist`, the command at the queue's head (R97), by one step. -/
def State.mmaGo (s : State) (site core : Nat) : State × Bool :=
  match (s.core site core).mxq with
  | [] => (s, false)
  | m :: _ =>
    let r : CtxRef := ⟨site, core, m.ctx⟩
    match m.row with
    | none => (s, false)
    | some w =>
      if m.steps ≤ m.next then (s.mxDone site core m none, false)
      else
        match lowest (m.spans.flatMap fun sp => s.spanFaults r sp) with
        | some (x, va) => (s.mxFault r m.job m.tag x va, false)
        | none =>
          let s := (s.powerSpans r m.spans).mmaStep r m w (m.opc = 2) m.next
          let s := s.mxMod site core fun m => { m with next := m.next + 1 }
          if m.steps ≤ m.next + 1 then (s.mxDone site core m none, false) else (s, true)

/-- Run a command's kind. -/
def State.mxRun (s : State) (site core opc : Nat) (fuel : Nat) (go : State → State × Bool) : State :=
  if !s.mxHead site core opc then s
  else
    match s.mxStart site core with
    | (s, none) => s
    | (s, some _) => State.engLoop go fuel s

/-- Steps to perform: those asked for, else all. -/
def fuelOf (steps : Option Nat) (all : Nat) : Nat := match steps with | some n => n | none => all

/-- `mma` event (R337). -/
def execMma (site core : Nat) (steps : Option Nat) (s : State) : Result :=
  .next (s.mxRun site core 1 (fuelOf steps (64 * 8192 + 1)) fun s => s.mmaGo site core)

/-- `mdist` event (R337). -/
def execMdist (site core : Nat) (steps : Option Nat) (s : State) : Result :=
  .next (s.mxRun site core 2 (fuelOf steps (64 * 8192 + 1)) fun s => s.mmaGo site core)

/-! ### `topk` (R339) -/

/-- A candidate: score bits and index; the empty index is −1. -/
structure Cand where
  score : Nat
  idx : Nat
deriving DecidableEq, Repr

/-- `a` stands before `b`: non-empty, non-NaN, better score, lower index (as INT32). -/
def Cand.before (int smallest : Bool) (a b : Cand) : Bool :=
  let empty (c : Cand) : Bool := c.idx = 0xFFFFFFFF
  let nan (c : Cand) : Bool := !int && (Fmt.fp32.decode c.score).isNan
  let better : Bool :=
    if int then
      let x := (BitVec.ofNat 32 a.score).toInt
      let y := (BitVec.ofNat 32 b.score).toInt
      if smallest then decide (x < y) else decide (y < x)
    else
      let x := Fmt.fp32.decode a.score
      let y := Fmt.fp32.decode b.score
      if smallest then Fp.lt x y else Fp.lt y x
  let same : Bool :=
    if int then a.score = b.score else Fp.eq (Fmt.fp32.decode a.score) (Fmt.fp32.decode b.score)
  if empty a then false
  else if empty b then true
  else if nan a != nan b then nan b
  else if better then true
  else if nan a || same then decide ((BitVec.ofNat 32 a.idx).toInt < (BitVec.ofNat 32 b.idx).toInt)
  else false

/-- Stable insertion of a candidate behind those that it does not stand before. -/
def Cand.insert (int smallest : Bool) (x : Cand) : List Cand → List Cand
  | [] => [x]
  | y :: l => if Cand.before int smallest x y then x :: y :: l else y :: Cand.insert int smallest x l

/-- Row `i`'s list after its scores. -/
def State.topkRow (s : State) (r : CtxRef) (m : MxCmd) (w : MxRow) (i : Nat) : List Cand :=
  let ks := m.f 0 45 5
  let int := decide (w.type = 1)
  let smallest := m.f 0 43 1 = 1
  let dist := m.f 0 44 1 = 1
  let score (n : Nat) : Nat := (List.range m.groups).foldl (fun a g => s.mxGroup r m w dist i n g a) 0
  let old := (List.range ks).map fun e =>
    let v := s.elemAt r (m.d 4) (i * m.f 3 40 20 + 8 * e) 8
    (⟨v % 4294967296, v / 4294967296⟩ : Cand)
  let new := (List.range m.cols).filterMap fun n =>
    let v := score n
    if !int && (Fmt.fp32.decode v).isNan then none else some (⟨v, (m.f 5 0 32 + n) % 4294967296⟩ : Cand)
  let fill : Cand := ⟨if int then (if smallest then 0x7FFFFFFF else 0x80000000)
    else if smallest then 0x7F800000 else 0xFF800000, 0xFFFFFFFF⟩
  let l := (old ++ new).foldl (fun a x => Cand.insert int smallest x a) []
  (List.range ks).map fun e =>
    match l[e]? with
    | some c => if c.idx = 0xFFFFFFFF then fill else c
    | none => fill

/-- Progress of a `topk` by one row: operands and list read, then the list written. -/
def State.topkGo (s : State) (site core : Nat) : State × Bool :=
  match (s.core site core).mxq with
  | [] => (s, false)
  | m :: _ =>
    let r : CtxRef := ⟨site, core, m.ctx⟩
    match m.row, s.engLoc r (m.d 4) with
    | some w, some (c, o, _) =>
      match lowest (m.spans.flatMap fun sp => s.spanFaults r sp) with
      | some (x, va) => (s.mxFault r m.job m.tag x va, false)
      | none =>
        let l := s.topkRow r m w m.next
        let bs := l.flatMap fun e => toBytes 8 (e.score + e.idx * 4294967296)
        let s := (s.powerSpans r m.spans).setBytes (lmemPa site c (o + m.next * m.f 3 40 20)) bs
        let s := s.mxMod site core fun m => { m with next := m.next + 1 }
        if m.rows ≤ m.next + 1 then (s.mxDone site core m none, false) else (s, true)
    | _, _ => (s, false)

/-- `topk` event (R339). -/
def execTopk (site core : Nat) (steps : Option Nat) (s : State) : Result :=
  .next (s.mxRun site core 3 (fuelOf steps 64) fun s => s.topkGo site core)

/-! ### `acz`, `acl` (R340, R341) -/

/-- `acz` event. -/
def execAcz (site core : Nat) (s : State) : Result :=
  .next (s.mxRun site core 4 1 fun s =>
    match (s.core site core).mxq with
    | [] => (s, false)
    | m :: _ =>
      ((s.modSlot site core m.slot fun _ => claimSlot m.ctx (m.f 0 24 2) []).mxDone site core m none, false))

/-- The bytes of one element of an `acl`, part by part. -/
def State.aclElem (s : State) (r : CtxRef) (m : MxCmd) (va : W64) : List (Nat × Nat) → List Byte → State × EngRead
  | [], bs => (s, .ok bs)
  | p :: l, bs =>
    let a := va + BitVec.ofNat 64 p.1
    if s.leaves r (m.d 1) a then (s, .fault 3 a)
    else
      match s.engLoad r m.asid a p.2 0 m.job with
      | (s, .ok x) => State.aclElem s r m va l (bs ++ x)
      | x => x

/-- The elements that `acl` reads, in row-major order; the first failure; or nothing while a line is awaited. -/
def State.aclRead (s : State) (r : CtxRef) (m : MxCmd) (eb : Nat) :
    List Nat → Table W64 → Bool → State × Except (Nat × W64) (Option (Table W64))
  | [], t, whole => (s, .ok (if whole then some t else none))
  | i :: l, t, whole =>
    let va := m.aclAt eb i
    match s.aclElem r m va (lineParts va eb) [] with
    | (s, .ok bs) =>
      State.aclRead s r m eb l (Table.put t (64 * (i / m.cols) + i % m.cols) (BitVec.ofNat 64 (ofBytes bs))) whole
    | (s, .fault x bad) => (s, .error (x, bad))
    | (s, .wait) => State.aclRead s r m eb l t false

/-- `acl` event: a failing read leaves the slot as the start did, OWNED with unspecified contents. Its global lines come from their homes one
by one; the command goes on once all are there. -/
def execAcl (site core : Nat) (s : State) : Result :=
  .next (s.mxRun site core 5 1 fun s =>
    match (s.core site core).mxq with
    | [] => (s, false)
    | m :: _ =>
      let r : CtxRef := ⟨site, core, m.ctx⟩
      if s.mxWaits r m then (s, false)
      else
        match s.aclRead r m m.aclEs (List.range (m.rows * m.cols)) [] true with
        | (s, .ok (some t)) =>
          ((s.modSlot site core m.slot fun _ => claimSlot m.ctx (m.f 0 24 2) t).mxDone site core m none, false)
        | (s, .ok none) => (s, false)
        | (s, .error (x, va)) => (s.mxFault r m.job m.tag x va, false))

/-! ### The fused epilogue (R342, R343) -/

/-- An element's value: an INT32 integer, or bits of the slot's floating format. -/
structure EpiVal where
  int : Bool
  b : Nat
deriving DecidableEq, Repr

/-- The value u of element (i, j), before activation. -/
def State.epiValue (s : State) (r : CtxRef) (m : MxCmd) (type i j : Nat) : EpiVal :=
  let f := if type = 2 then Fmt.fp64 else Fmt.fp32
  let v := (Table.get (0 : W64) (s.slotOf r.site r.core m.slot).elems (64 * i + j)).toNat
  let smode := m.f 0 25 2
  let bias := m.f 0 27 1 = 1
  let act := m.f 0 28 4
  if smode = 0 ∧ !bias ∧ !(type = 1 && 2 ≤ act) then ⟨type = 1, v⟩
  else
    let x := if type = 1 then Fp.ofInt (BitVec.ofNat 32 v).toInt else f.decode v
    let sc := if smode = 1 then Fmt.fp32.decode (s.elemAt r (m.d 4) (4 * j) 4)
      else if smode = 2 then Fmt.fp32.decode (m.f 6 0 32) else Fp.ofInt 1
    let u := Fp.mul x sc
    let u := if bias then Fp.add .ne u (Fmt.fp32.decode (s.elemAt r (m.d 5) (4 * j) 4)) else u
    ⟨false, if u.isNan then f.qnan false else f.round .ne 0 u⟩

/-- Activation of R342. -/
def epiAct (m : MxCmd) (type : Nat) (u : EpiVal) : EpiVal :=
  let f := if type = 2 then Fmt.fp64 else Fmt.fp32
  let x := f.decode u.b
  match m.f 0 28 4 with
  | 1 =>
    if u.int then ⟨true, if (BitVec.ofNat 32 u.b).toInt < 0 then 0 else u.b⟩
    else if x.isNan then ⟨false, f.qnan false⟩
    else if Fp.lt (Fp.ofInt 0) x then u else ⟨false, 0⟩
  | 2 =>
    if x.isNan then ⟨false, f.qnan false⟩
    else if Fp.lt (Fp.ofInt 0) x || x.isZero then u
    else
      let p := Fp.mul x (Fmt.fp32.decode (m.f 6 32 32))
      ⟨false, if p.isNan then f.qnan false else f.round .ne 0 p⟩
  | 3 => ⟨false, sfuFp32 .sigmoid u.b⟩
  | 4 => ⟨false, sfuFp32 .tanh u.b⟩
  | _ => u

/-- Store rounding of a command. -/
def epiRm (n : Nat) : Rm :=
  match n with | 0 => .ne | 1 => .rz | 2 => .rp | 3 => .rm | _ => .rs

/-- Bytes of an element in the destination's window. -/
def epiBytes (win : Nat) (m : MxCmd) (type : Nat) (w : BitVec 16) (u : EpiVal) : List Byte :=
  let es := epiEs win type
  if win = 0 then toBytes es u.b
  else
    let f := if type = 2 then Fmt.fp64 else Fmt.fp32
    let x := if u.int then Fp.ofInt (BitVec.ofNat 32 u.b).toInt else f.decode u.b
    let md := epiRm (m.f 0 32 3)
    match windowFmt win with
    | some g => toBytes es (g.round md w x)
    | none => toBytes es (BitVec.ofInt 8 (toInt8 md w x)).toNat

/-- An element's bytes enter the output buffer; none when they need an entry and all 16 are in use. -/
def Core.obufPut (k : Core) (m : MxCmd) (va : W64) (bs : List Byte) : Option (List OutEntry) :=
  let line := putBits va 0 7 0
  let data := runAt (va.toNat % 128) bs
  match k.obuf.getLast? with
  | some e =>
    if e.job = m.job ∧ e.va = line then some (k.obuf.dropLast ++ [{ e with data := e.data ++ data }])
    else if k.obuf.length < 16 then some (k.obuf ++ [⟨m.ctx, m.asid, line, data, m.win, m.job, m.tag, false⟩]) else none
  | none => some [⟨m.ctx, m.asid, line, data, m.win, m.job, m.tag, false⟩]

/-- Progress of an `epi` by one element. -/
def State.epiGo (s : State) (site core : Nat) : State × Bool :=
  match (s.core site core).mxq with
  | [] => (s, false)
  | m :: _ =>
    let r : CtxRef := ⟨site, core, m.ctx⟩
    let type := (s.slotOf site core m.slot).type
    -- the first element fixes the window
    let first := s.epiWin r m.asid (m.d 1)
    match (if m.next = 0 then first else .ok (some m.win)) with
    | .error c =>
      let s := s.mxMod site core fun m => { m with hold := true }
      ((s.modCtx r fun x => { x with pendStore := x.pendStore ++ [(c, m.d 1)] }).rouse r, false)
    | .ok none => (s.mxFault r m.job m.tag 3 (m.d 1), false)
    | .ok (some win) =>
      let es := epiEs win type
      let i := m.next / m.cols
      let j := m.next % m.cols
      let va := m.d 1 + BitVec.ofNat 64 (i * m.f 3 0 20 + j * es)
      let here : Bool :=
        match s.epiWin r m.asid va with
        | .ok (some w) => w = win
        | .ok none => false
        | .error _ => true
      let left := (s.engLoc r (m.d 1)).isSome && decide (va.toNat / 524288 ≠ (m.d 1).toNat / 524288)
      if 5 < win ∨ va.toNat % es ≠ 0 ∨ !here ∨ left then (s.mxFault r m.job m.tag 3 va, false)
      else
        match lowest (m.spans.flatMap fun sp => s.spanFaults r sp) with
        | some (x, bad) => (s.mxFault r m.job m.tag x bad, false)
        | none =>
          let rnd := win ≠ 0 && m.f 0 32 3 = 4
          let u := epiAct m type (s.epiValue r m type i j)
          let s := s.powerSpans r m.spans
          let bs := epiBytes win m type s.rnd u
          -- a byte that an earlier command has still to write holds the queue (R346)
          if meetsOut (s.engOut r false m.job) (s.engKey r m.asid va) es then (s, false)
          else
          match (s.core site core).obufPut { m with win := win } va bs with
          | none => (s, false)
          | some o =>
            let s := s.modCore site core fun k => { k with obuf := o }
            let s := if rnd then s.next else s
            let s := s.mxMod site core fun m => { m with next := m.next + 1, win := win }
            if m.rows * m.cols ≤ m.next + 1 then
              let keep := m.f 0 24 1 = 1
              let s := if keep || m.rel then s else s.modSlot site core m.slot fun _ => AccSlot.reset
              (s.mxDone site core m (if !keep && m.rel then some m.slot else none), false)
            else (s, true)

/-- `epi` event (R342). -/
def execEpi (site core : Nat) (steps : Option Nat) (s : State) : Result :=
  .next (s.mxRun site core 6 (fuelOf steps 4096) fun s => s.epiGo site core)

/-- `outputBufferDrain` event (R343): the oldest entry that no further element joins leaves as one store. A failure of an
ended context's entry is no one's. -/
def execOutputBufferDrain (site core : Nat) (s : State) : Result :=
  let k := s.core site core
  match k.obuf with
  | [] => .next s
  | e :: rest =>
    let r : CtxRef := ⟨site, core, e.ctx⟩
    let open_ := rest.isEmpty && k.mxq.any fun m => m.job = e.job
    if open_ then .next s
    else
      match s.engWrite r e.asid e.va e.data e.win e.job .epilogue e.tag e.dead with
      | none => .next s
      | some (s', f) =>
        let s' := s'.modCore site core fun k => { k with obuf := rest }
        match f with
        | none => .next s'
        | some (x, va) => .next (if e.dead then s' else s'.mxFault r e.job e.tag x va)

/-! ### Count-down (R126) -/

/-- A finished piece of work has no write left to perform. -/
def State.jobClear (s : State) (r : CtxRef) (j : Job) : Bool :=
  let k := s.core r.site r.core
  !(k.chunks.any fun c => c.job = j.job && !c.dead) && !(k.obuf.any fun e => e.job = j.job) &&
    !((s.ctx r).savedObuf.any fun e => e.job = j.job) && !(k.rq.any fun e => e.src ≠ .store ∧ e.job = j.job) &&
    !(s.reqs.any fun q => match q.kind with | .store _ job => job == j.job && job != 0 | _ => false)

/-- `engineCountDown` event (R126): the context's first finished work with all writes performed counts down. -/
def execEngineCountDown (r : CtxRef) (s : State) : Result :=
  match (s.core r.site r.core).jobs.find? fun j => j.ctx = r.ctx ∧ s.jobClear r j with
  | none => .next s
  | some j =>
    let s := s.modCore r.site r.core fun k => { k with jobs := k.jobs.filter fun x => x.job ≠ j.job }
    let s := match j.slot with
      | some i =>
        let s := s.modSlot r.site r.core i fun (a : AccSlot) => if a.state ≠ SlotState.free ∧ a.owner = r.ctx then AccSlot.reset else a
        s.modCtx r fun c => { c with savedSlots := c.savedSlots.filter fun x => x.1 != i }
      | none => s
    let s := match j.rel with
      | some .module => s.rdcUnbound r.site
      | some .system => s.rdcUnbound r.site
      | _ => s
    .next ((s.modCtx r fun c =>
      match j.kind with
      | .matrix => { c with oct := c.oct - 1 }
      | .copy => { c with occ := c.occ - 1 }
      | .sfu =>
        { c with sfuBusy := (s.octet r.site (octetOf r.core)).sfuq.any (fun q => q.who == r) || !c.savedSfu.isEmpty ||
            (s.core r.site r.core).jobs.any fun (j : Job) => j.ctx == r.ctx && j.kind == JobKind.sfu }).spill r RegSet.empty |>.wake r)

/-! ### The copy engine (R349 to R352) -/

/-- Fields of CPCTL. -/
def CopyRun.acq (a : CopyRun) : Bool := bit a.ctl 1
def CopyRun.rel (a : CopyRun) : Bool := bit a.ctl 2
def CopyRun.scope (a : CopyRun) : Nat := bits a.ctl 3 3
def CopyRun.peer (a : CopyRun) : Nat := bits a.ctl 6 2
def CopyRun.pmod (a : CopyRun) : Nat := bits a.ctl 8 5
def CopyRun.tag (a : CopyRun) : BitVec 16 := BitVec.ofNat 16 (bits a.ctl 16 16)
def CopyRun.n (a : CopyRun) : Nat := bits a.len 0 32
def CopyRun.rows (a : CopyRun) : Nat := bits a.len 32 16 + 1

/-- Address of byte `off` of the current row on each side. -/
def CopyRun.srcAt (a : CopyRun) : W64 :=
  a.src + BitVec.ofNat 64 a.row * sext 32 (bits a.stride 0 32) + BitVec.ofNat 64 a.off
def CopyRun.dstAt (a : CopyRun) : W64 :=
  a.dst + BitVec.ofNat 64 a.row * sext 32 (bits a.stride 32 32) + BitVec.ofNat 64 a.off

/-- Bytes of the next chunk: to the end of the row and of both lines. -/
def CopyRun.chunk (a : CopyRun) : Nat :=
  min (a.n - a.off) (min (128 - a.srcAt.toNat % 128) (128 - a.dstAt.toNat % 128))

/-- The copy after `n` more bytes. -/
def CopyRun.advance (a : CopyRun) (n : Nat) : CopyRun :=
  if a.n ≤ a.off + n then { a with row := a.row + 1, off := 0 } else { a with off := a.off + n }

/-- Window of one side; none for a peer side or a side whose translation fails. -/
def State.sideWin (s : State) (r : CtxRef) (asid : BitVec 16) (va : W64) (peer : Bool) : Option Nat :=
  if peer then none
  else
    match s.epiWin r asid va with
    | .ok w => w
    | .error _ => none

/-- The next chunk of a copy reads or writes (`write`) a byte that an earlier copy of its context has still to write, or writes one
that such a copy has still to read (R346). -/
def State.copyWaits (s : State) (r : CtxRef) (a : CopyRun) (write : Bool) : Bool :=
  let out := s.engOut r true a.job
  if write then a.peer != 2 && meetsOut (out ++ s.engIn r a.job) (s.engKey r a.asid a.dstAt) a.chunk
  else a.peer != 1 && meetsOut out (s.engKey r a.asid a.srcAt) a.chunk

/-- Reasons that hold as a copy swaps in (R347, R350, R351): of its registers, and of the accesses of its first chunk (log
entry 68). -/
def State.copyReasons (s : State) (r : CtxRef) (a : CopyRun) : List (Nat × W64) :=
  let ws := s.sideWin r a.asid a.src (a.peer = 1)
  let wd := s.sideWin r a.asid a.dst (a.peer = 2)
  let differ := match ws, wd with | some x, some y => x != y | _, _ => false
  let win := match ws, wd with | some x, _ => x | none, some y => y | none, none => 0
  let es := if win = 0 then 1 else elemBytes win
  let mis (va : W64) (stride : Nat) : Bool := 5 < win || [va.toNat, a.n, stride].any fun x => x % es ≠ 0
  let outside (va : W64) : Bool := (!canonical va || bit va 55) && (s.engLoc r va).isNone
  (if a.peer = 3 || (a.peer ≠ 0 && (a.acq || a.rel) && a.scope ≠ 4) || (a.scope ≠ 0 && !a.acq && !a.rel) || differ
    then [(1, 0)] else []) ++
    (if (a.acq || a.rel) && 4 < a.scope then [(2, 0)] else []) ++
    (if a.n ≠ 0 ∧ a.peer ≠ 1 ∧ (mis a.src (bits a.stride 0 32) || outside a.src) then [(3, a.src)] else []) ++
    (if a.n ≠ 0 ∧ a.peer ≠ 2 ∧ (mis a.dst (bits a.stride 32 32) || outside a.dst) then [(3, a.dst)] else []) ++
    (if a.n ≠ 0 ∧ a.peer ≠ 1 ∧ !s.copyWaits r a false then (s.engWhy r a.asid a.src a.chunk win false).toList else []) ++
    (if a.n ≠ 0 ∧ a.peer ≠ 2 ∧ !s.copyWaits r a true then (s.engWhy r a.asid a.dst a.chunk win true).toList else []) ++
    (if a.n ≠ 0 ∧ a.peer ≠ 0 ∧ !s.peerOk a.pmod then [(8, if a.peer = 1 then a.src else a.dst)] else [])

/-- The active copy's window. -/
def State.copyWin (s : State) (r : CtxRef) (a : CopyRun) : Nat :=
  match s.sideWin r a.asid a.src (a.peer = 1), s.sideWin r a.asid a.dst (a.peer = 2) with
  | some x, _ => x
  | none, some y => y
  | none, none => 0

/-- The active copy has issued its last access. -/
def State.copyDone (s : State) (site core : Nat) (a : CopyRun) : State :=
  s.modCore site core fun k =>
    { k with
      cp := none
      cpLast := a.ctx
      jobs := k.jobs ++ [⟨a.ctx, a.job, .copy, if a.rel then scopeOf a.scope else none, none⟩] }

/-- Set the active copy. -/
def State.setCopy (s : State) (site core : Nat) (a : CopyRun) : State :=
  s.modCore site core fun k => { k with cp := some a }

/-- The chunks of a core change. -/
def State.setChunks (s : State) (site core : Nat) (f : List Chunk → List Chunk) : State :=
  s.modCore site core fun k => { k with chunks := f k.chunks }

/-- A chunk ends in an engine fault of its copy: it is not written (R345); the fault of an ended context is no one's. -/
def State.chunkFault (s : State) (site core : Nat) (c : Chunk) (reason : Nat) (va : W64) : State :=
  let s := s.setChunks site core fun l => l.filter fun x => x.id != c.id
  if c.dead then s else s.cpFault ⟨site, core, c.ctx⟩ c.job c.tag reason va

/-- Port of the link to a peer module (R352). -/
def State.peerPort (s : State) (pmod : Nat) : Nat := bits (s.sreg 0 (0x1B80 + 8 * pmod)) 0 5

/-- A chunk is one that the engine may write now: its bytes are there, and no chunk whose read issued earlier goes to the
same line (R103, R345). -/
def Core.nextChunk (k : Core) : Option (Chunk × List Byte) :=
  (List.range k.chunks.length).findSome? fun i =>
    match k.chunks[i]? with
    | some c =>
      (match c.stage with
        | .bytes bs =>
          if (k.chunks.take i).any fun x => x.stage != .sent && x.dst.toNat / 128 == c.dst.toNat / 128 then none else some (c, bs)
        | _ => none)
    | none => none

/-- The write of a chunk: to its destination, or to the peer module; false where it cannot go yet. -/
def State.chunkPut (s : State) (site core : Nat) (c : Chunk) (bs : List Byte) : State × Bool :=
  let r : CtxRef := ⟨site, core, c.ctx⟩
  if c.peer = 2 then
    if !s.peerOk c.pmod then (s.chunkFault site core c 8 c.dst, true)
    else
      ((s.emit (.flit (s.peerPort c.pmod) (.copyWriteReq c.id c.dst.toNat bs))).setChunks site core fun l =>
        l.map fun x => if x.id = c.id then { x with stage := .sent } else x, true)
  else
    match s.engWrite r c.asid (putBits c.dst 0 7 0) (runAt (c.dst.toNat % 128) bs) c.win c.job .copy c.tag c.dead with
    | none => (s, false)
    | some (s, some (x, bad)) => (s.chunkFault site core c x bad, true)
    | some (s, none) => (s.setChunks site core fun l => l.filter fun x => x.id != c.id, true)

/-- The read of the next chunk issues: at once in local memory, else as a request to the home or to the peer module; false
where it cannot. -/
def State.chunkRead (s : State) (site core : Nat) (a : CopyRun) : State × Bool :=
  let r : CtxRef := ⟨site, core, a.ctx⟩
  let n := a.chunk
  let chunk (id : Nat) (st : ChunkStage) : Chunk :=
    ⟨id, a.ctx, a.asid, a.job, a.tag, s.copyWin r a, a.srcAt, a.dstAt, n, a.row, a.peer, a.pmod, st, false⟩
  let issue (s : State) (c : Chunk) : State := (s.setChunks site core fun l => l ++ [c]).setCopy site core (a.advance n)
  if a.peer = 1 then
    let id := s.nextId
    (issue (s.takeId.emit (.flit (s.peerPort a.pmod) (.copyReadReq id a.srcAt.toNat n))) (chunk id .reading), true)
  else if s.leaves r a.src a.srcAt then (s.cpFault r a.job a.tag 3 a.srcAt, false)
  else
    match s.engSrc r a.asid a.srcAt n (s.copyWin r a) with
    | (s, .fault x va) => (s.cpFault r a.job a.tag x va, false)
    | (s, .wait) => (s, false)
    | (s, .bytes bs) => (issue s.takeId (chunk s.nextId (.bytes bs)), true)
    | (s, .far pa leaf) =>
      match s.engAsk r a.asid a.srcAt pa leaf a.job with
      | none => (s, false)
      | some (s, id) => (issue s (chunk id .reading), true)

/-- Progress of the copy engine by one access: the write of a chunk whose bytes are there, else the read of the next chunk
of the active copy, which ends once all its chunks are written. -/
def State.copyGo (s : State) (site core : Nat) : State × Bool :=
  match (s.core site core).nextChunk.map fun x => s.chunkPut site core x.1 x.2 with
  | some (s, true) => (s, true)
  | _ =>
    match (s.core site core).cp with
    | none => (s, false)
    | some a =>
      let r : CtxRef := ⟨site, core, a.ctx⟩
      if a.n = 0 ∨ a.rows ≤ a.row then
        if (s.core site core).chunks.any fun c => c.job == a.job && c.stage != .sent then (s, false)
        else (s.copyDone site core a, false)
      else if a.peer ≠ 0 ∧ !s.peerOk a.pmod then
        (s.cpFault r a.job a.tag 8 (if a.peer = 1 then a.srcAt else a.dstAt), false)
      else if a.peer ≠ 2 ∧ s.leaves r a.dst a.dstAt then (s.cpFault r a.job a.tag 3 a.dstAt, false)
      else if s.copyWaits r a false || s.copyWaits r a true then (s, false)
      else s.chunkRead site core a

/-- The armed context that swaps in next: ring order after the context of the copy before (R350). -/
def State.nextArmed (s : State) (site core : Nat) : Option Nat :=
  let l := (s.core site core).cpLast
  [l + 1, l + 2, l + 3, l + 4].findSome? fun i =>
    let x := s.ctx ⟨site, core, i % 4⟩
    if x.cpArmed || (x.savedCp.isSome && x.st != .preempted) then some (i % 4) else none

/-- Swap in a context's shadow set, or the copy that its pre-emption stopped (R353). -/
def State.copySwap (s : State) (site core c : Nat) : State :=
  let r : CtxRef := ⟨site, core, c⟩
  let x := s.ctx r
  match x.savedCp with
  | some a => (s.modCtx r fun x => { x with savedCp := none }).setCopy site core a
  | none =>
  let a : CopyRun :=
    { ctx := c, asid := x.asid, job := s.nextId, src := x.cpsrc, dst := x.cpdst, len := x.cplen, stride := x.cpstride,
      ctl := x.cpctl, row := 0, off := 0 }
  let s := { s with nextId := s.nextId + 1 }
  let s := (s.modCtx r fun x => { x with cpArmed := false }).setCopy site core a
  match lowest (s.copyReasons r a) with
  | some (n, va) => s.cpFault r a.job a.tag n va
  | none => if a.acq then s.engFence site a.scope else s

/-- A copy may not begin yet: with ACQ it waits for what its context has issued before (R125). -/
def State.copyHeld (s : State) (r : CtxRef) : Bool :=
  (s.ctx r).savedCp.isNone && bit (s.ctx r).cpctl 1 && s.awaiting r

/-- `shadowSwapIn` event (R350, R351): an idle engine takes the next armed shadow set, and the active copy moves on. -/
def execShadowSwapIn (site core : Nat) (steps : Option Nat) (s : State) : Result :=
  let s := match (s.core site core).cp with
    | some _ => s
    | none =>
      match s.nextArmed site core with
      | some c => if s.copyHeld ⟨site, core, c⟩ then s else s.copySwap site core c
      | none => s
  .next (State.engLoop (fun s => s.copyGo site core) (fuelOf steps 4294967296) s)

/-! ### Register writes of a context (R123, R329, R330, R350) -/

/-- The conditions of R123 for an engine's start. -/
def State.startOk (s : State) (r : CtxRef) : Bool := decide (s.ocsNow r = 0) && !s.rqBusy r

/-- Clear a fault record: VALID, REASON, DISC, NDISC and TAG go, ENGINE stays. -/
def clearRecord (v : W64) : W64 := v &&& 0x40#64

/-- `faultRecordClear` event (R329). -/
def execFaultRecordClear (r : CtxRef) (copy : Bool) (s : State) : Result :=
  .next (s.modCtx r fun c =>
    if copy then { c with cpfault := clearRecord c.cpfault } else { c with mxfault := clearRecord c.mxfault })

/-- The staged command enters the queue (R330). -/
def State.enqueue (s : State) (r : CtxRef) : State :=
  let c := s.ctx r
  let m : MxCmd :=
    { dw := c.mxstage, ctx := r.ctx, asid := c.asid, job := s.nextId, next := 0, started := false, hold := false, win := 0 }
  let s := { s with nextId := s.nextId + 1 }
  let s := s.modCore r.site r.core fun k => { k with mxq := k.mxq ++ [m] }
  s.modCtx r fun c => { c with oct := c.oct + 1 }

/-- A write of CPCTL: with GO it arms the shadow set. -/
def State.cpctlWrite (s : State) (r : CtxRef) (v : W64) : State :=
  let s := s.modCtx r fun c => { c with cpctl := v &&& cpctlMask }
  if bit v 0 then s.modCtx r fun c => { c with cpArmed := true, occ := c.occ + 1 } else s

/-- A write of CPCTL may issue: no armed shadow, and for GO the conditions of R123 and room in occ (R276). -/
def State.cpctlOk (s : State) (r : CtxRef) (v : W64) : Bool :=
  !(s.ctx r).cpArmed && (!bit v 0 || (s.startOk r && decide ((s.ctx r).occ < 255)))

/-- `cpctlGo` event (R350): a context's write of CPCTL with GO = 1. -/
def execCpctlGo (r : CtxRef) (v : W64) (s : State) : Result :=
  let v := v ||| 1
  .next (if s.cpctlOk r v then s.cpctlWrite r v else s)

/-- A store to a register of the self aperture: none when it must stall, cause 0x09 (error) at an offset that is not
listed. -/
def State.engWriteReg (s : State) (r : CtxRef) (off : Nat) (v : W64) : Except Nat (Option State) :=
  let c := s.ctx r
  let shadow (f : Ctx → Ctx) : Except Nat (Option State) := .ok (if c.cpArmed then none else some (s.modCtx r f))
  if (s.engRead r off).isNone then .error 0x09
  else if off < 0x38 then .ok (some (s.modCtx r fun c => { c with mxstage := c.mxstage.setIfInBounds (off / 8) v }))
  else
    match off with
    | 0x38 =>
      if s.startOk r ∧ (s.core r.site r.core).mxq.length < 16 ∧ c.oct < 255 then
        .ok (some ((s.modCtx r fun c => { c with mxstage := c.mxstage.setIfInBounds 7 v }).enqueue r))
      else .ok none
    | 0x58 => .ok (some (if bit v 0 then s.modCtx r fun c => { c with mxfault := clearRecord c.mxfault } else s))
    | 0x1000 => shadow fun c => { c with cpsrc := v }
    | 0x1008 => shadow fun c => { c with cpdst := v }
    | 0x1010 => shadow fun c => { c with cplen := v &&& cplenMask }
    | 0x1018 => shadow fun c => { c with cpstride := v }
    | 0x1020 => .ok (if s.cpctlOk r v then some (s.cpctlWrite r v) else none)
    | 0x1030 => .ok (some (if bit v 0 then s.modCtx r fun c => { c with cpfault := clearRecord c.cpfault } else s))
    | _ => .ok (some s)

end Sys2Proof.Machine
end

