-- ==== Sys2Proof/Machine/LoadStore.lean ====
section
/-! DEFINITION. Loads, prefetches and stores: plain, widening, narrowing and vector forms, `ldk` (R275 to R283,
R318 to R320), with the replay queue's part in a store (R128 to R130, R283). -/

namespace Sys2Proof.Machine

/-! ### Addresses -/

/-- ga + sext(OFF) × size. -/
def State.ea (s : State) (a : BitVec 5) (o : BitVec 11) (size : Nat) : W64 :=
  s.g a + o.signExtend 64 * BitVec.ofNat 64 size

/-- Accesses of a context to a page with a parked store or a store in its walk wait (R129). -/
def State.pageBusy (s : State) (va : W64) : Bool := s.pageParked s.cur va || s.pageWalking s.cur va

/-- A target that passed its rows is a register offset with no register (R14), or a debug access of another size (R232). -/
def State.atTarget (s : State) (busy : Bool) (a : Access) (va : W64) (pa : Nat) (go : State) : State :=
  if s.noReg pa then s.trap 0x09 va
  else if debugBad pa a.size then s.trap 0x0B va
  else if busy then s.flow .stall
  else go

/-- What becomes of a checked address: a cause, a walk, or on with its target, and whether a walk has still to set D in its
leaf; `busy` where a store of the context to its page holds the access back (R129). -/
def State.reachAll (s : State) (busy : Bool) (a : Access) (va : W64) (f : State → Target → Bool → State) : State :=
  match s.check s.cur a va with
  | .cause c v => s.trap c v
  | .refused c => s.trap c va
  | .miss => if busy then s.flow .stall else s.waitWalk va false
  | .ok (.mem pa l n) => s.atTarget busy a va pa (f (s.tlbTouch s.cur va) (.mem pa l n) false)
  | .dirty (.mem pa l n) => s.atTarget busy a va pa (f s (.mem pa l n) true)
  | .ok t => f s t false
  | .dirty t => f s t false

/-- The same, where nothing else is looked at before D is set. -/
def State.reachPast (s : State) (busy : Bool) (a : Access) (va : W64) (f : State → Target → State) : State :=
  s.reachAll busy a va fun s t d => if d then s.waitWalk va true else f s t

/-- What becomes of a checked address of a load, atomic, reduction, push or pop: it does not issue to a page with a parked
store, or one in its walk, of its context (R129). -/
def State.reach (s : State) (a : Access) (va : W64) (f : State → Target → State) : State := s.reachPast (s.pageBusy va) a va f

/-- A fatal cause met at the bundle: the context ends before anything else of it (R94, R371). -/
def State.fatalHere (s : State) (code : Nat) (v : W64) : State :=
  (s.modC fun c => { c with fatal := some (code, v) }).flow .stall

/-- The 128 bytes of a line as its target gives them now. -/
def State.lineBytes (s : State) (pa : Nat) : List Byte := s.bytes (pa / 128 * 128) 128

/-! ### Loads -/

/-- A load that has left the core: counted in ocl, its context parked until the request is answered. -/
def State.loadReq (s : State) (va : W64) (pa : Nat) (leaf : W64) (dst : LoadDst) (stage : ReqStage) (data : List Byte) :
    State :=
  let id := s.nextId
  let s := s.send s.cur va pa leaf (.load dst) stage data
  (s.modC fun c => { c with ocl := c.ocl + 1 }).parkOn [id] dst.pend

/-- All bytes [off, off + n) of a line of the die's cache are valid. -/
def RdcLine.has (l : RdcLine) (off n : Nat) : Bool := (List.range n).all fun i => l.valid.getD (off + i) false

/-- Where a cacheable line's bytes are found without its home: L1 (data), or the die's cache. -/
inductive Near where
  | l1 (data : List Byte)
  | rdc (data : List Byte) (whole : Bool)
  | far
deriving DecidableEq, Repr

/-- The nearest copy of bytes of a line (R78, R88, R99). -/
def State.near (s : State) (r : CtxRef) (pa : Nat) (leaf : W64) (off n : Nat) : Near :=
  if !cacheable leaf pa then .far
  else
    let line := s.lineOf pa
    match s.l1Find r.site r.core line with
    | some l => .l1 l.data
    | none =>
      if s.homeOf pa leaf = r.site then .far
      else
        match s.rdcFind r.site line with
        | some l => if l.has off n then .rdc l.data (l.valid.all id) else .far
        | none => .far

/-- A load of `n` bytes at a checked target. -/
def State.loadAt (s : State) (va : W64) (n : Nat) (dst : LoadDst) (t : Target) : State :=
  match t with
  | .engine off =>
    (match s.engRead s.cur off with
      | none => s.trap 0x09 va
      | some v => s.modC fun c => c.deliver dst (List.replicate (va.toNat % 128) 0 ++ toBytes 8 v.toNat))
  | .loc core off _ =>
    let pa := lmemPa s.cur.site core off
    let on := s.powerUp s.cur.site core off n
    if core = s.cur.core then on.modC fun c => c.deliver dst (s.lineBytes pa)
    else if s.c.ocl = 255 then s.flow .stall
    else on.loadReq va pa 0 dst .done (s.lineBytes pa)
  | .mem pa leaf _ =>
    match s.near s.cur pa leaf (pa % 128) n with
    | .l1 data => s.modC fun c => c.deliver dst data
    | .rdc data whole =>
      if s.c.ocl = 255 then s.flow .stall
      else
        let id := s.nextId
        (s.loadReq va pa leaf dst .done data).modReq id fun q => { q with install := q.install && whole }
    | .far =>
      if s.c.ocl = 255 ∨ (leafMT leaf = 2 ∧ s.deviceBusy s.cur) ∨ s.injFull s.cur (s.homeOf pa leaf) then s.flow .stall
      else s.loadReq va pa leaf dst .sent []

/-- Plain load (R277). -/
def State.plainLoad (s : State) (d : BitVec 5) (m : LdMode) (va : W64) : State :=
  let n := ldSize m
  s.reach (Access.plain n false) va fun s t =>
    let off := match t with | .mem pa _ _ => pa % 128 | _ => va.toNat % 128
    s.loadAt va n (.g d m off) t

/-- Window code of a local address; none for any other. -/
def State.localCode (s : State) (va : W64) : Option Nat :=
  match s.engLoc s.cur va with
  | some (_, _, code) => some code
  | none => none

/-- An access through a window, for widening, narrowing and vector forms. -/
def Access.win (size : Nat) (write : Bool) : Access :=
  ⟨size, size, write, false, true, false, false, false, false, false⟩

/-- Offset of an access as the scale descriptor counts it: the local offset, or for a translated page the offset from the
start of its frame (R23, R37). -/
def Target.scaleOff : Target → Nat
  | .loc _ off _ => off
  | .mem pa leaf size => pa - leafFrame leaf size
  | .engine _ => 0

/-- Row 8 of R275: a cause; no scale; the scale of the access; a scale word whose line its home has to have back first or that
a store of the die is on its way to; or a scale word that is poisoned. -/
inductive Scale where
  | cause (code : Nat)
  | none
  /-- The scale, and its address. -/
  | val (w : W32) (pa : Nat)
  | wait (line : Nat)
  | poison (line : Nat)
deriving DecidableEq, Repr

/-- The scale word of a global line as the context's access finds it: in L1, in the die's cache, or at its home (R23, R56). -/
def State.scaleWord (s : State) (a : Nat) (leaf : W64) : Scale :=
  let line := s.lineOf a
  match s.near s.cur a leaf (a % 128) 4 with
  | .l1 data => .val (BitVec.ofNat 32 (fieldAt data (a % 128) 4)) a
  | .rdc data _ => .val (BitVec.ofNat 32 (fieldAt data (a % 128) 4)) a
  | .far =>
    if s.hostHolds line || (s.ownerOf line).isSome || s.lineBusy s.cur.site s.cur.core line || s.dieWrites s.cur.site line then
      .wait line
    else if s.poison.contains line then .poison line
    else .val (s.word (s.plain a)) a

/-- The scale word at an offset (R23, R37): in the local memory of the core that the address names, held by the context; or
in the page's frame, where a word that the frame does not hold counts as not covered (log entry 65). -/
def State.scaleAt (s : State) (t : Target) (so : Nat) : Scale :=
  match t with
  | .loc core _ _ =>
    if 524288 < so + 4 ∨ (!s.c.sys && !(s.core s.cur.site core).covers (holderOf s.cur) false so 4) then .cause 0x0A
    else .val (s.word (lmemPa s.cur.site core so)) (lmemPa s.cur.site core so)
  | .mem _ leaf size =>
    let a := leafFrame leaf size + so
    if size < so + 4 then .cause 0x0A
    else if paRegion a = 3 then .val (s.word a) a
    else s.scaleWord a leaf
  | .engine _ => .none

/-- Row 8 of R275 for an access through a window: the scale descriptor's checks, then the scale (none when EN = 0). -/
def State.scaleOf (s : State) (code : Nat) (write : Bool) (t : Target) : Scale :=
  let w := s.c.wscale.toList.getD (code - 1) 0
  let o := t.scaleOff
  if write ∧ 4 < bits w 1 3 then .cause 0x0E
  else if !bit w 0 then .none
  else if o < bits w 27 19 then .cause 0x0E
  else s.scaleAt t (bits w 8 19 / 4 * 4 + 4 * ((o - bits w 27 19) / elemBytes code / 2 ^ bits w 4 4))

/-- What an access does with its scale: its cause, a wait, a fatal cause, or on, a gated bank that holds the scale powered up
(R68). -/
def State.withScale (s : State) (sc : Scale) (va : W64) (f : State → Option W32 → State) : State :=
  match sc with
  | .cause c => s.trap c va
  | .none => f s Option.none
  | .val w pa => f (s.powerPa pa 4) (some w)
  | .wait line => ((s.claimLine line (some s.cur)).1).flow .stall
  | .poison line => s.fatalHere 0x30 (BitVec.ofNat 64 (line * 128))

/-- Rounding of a window's stores. -/
def Ctx.winRm (c : Ctx) (code : Nat) : Rm := epiRm (bits (c.wscale.toList.getD (code - 1) 0) 1 3)

/-- A scalar access through a window: 0x0E unless the window's element size is the instruction's, then row 8, before a walk sets D
for a store. -/
def State.winAccess (s : State) (busy : Bool) (es : Nat) (write : Bool) (va : W64)
    (f : State → Target → Nat → Option W32 → State) : State :=
  let bad (code : Nat) : Bool := code = 0 || 5 < code || elemBytes code ≠ es
  let go : State := s.reachAll busy (Access.win es write) va fun s t d =>
    if bad t.code then s.trap 0x0E va
    else s.withScale (s.scaleOf t.code write t) va fun s sc => if d then s.waitWalk va true else f s t t.code sc
  match s.localCode va with
  | some code => if va.toNat % es = 0 ∧ bad code then s.trap 0x0E va else go
  | none => go

/-- Widening load (R278). -/
def State.widenLoad (s : State) (d : BitVec 5) (es : Nat) (va : W64) : State :=
  s.winAccess (s.pageBusy va) es false va fun s t code sc =>
    let off := match t with | .mem pa _ _ => pa % 128 | _ => va.toNat % 128
    s.loadAt va es (.widen d code off sc) t

/-- `ld` (R277). -/
def execLd (d a : BitVec 5) (m : LdMode) (o : BitVec 11) (s : State) : Result :=
  .next (s.plainLoad d m (s.ea a o (ldSize m)))

/-- `ldIndexed` (R277): address ga + gb. -/
def execLdIndexed (d a b : BitVec 5) (m : LdMode) (s : State) : Result :=
  .next (s.plainLoad d m (s.g a + s.g b))

/-- `ldxB` (R278). -/
def execLdxB (d a : BitVec 5) (o : BitVec 11) (s : State) : Result :=
  .next (s.widenLoad d 1 (s.ea a o 1))

/-- `ldxH` (R278). -/
def execLdxH (d a : BitVec 5) (o : BitVec 11) (s : State) : Result :=
  .next (s.widenLoad d 2 (s.ea a o 2))

/-- `ldk` (R279): word kN of the context's own constant window. -/
def execLdk (d : BitVec 5) (k : BitVec 8) (s : State) : Result :=
  .next (s.gw d (s.dword (lmemPa s.cur.site s.cur.core (2048 * s.cur.ctx + 8 * k.toNat))))

/-! ### Prefetch (R280) -/

/-- A prefetch of a line, dropped where R280 says so. -/
def State.prefetch (s : State) (va : W64) (l1 : Bool) : State :=
  match s.check s.cur ⟨1, 1, false, false, true, false, false, false, false, false⟩ va with
  | .ok (.mem pa leaf _) =>
    if leafMT leaf = 2 ∨ leafXO leaf ∨ 5 < leafFmt leaf ∨ s.poison.contains (s.lineOf pa) ∨
        (3 ≤ paRegion pa ∧ paRegion pa ≤ 7) then s
    else
      -- a copy near by ends `pf.l1`; `pf.l2` still fills the home's L2 slice
      match l1, s.near s.cur pa leaf 0 128 with
      | true, .l1 _ => s
      | true, .rdc _ _ => s
      | _, _ =>
        if s.injFull s.cur (s.homeOf pa leaf) then s.flow .stall
        else (s.tlbTouch s.cur va).send s.cur va pa leaf (.load (.prefetch l1)) .sent []
  | _ => s

/-- `pfL1`. -/
def execPfL1 (a : BitVec 5) (o : BitVec 11) (s : State) : Result :=
  .next (s.prefetch (s.ea a o 128) true)

/-- `pfL2`. -/
def execPfL2 (a : BitVec 5) (o : BitVec 11) (s : State) : Result :=
  .next (s.prefetch (s.ea a o 128) false)

/-! ### Stores -/

/-- A store to a global line: the core's own L1 copy takes it, other L1 copies of the die go for a remote line, a bound
remote line takes it in the die's cache, any other goes to its home as a request (R78, R79, R88). A store that may not be held
in a cache goes to its home too, and updates the copies that another mapping of the line has left (R78, R79, R101). Answers
whether a request was made. -/
def State.storeMem (s : State) (r : CtxRef) (asid : BitVec 16) (va : W64) (pa : Nat) (leaf : W64)
    (bs : List (Nat × Byte)) : State × Bool :=
  let line := s.lineOf pa
  let send (s : State) : State := s.sendAs r asid va pa leaf (.store bs 0) .sent []
  let s := s.l1Write r.site r.core line bs
  if s.homeOf pa leaf = r.site then (send s, true)
  else
    let s := (s.l1Drop r.site line (some r.core)).staleFills line fun q => q.who.site = r.site
    if !cacheable leaf pa then (send (s.rdcPass r.site line bs true), true)
    else
      match s.storeTag r.site line asid va with
      | some t => (s.rdcStore r.site line (s.homeOf pa leaf) t bs, false)
      | none => (send (s.rdcPass r.site line bs false), true)

/-- ocs counts one more store. -/
def State.ocsUp (s : State) (r : CtxRef) : State := s.modCtx r fun c => { c with ocs := c.ocs + 1 }

/-- A replay entry for a plain store of the context in issue. -/
def State.storeEntry (s : State) (va : W64) (data : List Byte) : ReplayEntry :=
  { ctx := s.cur.ctx, asid := s.c.asid, va := va, data := data, faulted := false, src := .store, win := 0,
    inTrap := s.c.inHandler, job := 0, retry := false, tag := 0, id := s.nextId, holes := [],
    sys := s.c.sys }

/-- A store whose address has been checked parks behind the parked stores of its page, or as FAULTED with its cause; with no entry
free its context stops at the bundle (R128 to R130). -/
def State.parkHere (s : State) (e : ReplayEntry) (code : Option Nat) : State :=
  if s.rqRoom s.cur then (s.parkStore s.cur e code).takeId.ocsUp s.cur else s.flow .stall

/-- A plain store waits in its core for the walk of its page; it has an entry of the replay queue set aside (R130). -/
def State.storeWalk (s : State) (e : ReplayEntry) (setD : Bool) : State :=
  if s.rqRoom s.cur then
    ((s.modCore s.cur.site s.cur.core fun k => { k with stw := k.stw ++ [e] }).takeId.askWalk s.cur s.c.asid e.va setD false).ocsUp
      s.cur
  else s.flow .stall

/-- A plain store of bytes (R281, R283, R129): it never parks its context. A target that does not exist is a precise cause where
a TLB holds the translation (log entry 79). -/
def State.plainStore (s : State) (va : W64) (data : List Byte) : State :=
  let n := data.length
  let e := s.storeEntry va data
  let full : Bool := s.c.ocs == 255
  let plain : State := s.modC fun c => { c with walkFault := none }
  match plain.check s.cur (Access.plain n true) va with
  | .cause c v => s.trap c v
  | .refused c =>
    if full then s.flow .stall
    else if s.pageWalking s.cur va then s.storeWalk e false
    else s.parkHere e (if s.pageParked s.cur va then none else some c)
  | .miss =>
    if full then s.flow .stall
    else if s.pageParked s.cur va then s.parkHere e none
    else s.storeWalk e false
  | .dirty t =>
    let pa := match t with | .mem pa _ _ => pa | _ => 0
    s.atTarget full (Access.plain n true) va pa
      (if s.pageParked s.cur va then s.parkHere e none else s.storeWalk e true)
  | .ok (.loc core off _) =>
    if full then s.flow .stall else (s.powerUp s.cur.site core off n).setBytes (lmemPa s.cur.site core off) data
  | .ok (.engine off) =>
    (match s.engWriteReg s.cur off (BitVec.ofNat 64 (ofBytes data)) with
      | .error c => s.trap c va
      | .ok none => s.flow .stall
      | .ok (some s') => s')
  | .ok (.mem pa leaf _) =>
    s.atTarget (full || (leafMT leaf = 2 && s.deviceBusy s.cur) || s.injFull s.cur (s.homeOf pa leaf)) (Access.plain n true) va pa
      (if s.pageParked s.cur va then s.parkHere e none
      else if s.pageWalking s.cur va then s.storeWalk e false
      else
        let (s, req) := (s.tlbTouch s.cur va).storeMem s.cur s.c.asid va pa leaf (runAt (pa % 128) data)
        if req then s.ocsUp s.cur else s)

/-- Narrowing store (R282, R55). Behind a parked store of its page it parks too, its data formed for its window (R128 to
R130). -/
def State.narrowStore (s : State) (es : Nat) (va : W64) (x : W32) : State :=
  s.winAccess (s.pageWalking s.cur va) es true va fun s t code sc =>
    let md := s.c.winRm code
    let data := toBytes es (windowStore code md s.rnd x sc)
    if s.c.ocs = 255 then s.flow .stall
    else
      match t with
      | .loc core off _ => ((s.powerUp s.cur.site core off es).setBytes (lmemPa s.cur.site core off) data).drew md 1
      | .engine _ => s
      | .mem pa leaf _ =>
        if s.pageParked s.cur va then
          (if s.rqRoom s.cur then (s.parkHere { s.storeEntry va data with win := code } none).drew md 1 else s.flow .stall)
        else if (leafMT leaf = 2 ∧ s.deviceBusy s.cur) ∨ s.injFull s.cur (s.homeOf pa leaf) then s.flow .stall
        else
          let (s, req) := s.storeMem s.cur s.c.asid va pa leaf (runAt (pa % 128) data)
          (if req then s.ocsUp s.cur else s).drew md 1

/-- Low bytes of a register. -/
def lowBytes (v : W64) (n : Nat) : List Byte := toBytes n v.toNat

/-- `st` (R281). -/
def execSt (b a : BitVec 5) (m : StSize) (o : BitVec 11) (s : State) : Result :=
  .next (s.plainStore (s.ea a o (stSize m)) (lowBytes (s.g b) (stSize m)))

/-- `stIndexed` (R281): address ga + gb. -/
def execStIndexed (x a b : BitVec 5) (m : StSize) (s : State) : Result :=
  .next (s.plainStore (s.g a + s.g b) (lowBytes (s.g x) (stSize m)))

/-- `stxB` (R282). -/
def execStxB (b a : BitVec 5) (o : BitVec 11) (s : State) : Result :=
  .next (s.narrowStore 1 (s.ea a o 1) (lo32 (s.g b)))

/-- `stxH` (R282). -/
def execStxH (b a : BitVec 5) (o : BitVec 11) (s : State) : Result :=
  .next (s.narrowStore 2 (s.ea a o 2) (lo32 (s.g b)))

/-! ### Vector loads and stores (R318 to R320) -/

/-- A checked lane: number, address, target, its scale and where that stands, and whether a walk has still to set D in its
leaf. -/
structure LaneAcc where
  lane : Nat
  va : W64
  t : Target
  sc : Option W32
  sa : Nat
  dirty : Bool
deriving DecidableEq, Repr

/-- What checking the lanes answers. -/
inductive Lanes where
  | ok (l : List LaneAcc)
  | cause (code : Nat) (va : W64)
  | walk (va : W64) (setD : Bool)
  | stall
  /-- A lane's scale word has to come back to its home first, or is poisoned. -/
  | scale (sc : Scale)
deriving DecidableEq, Repr

/-- Window code of the base address (R318): its cause or walk where it has none (log entry 81). -/
def State.baseCode (s : State) (va : W64) : Except Lanes Nat :=
  match s.localCode va with
  | some c => .ok c
  | none =>
    if !canonical va ∨ bit va 55 then .error (.cause 0x09 va)
    else
      match s.tlbFind s.cur.site s.cur.core s.c.asid va.toNat with
      | some e => .ok (leafFmt e.leaf)
      | none =>
        match s.c.walkFault with
        | some (vpn, cc) => .error (if vpn = va.toNat / 4096 then .cause cc va else .walk va false)
        | none => .error (.walk va false)

/-- Access of a lane (R319): through a window, on no device page. -/
def Access.lane (size : Nat) (write : Bool) : Access := { Access.win size write with noDevice := true }

/-- Row 8 of R275 and then the window code, for a lane that passed the other rows. -/
def State.laneAt (s : State) (code : Nat) (write : Bool) (i : Nat) (va : W64) (t : Target) (dirty : Bool) : Except Lanes LaneAcc :=
  let same (a : LaneAcc) : Except Lanes LaneAcc := if t.code = code then .ok a else .error (.cause 0x0E va)
  if t.code = 0 then same ⟨i, va, t, none, 0, dirty⟩
  else
    match s.scaleOf t.code write t with
    | .cause c => .error (.cause c va)
    | .none => same ⟨i, va, t, none, 0, dirty⟩
    | .val w pa => same ⟨i, va, t, some w, pa, dirty⟩
    | sc => .error (.scale sc)

/-- One lane's checks: the lane with its target and scale, or what stops the access (R319, R320). -/
def State.checkLane (s : State) (code es : Nat) (write : Bool) (i : Nat) (va : W64) : Except Lanes LaneAcc :=
  let at_ (t : Target) (dirty : Bool) : Except Lanes LaneAcc :=
    match t with
    | .mem pa _ _ =>
      if s.noReg pa then .error (.cause 0x09 va)
      else if debugBad pa es then .error (.cause 0x0B va)
      else s.laneAt code write i va t dirty
    | _ => s.laneAt code write i va t dirty
  if s.pageBusy va then .error .stall
  else
    match s.check s.cur (Access.lane es write) va with
    | .cause c v => .error (.cause c v)
    | .refused c => .error (.cause c va)
    | .miss => .error (.walk va false)
    | .ok t => at_ t false
    | .dirty t => at_ t true

/-- Check the lanes of a vector access in ascending order: the first that fails decides. Where all pass, a walk sets D for the
first whose leaf lacks it. -/
def State.checkLanes (s : State) (code es : Nat) (write : Bool) : List (Nat × W64) → List LaneAcc → Lanes
  | [], acc =>
    match acc.reverse.find? (·.dirty) with
    | some a => .walk a.va true
    | none => .ok acc.reverse
  | (i, va) :: l, acc =>
    match s.checkLane code es write i va with
    | .error e => e
    | .ok a => State.checkLanes s code es write l (a :: acc)

/-- A vector access behind its checks: `addr` gives lane addresses for an element size. With no active lane the base's window is
still looked at, and nothing else (R318). -/
def State.vmem (s : State) (k : BitVec 2) (base : W64) (write : Bool) (addr : Nat → Nat → W64)
    (f : State → Nat → Nat → List LaneAcc → State) : Result :=
  s.vguard 0 <|
    let act := (List.range s.c.vl).filter fun i => s.c.active k i
    let stop (s : State) (l : Lanes) : State :=
      match l with
      | .cause c va => s.trap c va
      | .walk va d => s.waitWalk va d
      | .scale sc => s.withScale sc 0 fun s _ => s
      | _ => s.flow .stall
    match s.baseCode base with
    | .error (.cause c va) => if act.isEmpty then s else stop s (.cause c va)
    | .error l => stop s l
    | .ok code =>
      if 5 < code then s.trap 0x0E base
      else if act.isEmpty then s
      else
        let es := elemBytes code
        match s.checkLanes code es write (act.map fun i => (i, addr es i)) [] with
        | .ok l => f s code es l
        | l => stop s l

/-- Physical address of a lane's target. -/
def LaneAcc.pa (s : State) (a : LaneAcc) : Nat :=
  match a.t with
  | .loc core off _ => lmemPa s.cur.site core off
  | .mem pa _ _ => pa
  | .engine _ => 0

/-- Line of a lane: one for the two addresses of a line of the interleaved window (R13), and for the windows of local memory. -/
def LaneAcc.line (s : State) (a : LaneAcc) : Nat :=
  let pa := a.pa s
  if paRegion pa = 3 then mkPa 3 (paSite pa) (pa % 134217728) / 128 else s.lineOf pa

/-- A lane in local memory that its address names without translation. -/
def LaneAcc.isLoc (a : LaneAcc) : Bool := match a.t with | .loc _ _ _ => true | _ => false

/-- The lanes of one line, those that need no request ahead. -/
def sameLine (s : State) (l : List LaneAcc) (line : Nat) : List LaneAcc :=
  let mine := l.filter fun a => a.line s = line
  mine.filter (·.isLoc) ++ mine.filter fun a => !a.isLoc

/-- Distinct lines in order of first use. -/
def linesOf (s : State) (l : List LaneAcc) : List Nat := (l.map fun a => a.line s).eraseDups

/-- Banks of local memory that hold scales power up (R68). -/
def State.scalesUp (s : State) (l : List LaneAcc) : State := l.foldl (fun s a => s.powerPa a.sa 4) s

/-- One line's lanes of a vector load: bytes at once, or a request. -/
def State.vloadLine (s : State) (v : BitVec 4) (code es : Nat) (l : List LaneAcc) : State × Option Nat :=
  let lanes := l.map fun a => (a.lane, a.pa s % 128, code, a.sc)
  let dst : LoadDst := .lanes v lanes
  match l with
  | [] => (s, none)
  | a :: _ =>
    let now (data : List Byte) : State × Option Nat := (s.modC fun c => c.deliver dst data, none)
    let req (leaf : W64) (stage : ReqStage) (data : List Byte) (inst : Bool) : State × Option Nat :=
      let id := s.nextId
      ((s.send s.cur a.va (a.pa s) leaf (.load dst) stage data).modReq id fun q => { q with install := q.install && inst },
        some id)
    match a.t with
    | .engine _ => (s, none)
    | .loc core off _ =>
      let data := s.lineBytes (lmemPa s.cur.site core off)
      let (s', id) := if core = s.cur.core then now data else req 0 .done data false
      (s'.powerUp s.cur.site core (off / 128 * 128) 128, id)
    | .mem pa leaf _ =>
      let near := if l.all fun a => s.near s.cur (a.pa s) leaf (a.pa s % 128) es != .far then
        s.near s.cur pa leaf (pa % 128) es else .far
      match near with
      | .l1 data => now data
      | .rdc data whole => req leaf .done data whole
      | .far => req leaf .sent [] true

/-- The injection queue takes no request to the home of a lane (R86). A vector access issues when it can take one to each home;
its further lines wait in the load-store unit for entries (`State.injected`). -/
def State.lanesFull (s : State) (l : List LaneAcc) : Bool :=
  l.any fun a => match a.t with | .mem pa leaf _ => s.injFull s.cur (s.homeOf pa leaf) | _ => false

/-- A vector load of checked lanes. -/
def State.vload (s : State) (v : BitVec 4) (code es : Nat) (l : List LaneAcc) : State :=
  if s.c.ocl = 255 ∨ s.lanesFull l then s.flow .stall
  else
    let s := s.modC fun c => c.wv v ((List.range c.vl).map fun i => lane (c.rv v) i)
    let s := l.foldl (fun s a => s.tlbTouch s.cur a.va) (s.scalesUp l)
    let (s, ids) := (linesOf s l).foldl (fun (x : State × List Nat) ln =>
      let (s, o) := x.1.vloadLine v code es (sameLine x.1 l ln)
      (s, x.2 ++ o.toList)) (s, [])
    if ids.isEmpty then s
    else (s.modC fun c => { c with ocl := c.ocl + 1 }).parkOn ids (rV [v])

/-- Bytes of a lane of a vector store. -/
def vstBytes (code es : Nat) (md : Rm) (w : BitVec 16) (x : W32) (sc : Option W32) : List Byte :=
  if code = 0 then toBytes 4 x.toNat else toBytes es (windowStore code md w x sc)

/-- A vector store of checked lanes, one request for each global line; it counts once in ocs. -/
def State.vstore (s : State) (v : BitVec 4) (code es : Nat) (l : List LaneAcc) : State :=
  if s.c.ocs = 255 ∨ s.lanesFull l then s.flow .stall
  else
    let md := if code = 0 then .ne else s.c.winRm code
    let src := s.c.rv v
    let t0 := s.tick
    let data := l.mapIdx fun j (a : LaneAcc) =>
      (a, vstBytes code es md (Config.randomWord (t0 + j)) (lane src a.lane) a.sc)
    let first := s.nextId
    let s := l.foldl (fun s a => s.tlbTouch s.cur a.va) (s.scalesUp l)
    let (s, sent) := (linesOf s l).foldl (fun (x : State × Bool) ln =>
      let s := x.1
      let mine := data.filter fun d => d.1.line s = ln
      let bs := mine.flatMap fun d => runAt (d.1.pa s % 128) d.2
      match sameLine s l ln with
      | [] => x
      | a :: _ =>
        match a.t with
        | .loc core off _ =>
          (mine.foldl (fun s d => s.setBytes (d.1.pa s) d.2) (s.powerUp s.cur.site core (off / 128 * 128) 128), x.2)
        | .engine _ => x
        | .mem pa leaf _ =>
          match s.storeMem s.cur s.c.asid a.va pa leaf bs with
          | (t, true) => (t.modReq s.nextId fun q => { q with grp := first }, true)
          | (t, false) => (t, x.2)) (s, false)
    let s := if sent then s.ocsUp s.cur else s
    if md = .rs then { s with tick := max s.tick (t0 + l.length) } else s

/-- Address of lane `i` by form. -/
def State.unitAddr (s : State) (a : BitVec 5) (o : BitVec 11) (es i : Nat) : W64 :=
  s.ea a o es + BitVec.ofNat 64 (i * es)
def State.strideAddr (s : State) (a : BitVec 5) (o : BitVec 11) (es i : Nat) : W64 :=
  s.ea a o es + BitVec.ofNat 64 i * s.g (a + 1)
def State.gatherAddr (s : State) (a : BitVec 5) (x : BitVec 4) (i : Nat) : W64 :=
  s.g a + (lane (s.c.rv x) i).setWidth 64

/-- `vld`. -/
def execVld (v : BitVec 4) (a : BitVec 5) (k : BitVec 2) (o : BitVec 11) (s : State) : Result :=
  s.vmem k (s.g a) false (s.unitAddr a o) fun s => s.vload v

/-- `vldS`: stride register g(GA + 1). -/
def execVldS (v : BitVec 4) (a : BitVec 5) (k : BitVec 2) (o : BitVec 11) (s : State) : Result :=
  s.vmem k (s.g a) false (s.strideAddr a o) fun s => s.vload v

/-- `vldBc`: one address for every lane. -/
def execVldBc (v : BitVec 4) (a : BitVec 5) (k : BitVec 2) (o : BitVec 11) (s : State) : Result :=
  s.vmem k (s.g a) false (fun es _ => s.ea a o es) fun s => s.vload v

/-- `vldG`: gather by the lanes of vI. -/
def execVldG (v : BitVec 4) (a : BitVec 5) (k : BitVec 2) (i : BitVec 4) (s : State) : Result :=
  s.vmem k (s.g a) false (fun _ => s.gatherAddr a i) fun s => s.vload v

/-- `vst`. -/
def execVst (v : BitVec 4) (a : BitVec 5) (k : BitVec 2) (o : BitVec 11) (s : State) : Result :=
  s.vmem k (s.g a) true (s.unitAddr a o) fun s => s.vstore v

/-- `vstS`. -/
def execVstS (v : BitVec 4) (a : BitVec 5) (k : BitVec 2) (o : BitVec 11) (s : State) : Result :=
  s.vmem k (s.g a) true (s.strideAddr a o) fun s => s.vstore v

/-- `vstG`. -/
def execVstG (v : BitVec 4) (a : BitVec 5) (k : BitVec 2) (i : BitVec 4) (s : State) : Result :=
  s.vmem k (s.g a) true (fun _ => s.gatherAddr a i) fun s => s.vstore v

end Sys2Proof.Machine
end

