-- ==== Sys2Proof/Machine/Atomic.lean ====
section
/-! DEFINITION. Bindings with acquire, release and fences as the memory system sees them (R106 to R119), owned lines and
the contention predictor (R145 to R148), and the instructions `amo`, `amo.cas` and `red` (R140 to R145, R152). -/

namespace Sys2Proof.Machine

/-! ### Waits of fences and releases (R112, R117, R131) -/

/-- Every earlier access of a context is performed, and its replay queue is empty (with the handler's exemption). -/
def State.drained (s : State) (r : CtxRef) : Bool := !s.rqBusy r && decide (s.ocsNow r = 0) && !s.awaiting r

/-- Scope codes of R98. -/
def scopeCode : Scope → Nat
  | .core => 0 | .cluster => 1 | .die => 2 | .module => 3 | .system => 4

/-- Module or system scope. -/
def wide (e : Scope) : Bool := 3 ≤ scopeCode e

/-- The remote-data-cache action of `fence.S` (R88, R117). -/
def State.fenceAct (s : State) (site : Nat) (e : Scope) : State := if wide e then s.rdcUnbound site else s

/-! ### Bindings (R107 to R110) -/

/-- VA[55:7] of an address. -/
def vline (va : W64) : Nat := bits va 7 49

/-- The binding table of an ASID: base and entries; none when it breaks R107. -/
def State.bindTable (s : State) (asid : BitVec 16) : Option (Nat × Nat) :=
  let b := s.asidDw asid.toNat 2
  let base := bits b 12 40 * 4096
  let n := 64 * 2 ^ bits b 0 4
  if 8 < bits b 0 4 ∨ bits b 4 8 ≠ 0 ∨ bits b 52 12 ≠ 0 ∨ !(paRegion base = 0 || paRegion base = 2) then none
  else some (base, n)

/-- Physical addresses of the eight probed entries of an object (R108). -/
def probeAddrs (base n o : Nat) : List Nat := (List.range 8).map fun i => base + 32 * ((o + i) % n)

/-- The entry of an object. -/
def State.probe (s : State) (base n o : Nat) : Option Nat :=
  (probeAddrs base n o).find? fun a => bit (s.dword a) 0 && bits (s.dword a) 7 49 == o

/-- A slot's binding is dropped or replaced: the slot-reuse event of R88 first. -/
def State.dropSlot (s : State) (site slot : Nat) : State :=
  (s.rdcAcquire site slot).modDie site fun d => { d with bind := d.bind.filter fun b => b.slot != slot }

/-- An acquire or release is in progress on a slot. -/
def State.slotBusy (s : State) (site slot : Nat) : Bool :=
  s.reqs.any fun q => q.who.site == site && (match q.kind with | .writeback _ t => t == slot | _ => false)

/-- Write-backs of lines held under an object's binding are on their way, from any die; the last argument is the object's
VA[55:7] as an address. -/
def State.objBusy (s : State) (asid : BitVec 16) (obj : W64) : Bool :=
  s.reqs.any fun q => q.asid == asid && q.va == obj && (match q.kind with | .writeback _ t => decide (t < 64) | _ => false)

/-- The least recently used slot that may be taken; the list of bindings runs from least to most recently used. A slot that has
lost its binding may be taken once what it held has been written back. -/
def State.victimSlot (s : State) (site : Nat) : Option Nat :=
  let d := s.die site
  match (List.range 64).find? fun t => !(d.bind.any fun b => b.slot = t) && !s.slotBusy site t with
  | some t => some t
  | none => (d.bind.find? fun b => !s.slotBusy site b.slot).map (·.slot)

/-- The object, by VA[55:7], that an ordered atomic on a word acts on: the word is an object where it lies in the first 8
bytes of its line (R106, R143). -/
def objectOf (va : W64) : Option Nat := if va.toNat % 128 < 8 then some (vline va) else none

/-- A slot is made free for a new binding: the victim's lines are written back and dropped first (R88, R110); false where no slot
may be taken yet. -/
def State.roomSlot (s : State) (site : Nat) : State × Option Nat :=
  match s.victimSlot site with
  | none => (s, none)
  | some t =>
    let s := s.dropSlot site t
    (s, if s.slotBusy site t then none else some t)

/-- What looking for an object's slot gives: the slot; no binding; no slot to be taken yet; or a line of the tables that the host
has to give back first (R139). -/
inductive SlotFill where
  | slot (t : Nat)
  | unbound
  | full
  | host
deriving DecidableEq, Repr

/-- The die's slot of an object, filled from the table at its homes when no slot holds it (R110). A table that breaks R107 holds no
binding: only an ordered atomic gets here with one, for which R107 names no cause (log entry 63). -/
def State.bindSlot (s : State) (site : Nat) (asid : BitVec 16) (va : W64) (who : Option CtxRef) : State × SlotFill :=
  let o := vline va
  match (s.die site).bind.find? fun b => b.asid = asid ∧ b.obj = o with
  | some b => (s.modDie site fun d => { d with bind := (d.bind.filter fun x => x.slot != b.slot) ++ [b] }, .slot b.slot)
  | none =>
    match s.claimLine (s.lineOf (s.asidPa asid.toNat)) who with
    | (s, false) => (s, .host)
    | (s, true) =>
      match s.bindTable asid with
      | none => (s, .unbound)
      | some (base, n) =>
        match s.claimLines who ((probeAddrs base n o).map s.lineOf) with
        | (s, false) => (s, .host)
        | (s, true) =>
          match s.probe base n o with
          | none => (s, .unbound)
          | some a =>
            match s.roomSlot site with
            | (s, none) => (s, .full)
            | (s, some t) =>
              let e1 := s.dword (a + 8)
              let e2 := s.dword (a + 16)
              ((s.rdcUnbound site).modDie site fun d =>
                { d with bind := d.bind ++ [⟨t, asid, o, bits e1 7 49, bits e2 0 32⟩] }, .slot t)

/-- Dirty lines of a slot leave for their homes; the lines stay valid and clean (R88). -/
def State.releaseSlot (s : State) (site slot : Nat) : State :=
  let d := s.die site
  let ls := d.rdc.filter fun l => l.tag = some slot ∧ l.dirty.any id
  let s := ls.foldl (fun s l =>
    s.sendBack site l (d.lineAsid l)
      ((List.range 128).filterMap fun i => if l.dirty.getD i false then some (i, l.data.getD i 0) else none)) s
  s.modDie site fun d =>
    { d with
      rdc := d.rdc.map fun l => if l.tag = some slot then { l with dirty := List.replicate 128 false } else l }

/-- The context in issue parks until a slot of its die's binding cache may be taken (R110); its bundle executes again. -/
def State.waitFill (s : State) : State := ((s.modC fun c => { c with wait := .slotFill, redo := true }).leave s.cur .parked).flow .again

/-- A slot of a die may be taken again: contexts that wait for one try again. -/
def State.slotFreed (s : State) (site : Nat) : State :=
  let ws := s.liveCtxs.filter fun r => r.site = site ∧ (s.ctx r).wait = .slotFill
  ws.foldl (fun s r => (s.modCtx r fun c => { c with wait := .replies [] }).unpark r) s

/-- The release part at scope S (R112): wait for the context's accesses, then for every write-back of lines of a bound object's
slot, or of one that held its binding before, whichever context of the die began it. -/
def State.releasePart (s : State) (va : W64) (e : Scope) (f : State → State) : State :=
  if !s.drained s.cur then s.flow .stall
  else
    match s.bindSlot s.cur.site s.c.asid va (some s.cur) with
    | (s, .full) => s.waitFill
    | (s, .host) => s.flow .stall
    | (s, .unbound) => f s
    | (s, .slot t) =>
      if !wide e then f s
      else if (s.die s.cur.site).rdc.any fun l => l.tag == some t && l.dirty.any id then
        (s.releaseSlot s.cur.site t).flow .stall
      else if s.slotBusy s.cur.site t || s.objBusy s.c.asid (BitVec.ofNat 64 (vline va * 128)) then s.flow .stall
      else f s

/-- The acquire part at scope S (R113) of an operation on the object at an address; false while the slot fill has to wait (R110). -/
def State.acquirePart (s : State) (r : CtxRef) (va : W64) (e : Scope) : State × Bool :=
  match s.bindSlot r.site (s.ctx r).asid va (some r) with
  | (s, .slot t) => (if wide e then s.rdcAcquire r.site t else s, true)
  | (s, .unbound) => (s, true)
  | (s, _) => (s, false)

/-! ### Atomics -/

/-- Value of an operation on `n` bits (R140); none for a `cas` that fails. -/
def atomNew (o : AtomOp) (dbl : Bool) (old v : Nat) : Option Nat :=
  let n := if dbl then 64 else 32
  let f := if dbl then Fmt.fp64 else Fmt.fp32
  let sg (x : Nat) : Int := if 2 ^ (n - 1) ≤ x then (x : Int) - 2 ^ n else x
  let v := v % 2 ^ n
  match o with
  | .cas c => if old = c.toNat % 2 ^ n then some v else none
  | .op .swap => some v
  | .op .add => some ((old + v) % 2 ^ n)
  | .op .and => some (Nat.land old v)
  | .op .or => some (Nat.lor old v)
  | .op .xor => some (Nat.xor old v)
  | .op .smin => some (if sg v < sg old then v else old)
  | .op .smax => some (if sg old < sg v then v else old)
  | .op .umin => some (min old v)
  | .op .umax => some (max old v)
  | .op .fadd => some (f.fadd .ne 0 old v)
  | .op .fmin => some (f.fmin old v)
  | .op .fmax => some (f.fmax old v)

/-- Bytes of an atomic. -/
def atomSize (dbl : Bool) : Nat := if dbl then 8 else 4

/-- An atomic executes on memory at an address: the old value. A global line's write is accepted by its home (R147). -/
def State.atomAt (s : State) (pa : Nat) (leaf : W64) (asid : BitVec 16) (o : AtomOp) (dbl : Bool) (v : Nat) :
    State × Nat :=
  let n := atomSize dbl
  let old := ofBytes (s.bytes pa n)
  match atomNew o dbl old v with
  | none => (s, old)
  | some x =>
    if paRegion pa = 3 then (s.setBytes pa (toBytes n x), old)
    else (s.homeWrite (s.lineOf pa) (s.homeOf pa leaf) asid none (runAt (pa % 128) (toBytes n x)), old)

/-- Access of an atomic (R142). -/
def Access.atom (n : Nat) : Access := ⟨n, n, true, false, false, true, false, false, false, false⟩

/-- Far placement of an atomic (R145). -/
def State.far (s : State) (r : CtxRef) (pa : Nat) (leaf : W64) (ord : AmoOrd) : Bool :=
  leafMT leaf = 1 || paRegion pa = 1 || decide (3 ≤ paRegion pa) || ord != .relaxed || decide (2 ≤ s.pred r.site (s.lineOf pa))

/-- Acquire and release scope of a suffix. -/
def AmoOrd.acquires : AmoOrd → Option Scope
  | .acq e => some e
  | .ar e => some e
  | _ => none
def AmoOrd.releases : AmoOrd → Option Scope
  | .rel e => some e
  | .ar e => some e
  | _ => none

/-- The core takes ownership of a line: it is recalled from another owner, copies on the home die go, and where all 4 entries
are in use the core returns the line that it has owned longest (log entry 62). -/
def State.ownLine (s : State) (r : CtxRef) (line home : Nat) : State :=
  let k := s.core r.site r.core
  if (k.owned.any fun o => o.line = line) then s
  else
    let s := (s.recallLine line (some r)).l1Drop home line none
    let s := match k.owned with
      | a :: _ => if 4 ≤ k.owned.length then s.returnLine r.site r.core a.line else s
      | [] => s
    s.modCore r.site r.core fun k => { k with owned := k.owned ++ [⟨line, 0, r.ctx⟩] }

/-- An atomic of a context in an owned line: one more atomic on the line. -/
def State.countOwned (s : State) (r : CtxRef) (line : Nat) : State :=
  s.modCore r.site r.core fun k =>
    { k with owned := k.owned.map fun o => if o.line = line then { o with count := o.count + 1, ctx := r.ctx } else o }

/-- An atomic whose checks have passed and whose release part is done (R141, R144, R145). -/
def State.atomGo (s : State) (d : BitVec 5) (va : W64) (ord : AmoOrd) (dbl : Bool) (o : AtomOp) (v : W64) (t : Target) :
    State :=
  let parks := d ≠ 0 ∨ (AmoOrd.acquires ord).isSome
  match t with
  | .engine _ => s.trap 0x09 va
  | .loc core off _ =>
    let pa := lmemPa s.cur.site core off
    if !parks ∧ s.c.ocs = 255 then s.flow .stall
    else
    let (s', old) := (s.powerUp s.cur.site core off (atomSize dbl)).atomAt pa 0 s.c.asid o dbl v.toNat
    if core = s.cur.core ∨ !parks then s'.gw d (BitVec.ofNat 64 old)
    else
      let id := s'.nextId
      ((s'.send s.cur va pa 0 (.atomic o dbl v d ord false) .done []).modReq id fun q =>
        { q with value := BitVec.ofNat 64 old }).parkOn [id] (rG [d])
  | .mem pa leaf _ =>
    let line := s.lineOf pa
    if s.lineBusy s.cur.site s.cur.core line then s.flow .stall
    else if s.far s.cur pa leaf ord then
      if (!parks ∧ s.c.ocs = 255) ∨ s.injFull s.cur (s.homeOf pa leaf) then s.flow .stall
      else
        let s := s.dropForAtomic s.cur line
        let id := s.nextId
        let s := s.send s.cur va pa leaf (.atomic o dbl v d ord false) .sent []
        if parks then s.parkOn [id] (rG [d]) else s.ocsUp s.cur
    else if !parks ∧ s.c.ocs = 255 then s.flow .stall
    else if s.hostHolds line then (s.snoop line).flow .stall
    else if s.dieWrites s.cur.site line then s.flow .stall
    else if s.poison.contains line then s.fatalHere 0x30 (BitVec.ofNat 64 (line * 128))
    else
      let s := ((s.dropForAtomic s.cur line).ownLine s.cur line (s.homeOf pa leaf)).countOwned s.cur line
      let (s, old) := s.atomAt pa leaf s.c.asid o dbl v.toNat
      s.gw d (BitVec.ofNat 64 old)

/-- `amo` and `amo.cas`. -/
def State.atom (s : State) (d a : BitVec 5) (ord : AmoOrd) (dbl : Bool) (o : AtomOp) (v : W64) : State :=
  let va := s.g a
  s.reach (Access.atom (atomSize dbl)) va fun s t =>
    match AmoOrd.releases ord with
    | some e =>
      (match objectOf va with
        | some _ => s.releasePart va e fun s => s.atomGo d va ord dbl o v t
        | none => if s.drained s.cur then s.atomGo d va ord dbl o v t else s.flow .stall)
    | none => s.atomGo d va ord dbl o v t

/-- `amo` (R293). -/
def execAmo (d a x : BitVec 5) (r : AmoOrd) (z : Bool) (o : AmoOp) (s : State) : Result :=
  .next (s.atom d a r z (.op o) (s.g x))

/-- `amoCas` (R293): comparand g(2c), swap value g(2c + 1). -/
def execAmoCas (d a : BitVec 5) (c : BitVec 4) (r : AmoOrd) (z : Bool) (s : State) : Result :=
  .next (s.atom d a r z (.cas (s.g (c ++ 0#1))) (s.g (c ++ 1#1)))

/-- `red` (R152, R293): at the bank for local memory, else a packet to the home. -/
def execRed (a x : BitVec 5) (z : Bool) (o : AmoOp) (s : State) : Result :=
  let va := s.g a
  .next (s.reach (Access.atom (atomSize z)) va fun s t =>
    match t with
    | .engine _ => s.trap 0x09 va
    | .loc core off _ =>
      if s.c.ocs = 255 then s.flow .stall
      else ((s.powerUp s.cur.site core off (atomSize z)).atomAt (lmemPa s.cur.site core off) 0 s.c.asid (.op o) z (s.g x).toNat).1
    | .mem pa leaf _ =>
      let line := s.lineOf pa
      if s.c.ocs = 255 ∨ s.lineBusy s.cur.site s.cur.core line ∨ s.injFull s.cur (s.homeOf pa leaf) then s.flow .stall
      else
        let s := s.dropForAtomic s.cur line
        (s.send s.cur va pa leaf (.reduce o z (s.g x) [(s.nextId, s.cur)]) .sent []).ocsUp s.cur)

/-! ### Events about owned lines -/

/-- `recall` event (R146): an owned line goes back for an access that waits for it: of another context, of an engine, or of a
peer or a die's cache (R148; log entry 62). -/
def execRecall (site core line : Nat) (s : State) : Result :=
  let k := s.core site core
  let wants := s.reqs.filter fun q => s.lineOf q.pa = line ∧ q.stage ≠ .done
  if k.owned.any (fun o => o.line = line) ∧ !wants.isEmpty then
    let other := wants.any fun q => k.otherAgent line site core q.agent
    let s := s.returnLine site core line
    .next (if other then s.predMove site line true else s)
  else .next s

/-- `ownedLineTimeout` event (R146, R148): returned for want of atomics. -/
def execOwnedLineTimeout (site core line : Nat) (s : State) : Result :=
  match (s.core site core).owned.find? fun o => o.line = line with
  | none => .next s
  | some o =>
    let s := s.returnLine site core line
    .next (if 2 ≤ o.count then s.predMove site line false else s)

end Sys2Proof.Machine
end

