-- ==== Sys2Proof/Machine/Control.lean ====
section
/-! DEFINITION. Branches, jumps, loop registers, zero-overhead loops and `nop` (R257 to R263). The control registers
are the leader's in a gang (R259): a transfer in a member that follows a leader changes nothing of its own. -/

namespace Sys2Proof.Machine

/-- A control transfer to a bundle address; 0x0B when it is misaligned (R200). -/
def State.jumpTo (s : State) (t : W64) : State :=
  if bits t 0 3 ≠ 0 then s.trap 0x0B t else s.flow (.jump t 0)

/-- A control transfer, with `f` its write of lr; a following gang member writes nothing and goes with its leader. -/
def State.transfer (s : State) (t : W64) (link : Bool) : State :=
  let s' := s.jumpTo t
  if link ∧ !s.follows ∧ bits t 0 3 = 0 then s'.modC fun c => { c with lr := c.pc + 8 } else s'

/-- Displacement in bundles from this bundle. -/
def State.dispTarget (s : State) (d : BitVec 20) : W64 := s.c.pc + (d.signExtend 64 <<< 3)

/-- Move to a loop-address register: 0x0B when misaligned. -/
def State.loopReg (s : State) (v : W64) (f : State) : Result :=
  if bits v 0 3 ≠ 0 then .next (s.trap 0x0B v) else .next f

/-- `loop` (R260) finds an active inner level, or an active outer body that would not contain this one. -/
def loopClash (c : Ctx) (l : Nat) (e : W64) : Bool :=
  (List.range 4).any fun j =>
    c.lc.toList.getD j 0 != 0 && (decide (l < j) || (decide (j < l) && decide ((c.le.toList.getD j 0).toNat ≤ e.toNat)))

/-- The loop decision of R261, made with the loop registers from before the bundle (R262): level and target, if a
level's end is this bundle. -/
def loopLevel (c : Ctx) : Option Nat := [3, 2, 1, 0].find? fun l => c.lc.toList.getD l 0 != 0

/-- Next address and new count of the loop that ends at bundle address `a`. -/
def loopDecision (c : Ctx) (a : W64) : Option (Nat × W64 × W32) :=
  match loopLevel c with
  | none => none
  | some l =>
    if c.le.toList.getD l 0 = a then
      let n := c.lc.toList.getD l 0
      if n.toNat > 1 then some (l, c.ls.toList.getD l 0, n - 1) else some (l, a + 8, 0)
    else none

/-- `nop` (R263): no effect. -/
def execNop (s : State) : Result :=
  .next s

/-- `br` (R257): branch when the predicate, possibly inverted, holds. -/
def execBr (p : BitVec 3) (n : Bool) (d : BitVec 20) (s : State) : Result :=
  if s.ctl.rp p != n then .next (s.transfer (s.dispTarget d) false) else .next s

/-- `call` (R257): conditional call. -/
def execCall (p : BitVec 3) (n : Bool) (d : BitVec 20) (s : State) : Result :=
  if s.ctl.rp p != n then .next (s.transfer (s.dispTarget d) true) else .next s

/-- `jr` (R258): jump. -/
def execJr (a : BitVec 5) (s : State) : Result :=
  .next (s.transfer (s.ctl.rg a) false)

/-- `callr` (R258): call through a register, read before lr is written. -/
def execCallr (a : BitVec 5) (s : State) : Result :=
  .next (s.transfer (s.ctl.rg a) true)

/-- `ret` (R258): jump to lr. -/
def execRet (s : State) : Result :=
  .next (s.transfer s.ctl.lr false)

/-- `movJa0FromG` (R258): ja0 := ga. -/
def execMovJa0FromG (a : BitVec 5) (s : State) : Result :=
  .next (s.modC fun c => { c with ja0 := c.rg a })

/-- `movJa1FromG` (R258): ja1 := ga. -/
def execMovJa1FromG (a : BitVec 5) (s : State) : Result :=
  .next (s.modC fun c => { c with ja1 := c.rg a })

/-- `movLrFromG` (R258): lr := ga. -/
def execMovLrFromG (a : BitVec 5) (s : State) : Result :=
  .next (s.modC fun c => { c with lr := c.rg a })

/-- `movGFromJa0` (R258): gd := ja0. -/
def execMovGFromJa0 (d : BitVec 5) (s : State) : Result :=
  .next (s.gw d s.c.ja0)

/-- `movGFromJa1` (R258): gd := ja1. -/
def execMovGFromJa1 (d : BitVec 5) (s : State) : Result :=
  .next (s.gw d s.c.ja1)

/-- `movGFromLr` (R258): gd := lr. -/
def execMovGFromLr (d : BitVec 5) (s : State) : Result :=
  .next (s.gw d s.c.lr)

/-- `rdpc` (R258): gd := this bundle's address. -/
def execRdpc (d : BitVec 5) (s : State) : Result :=
  .next (s.gw d s.c.pc)

/-- `movGFromLs` (R258): gd := lsN. -/
def execMovGFromLs (d : BitVec 5) (n : BitVec 2) (s : State) : Result :=
  .next (s.gw d s.c.ls[n.toNat])

/-- `movGFromLe` (R258): gd := leN. -/
def execMovGFromLe (d : BitVec 5) (n : BitVec 2) (s : State) : Result :=
  .next (s.gw d s.c.le[n.toNat])

/-- `movGFromLc` (R258): gd := lcN. -/
def execMovGFromLc (d : BitVec 5) (n : BitVec 2) (s : State) : Result :=
  .next (s.gw d (s.c.lc[n.toNat].setWidth 64))

/-- `movLsFromG` (R258): lsN := ga. -/
def execMovLsFromG (a : BitVec 5) (n : BitVec 2) (s : State) : Result :=
  s.loopReg (s.g a) (s.modC fun c => { c with ls := c.ls.set n.toNat (c.rg a) })

/-- `movLeFromG` (R258): leN := ga. -/
def execMovLeFromG (a : BitVec 5) (n : BitVec 2) (s : State) : Result :=
  s.loopReg (s.g a) (s.modC fun c => { c with le := c.le.set n.toNat (c.rg a) })

/-- `movLcFromG` (R258): lcN := ga[31:0]. -/
def execMovLcFromG (a : BitVec 5) (n : BitVec 2) (s : State) : Result :=
  .next (s.modC fun c => { c with lc := c.lc.set n.toNat (lo32 (c.rg a)) })

/-- `loop` (R260): set up a loop level; a count of 0 skips the body. -/
def execLoop (l : BitVec 2) (a : BitVec 5) (i : BitVec 14) (s : State) : Result :=
  let e := s.c.pc + (i.setWidth 64 <<< 3)
  let n := lo32 (s.ctl.rg a)
  if loopClash s.ctl l.toNat e then .next s.illegal
  else
    let s' := if s.follows then s
      else s.modC fun c => { c with
        ls := c.ls.set l.toNat (c.pc + 8)
        le := c.le.set l.toNat e
        lc := c.lc.set l.toNat n }
    .next (if n = 0 then s'.flow (.jump (e + 8) 0) else s')

end Sys2Proof.Machine
end

