-- ==== Sys2Proof/Machine/Exchange.lean ====
section
/-! DEFINITION. Exchange objects: `push`, `pop`, the buckles of the switches on a packet's route, and the home's
application (R156 to R169, R415 to R417, R431, R433). -/

namespace Sys2Proof.Machine

/-! ### Packets -/

/-- A push. -/
def ReqKind.isPush : ReqKind → Bool
  | .push _ _ _ _ => true
  | _ => false

/-- Window code of a push or pop: its hub cycles are 0, 16, 64, 256. -/
def ReqKind.window : ReqKind → Nat
  | .push _ w _ _ => w
  | .pop w _ _ _ => w
  | _ => 0

/-- The object that a packet names: home module and physical address there. The two addresses of a line of the interleaved
window are one (R13; log entry 61). -/
def State.exchObj (s : State) (q : Req) : Nat × Nat :=
  match s.peerWin q.pa with
  | some o => o
  | none => (s.modnum, s.plain q.pa)

/-- The switch and network at a place of a packet's route. -/
def State.exchAt (s : State) (q : Req) (step : Nat) : Option (Nat × Bool) := (s.route q.who.site q.home)[step]?

/-- The packets that wait in the buckles of a switch: request, network, order of entry. -/
def State.buckled (s : State) (hub : Nat) : List (Req × Bool × Nat) :=
  s.reqs.filterMap fun q =>
    match q.stage with
    | .inBuckle k age =>
      match s.exchAt q k with
      | some (h, n) => if h = hub then some (q, n, age) else none
      | none => none
    | _ => none

/-- A packet has its answer: the reply is on its way, or crosses back to the peer it came from (R164, R431). -/
def State.exchDone (s : State) (q : Req) (status : Nat) (v : W64) : State :=
  match q.ext with
  | none => s.modReq q.id fun x => { x with stage := .done, status := status, value := v }
  | some (port, id) =>
    let l := Table.get (⟨false, 0⟩ : Link) s.links port
    if l.up then (s.emit (.flit port (.exchangeReply id status v))).dropReq q.id
    else s.modReq q.id fun x => { x with stage := .done, status := status, value := v }

/-- Value that a push offers. -/
def ReqKind.offer : ReqKind → W64
  | .push v _ _ _ => v
  | _ => 0

/-- A packet leaves the switch at a place of its route: for the next one, for its home's slice, or across the link. -/
def State.depart (s : State) (q : Req) (step : Nat) : State :=
  let len := (s.route q.who.site q.home).length
  match s.peerWin q.pa with
  | some (pmod, pa) =>
    if step + 1 < len then
      { s.modReq q.id fun x => { x with stage := .atSwitch (step + 1) s.nextId } with nextId := s.nextId + 1 }
    else if !s.peerOk pmod then s.exchDone q 2 0
    else
      let port := bits (s.sreg 0 (0x1B80 + 8 * pmod)) 0 5
      (s.emit (.flit port (.exchange q.id q.kind.isPush pa q.kind.offer q.kind.window q.page))).modReq q.id
        fun x => { x with stage := .peer }
  | none => { s.modReq q.id fun x => { x with stage := .atSwitch (step + 1) s.nextId } with nextId := s.nextId + 1 }

/-- Where a packet stands that no buckle holds: its place on the route, and the order in which it came there. A packet that its
home's slice has refused starts again at the switch of its site (R85). -/
def Req.exchStep (q : Req) : Option (Nat × Nat) :=
  match q.stage with
  | .atSwitch k age => some (k, age)
  | .sent => if q.kind.exch then some (0, q.id) else none
  | .left => if q.kind.exch then some (0, q.id) else none
  | _ => none

/-- A packet that left its source earlier for the same home on the same link of each pair is still ahead of this one
(R413, R415). -/
def State.exchBehind (s : State) (q : Req) (step age : Nat) : Bool :=
  s.reqs.any fun x =>
    match x.stage with
    | .atSwitch k a =>
      k = step && decide (a < age) && s.sameLinks x q
    | _ => false

/-- `buckleArrival` event (R162 to R164). The first switch is reached from the core's injection queue, in that queue's order
(R86). -/
def execBuckleArrival (id : Nat) (s : State) : Result :=
  match s.req id with
  | none => .next s
  | some q =>
    match q.exchStep with
    | some (step, age) =>
      if (if step = 0 then !s.mayLeave q else s.exchBehind q step age) then .next s
      else
        let s := if step = 0 then s.overtake q else s
        match s.exchAt q step with
        | none => .next s
        | some (hub, net) =>
          let waiting := s.buckled hub
          let mates := waiting.filter fun w => w.1.kind.isPush != q.kind.isPush && s.exchObj w.1 == s.exchObj q
          let oldest := mates.foldl (fun (b : Option (Req × Bool × Nat)) w =>
            match b with
            | none => some w
            | some x => if w.2.2 < x.2.2 then some w else some x) none
          match oldest with
          | some (w, _, _) =>
            let v := if q.kind.isPush then q.kind.offer else w.kind.offer
            .next (if q.kind.isPush then (s.exchDone w 0 v).exchDone q 0 0 else (s.exchDone q 0 v).exchDone w 0 0)
          | none =>
            if q.kind.window ≠ 0 ∧ (waiting.filter fun w => w.2.1 = net).length < 32 then
              .next { s.modReq id fun x => { x with stage := .inBuckle step s.nextId } with nextId := s.nextId + 1 }
            else .next (s.depart q step)
    | none => .next s

/-- `windowExpiry` event (R162). -/
def execWindowExpiry (id : Nat) (s : State) : Result :=
  match s.req id with
  | none => .next s
  | some q =>
    match q.stage with
    | .inBuckle step _ => .next (s.depart q step)
    | _ => .next s

/-! ### The home's application (R156, R157, R161) -/

/-- A descriptor: its two doublewords. -/
structure ExchDesc where
  d0 : W64
  d1 : W64
deriving DecidableEq, Repr

/-- Fields of the descriptor. -/
def ExchDesc.kind (d : ExchDesc) : Nat := bits d.d0 0 2
def ExchDesc.cap (d : ExchDesc) : Nat := bits d.d0 8 32
def ExchDesc.count (d : ExchDesc) : Nat := bits d.d1 0 32
def ExchDesc.head (d : ExchDesc) : Nat := bits d.d1 32 32

/-- Malformed (R157); `off` is the descriptor's offset in its page. -/
def ExchDesc.bad (d : ExchDesc) (off page : Nat) : Bool :=
  d.kind == 0 || d.kind == 3 || d.cap == 0 || bits d.d0 2 6 != 0 || bits d.d0 40 24 != 0 || decide (d.cap ≤ d.head) ||
    (d.kind == 2 && d.head != 0) || decide (d.cap < d.count) || decide (page < off + 128 + 8 * d.cap)

/-- The descriptor with new COUNT and HEAD. -/
def ExchDesc.upd (d : ExchDesc) (count head : Nat) : ExchDesc := { d with d1 := BitVec.ofNat 64 (count + head * 4294967296) }

/-- Index where a push puts its value. -/
def ExchDesc.pushAt (d : ExchDesc) : Nat := if d.kind = 1 then (d.head + d.count) % d.cap else d.count

/-- Index that a pop takes, and the head after. -/
def ExchDesc.popAt (d : ExchDesc) : Nat × Nat :=
  if d.kind = 1 then (d.head, (d.head + 1) % d.cap) else (d.count - 1, d.head)

/-- A packet meets poison: the context that sent it takes cause 0x30 (R94); a peer's packet finds a bad object. -/
def State.exchPoison (s : State) (q : Req) (pa : Nat) : State :=
  match q.ext with
  | some _ => s.exchDone q 2 0
  | none =>
    let s := s.dropReq q.id
    if q.orphan then s
    else s.modCtx q.who fun c => { c with fatal := some (0x30, BitVec.ofNat 64 (s.lineOf pa * 128)) }

/-- The descriptor that a packet names, as its home reads it. -/
def State.exchDesc (s : State) (q : Req) : ExchDesc := ⟨s.dword q.pa, s.dword (q.pa + 8)⟩

/-- Address of the element that a push or pop would write or read, in the descriptor's own region; none where it touches
none. -/
def ExchDesc.elem (d : ExchDesc) (pa page : Nat) (push : Bool) : Option Nat :=
  if d.bad (pa % page) page then none
  else if push then (if d.count = d.cap then none else some (pa + 128 + 8 * d.pushAt))
  else if d.count = 0 then none
  else some (pa + 128 + 8 * d.popAt.1)

/-- A push or pop is applied at its home. -/
def State.exchApply (s : State) (q : Req) : State :=
  let pa := q.pa
  let d := s.exchDesc q
  if s.poison.contains (s.lineOf pa) then s.exchPoison q pa
  else
    match d.elem pa q.page q.kind.isPush with
    | none => s.exchDone q (if d.bad (pa % q.page) q.page then 2 else 1) 0
    | some a =>
      if s.poison.contains (s.lineOf a) then s.exchPoison q a
      else if q.kind.isPush then
        ((s.homeDword q.asid a q.kind.offer).homeDword q.asid (pa + 8) (d.upd (d.count + 1) d.head).d1).exchDone q 0 0
      else
        (s.homeDword q.asid (pa + 8) (d.upd (d.count - 1) d.popAt.2).d1).exchDone q 0 (s.dword a)

/-- Lines that an application reads or writes: the descriptor's, and the element's. -/
def State.exchLines (s : State) (q : Req) : List Nat :=
  (q.pa :: ((s.exchDesc q).elem q.pa q.page q.kind.isPush).toList).map s.lineOf

/-- A packet stands at its home's slice, and no other of its object came earlier or waits there. -/
def State.exchHere (s : State) (q : Req) (step age : Nat) : Bool :=
  decide ((s.route q.who.site q.home).length ≤ step) && !s.exchBehind q step age && (s.peerWin q.pa).isNone &&
    !(s.reqs.any fun x =>
      x.kind.exch && s.exchObj x == s.exchObj q &&
        (match x.stage with
          | .atSwitch k a => decide ((s.route x.who.site x.home).length ≤ k) && decide (a < age)
          | .queued => x.id != q.id
          | .missing => x.id != q.id
          | _ => false))

/-! ### The instructions -/

/-- Access of a push or pop (R159): aligned to 128 bytes, on a page with XO = 1. -/
def Access.exchange : Access := ⟨8, 128, true, false, false, false, true, false, false, true⟩

/-- Site that a packet goes to: the home of its line, or the hub of the link to the home module. -/
def State.exchHome (s : State) (pa : Nat) (leaf : W64) : Nat :=
  match s.peerWin pa with
  | some (pmod, _) => s.siteOf (linkHub (bits (s.sreg 0 (0x1B80 + 8 * pmod)) 0 5))
  | none => s.homeOf pa leaf

/-- A request to the descriptor's line is in flight that a push or pop waits for: any of its context, and of another context of
the core any but a push or pop (R86, R160). -/
def State.exchBusy (s : State) (r : CtxRef) (line : Nat) : Bool :=
  s.reqs.any fun q => q.ofCore r.site r.core && s.lineOf q.pa == line && (q.who.ctx == r.ctx || !q.kind.exch)

/-- The packet leaves for the switch of the issuing site's hub, and its number; the line has left the core's L1 and its die's
cache (R80). -/
def State.exchSend (s : State) (va : W64) (pa page : Nat) (leaf : W64) (k : ReqKind) : State × Nat :=
  let home := s.exchHome pa leaf
  let s := if (s.peerWin pa).isSome then s else s.dropForAtomic s.cur (s.lineOf pa)
  let id := s.nextId
  ((s.send s.cur va pa leaf k (.atSwitch 0 id) []).modReq id fun q => { q with home := home, page := page }, id)

/-- The checks of a push or pop beyond its address: scope in a peer window, no other request to the line (R160, R169). -/
def State.exchReach (s : State) (va : W64) (e : Scope) (f : State → Nat → W64 → Nat → State) : State :=
  s.reach Access.exchange va fun s t =>
    match t with
    | .mem pa leaf page =>
      if (s.peerWin pa).isSome ∧ e ≠ .system then s.illegal
      else if s.exchBusy s.cur (s.lineOf pa) ∨ s.injFull s.cur (s.exchHome pa leaf) then s.flow .stall
      else f s pa leaf page
    | _ => s.trap 0x09 va

/-- `push` (R158, R166): a fence at its scope, then the packet; it counts in ocs and gd waits for its status. -/
def execPush (d a x : BitVec 5) (w : BitVec 2) (e : Scope) (s : State) : Result :=
  let va := s.g a
  .next (s.exchReach va e fun s pa leaf page =>
    if !s.drained s.cur ∨ s.c.ocs = 255 then s.flow .stall
    else
      let s' := ((s.fenceAct s.cur.site e).exchSend va pa page leaf (.push (s.g x) w.toNat d e)).1.ocsUp s.cur
      s'.modC fun c => { c with pend := c.pend.add (rG [d]) })

/-- `pop` (R158, R160): the context parks for its value. -/
def execPop (d a p : BitVec 5) (w : BitVec 2) (e : Scope) (s : State) : Result :=
  let va := s.g a
  .next (s.exchReach va e fun s pa leaf page =>
    let p := p.setWidth 3
    let (s, id) := s.exchSend va pa page leaf (.pop w.toNat d p e)
    s.parkOn [id] ((rG [d]).union (rP [p])))

end Sys2Proof.Machine
end

