-- ==== Sys2Proof/Machine/Sync.lean ====
section
/-! DEFINITION. Fences, the split cross-die fence, `bind`, `acq`, `rel`, the waits, and the girth barriers (R107 to R122,
R193 to R196, R287 to R299, R419, R432). -/

namespace Sys2Proof.Machine

/-! ### Fences (R117, R120 to R122, R289) -/

/-- `fence` (R117): stalls until every earlier access is performed, then invalidates UNBOUND lines at module and system
scope. -/
def execFence (e : Scope) (s : State) : Result :=
  if s.drained s.cur then .next (s.fenceAct s.cur.site e) else .next (s.flow .stall)

/-- The entries of a context in the replay queue and its stores in their walks. -/
def State.parked (s : State) (r : CtxRef) : List ReplayEntry :=
  let k := s.core r.site r.core
  (k.rq ++ k.stw).filter fun e => e.ctx == r.ctx

/-- Whether a request counts for `xfi`: a store, atomic or reduction to global memory that is not performed yet. -/
def Req.captured (q : Req) (r : CtxRef) : Bool :=
  q.who == r && !q.orphan && paRegion q.pa != 3 &&
    (match q.kind with
      | .store _ j => j == 0
      | .atomic _ _ _ _ _ _ => true
      | .reduce _ _ _ _ => true
      | _ => false)

/-- The accesses that `xfi` captures: requests in flight, parked stores and the parked stores of the context's engine work, by
number (R120, R129). -/
def State.captures (s : State) (r : CtxRef) : List Nat :=
  ((s.reqs.filter fun q => q.captured r).map (·.id)) ++ (s.parked r).map (·.id)

/-- Every captured access is performed at module scope. -/
def State.capsDone (s : State) (r : CtxRef) (x : XSlot) : Bool :=
  let l := ((s.reqs.filter fun q => q.who == r && !q.orphan).map (·.id)) ++ (s.parked r).map (·.id)
  x.caps.all fun i => !l.contains i

/-- `xfi` (R120, R121): captures in a free slot; with none free, waits for the oldest and reuses it. -/
def execXfi (d : BitVec 5) (s : State) : Result :=
  let c := s.c
  let free := (List.range 8).filter fun i => !(c.xslots.any fun x => x.slot == i)
  let go (s : State) (slot : Nat) (rest : List XSlot) : State :=
    let token := BitVec.ofNat 64 (slot + 8 * s.cur.ctx + 32 * c.xseq.toNat)
    (s.modC fun c => { c with xslots := rest ++ [⟨slot, c.xseq, s.captures s.cur⟩], xseq := c.xseq + 1 }).gw d token
  match free with
  | [] =>
    (match c.xslots with
      | [] => .next s
      | x :: rest => if s.capsDone s.cur x then .next (go s x.slot rest) else .next (s.flow .stall))
  | f :: _ => .next (go s.next (free.getD (s.choose free.length) f) c.xslots)

/-- `xfw` (R122): waits for the captures of its token and frees the slot. A token from before a move carries the number that
the context had then (R134). -/
def execXfw (a : BitVec 5) (s : State) : Result :=
  let v := s.g a
  if bits v 21 43 ≠ 0 ∨ (bits v 3 2 ≠ s.cur.ctx ∧ !s.c.was.contains (bits v 3 2)) then .next s.illegal
  else
    match s.c.xslots.find? fun x => x.slot = bits v 0 3 ∧ x.seq.toNat = bits v 5 16 with
    | none => .next s
    | some x =>
      if s.capsDone s.cur x then .next (s.modC fun c => { c with xslots := c.xslots.filter fun y => y.slot != x.slot })
      else .next (s.flow .stall)

/-! ### Bindings (R107 to R113, R287, R288) -/

/-- Access of `bind` and `acq`, and of `rel`, to their object. -/
def Access.object (write : Bool) : Access := ⟨8, 128, write, false, false, false, false, true, true, true⟩

/-- A slot fill finds a binding table that breaks R107. -/
def State.bindBad (s : State) (va : W64) : Bool :=
  !((s.die s.cur.site).bind.any fun b => b.asid == s.c.asid && b.obj == vline va) && (s.bindTable s.c.asid).isNone

/-- The context in issue parks for an answer about an object that is under way. -/
def State.answerLater (s : State) (d : BitVec 5) (va : W64) (pa : Nat) (v : Nat) : State :=
  let id := s.nextId
  ((s.send s.cur (BitVec.ofNat 64 (vline va * 128)) pa 0 (.answer d) .done []).modReq id fun q => { q with value := BitVec.ofNat 64 v }).parkOn [id] (rG [d])

/-- An object's binding leaves the binding cache of every die. -/
def State.dropBinding (s : State) (asid : BitVec 16) (obj : Nat) : State :=
  (List.range s.nSites).foldl (fun s d =>
    match (s.die d).bind.find? fun b => b.asid = asid ∧ b.obj = obj with
    | some b => s.dropSlot d b.slot
    | none => s) s

/-- The die fills a slot for the object, when the object is bound; `bind` waited until one may be taken. -/
def State.fillSlot (s : State) (va : W64) : State := (s.bindSlot s.cur.site s.c.asid va (some s.cur)).1

/-- Arguments of `bind` that give status 3. -/
def bindArgsBad (o base len : W64) : Bool :=
  bits base 0 7 != 0 || bits len 0 7 != 0 || bit base 55 || decide (2 ^ 32 ≤ len.toNat / 128) ||
    decide (2 ^ 55 < base.toNat + len.toNat) ||
    (decide (base.toNat ≤ o.toNat / 128 * 128) && decide (o.toNat / 128 * 128 < base.toNat + len.toNat))

/-- `bind` (R109): its status. -/
def State.bindGo (s : State) (o base len : W64) (tbl n : Nat) : State × Nat :=
  let asid := s.c.asid
  if len = 0 then
    match s.probe tbl n (vline o) with
    | none => (s, 4)
    | some a => ((s.dropBinding asid (vline o)).homeDword asid a (putBits (s.dword a) 0 1 0), 0)
  else if bindArgsBad o base len then (s, 3)
  else if (s.probe tbl n (vline o)).isSome then (s.fillSlot o, 2)
  else
    match (probeAddrs tbl n (vline o)).find? fun a => !bit (s.dword a) 0 with
    | none => (s, 1)
    | some a =>
      let s := s.homeDword asid (a + 8) (BitVec.ofNat 64 (bits base 7 49 * 128))
      let s := s.homeDword asid (a + 16) (BitVec.ofNat 64 (len.toNat / 128))
      let s := s.homeDword asid (a + 24) 0
      ((s.homeDword asid a (BitVec.ofNat 64 (1 + vline o * 128))).fillSlot o, 0)

/-- `bind` fills a slot: the object is bound, or becomes bound, and no slot holds it (R110). -/
def State.bindFills (s : State) (o base len : W64) (tbl n : Nat) : Bool :=
  len != 0 && !bindArgsBad o base len && !((s.die s.cur.site).bind.any fun b => b.asid == s.c.asid && b.obj == vline o) &&
    ((s.probe tbl n (vline o)).isSome || (probeAddrs tbl n (vline o)).any fun a => !bit (s.dword a) 0)

/-- An access to an object, once the host has given back the entry of the ASID table that names the binding table (R139). -/
def State.objectAt (s : State) (f : State → State) : State :=
  match s.claimLine (s.lineOf (s.asidPa s.c.asid.toNat)) (some s.cur) with
  | (s, false) => s.flow .stall
  | (s, true) => f s

/-- `bind` (R109, R110, R287, R288): the context parks for the status. The probed entries are first made ready at their
homes. -/
def execBind (d a b : BitVec 5) (s : State) : Result :=
  let va := s.g a
  .next (s.reach (Access.object false) va fun s t =>
    match t with
    | .mem pa _ _ => s.objectAt fun s =>
      match s.bindTable s.c.asid with
      | none => s.trap 0x09 va
      | some (tbl, n) =>
        match s.claimLines (some s.cur) ((probeAddrs tbl n (vline va)).map s.lineOf) with
        | (s, false) => s.flow .stall
        | (s, true) =>
          match if s.bindFills va (s.g b) (s.g (b + 1)) tbl n then s.roomSlot s.cur.site else (s, some 0) with
          | (s, none) => s.waitFill
          | (s, some _) =>
            let (s, v) := s.bindGo va (s.g b) (s.g (b + 1)) tbl n
            s.answerLater d va pa v
    | _ => s.trap 0x09 va)

/-- `acq` (R113, R129, R288): a read at the home; the slot is acquired when it returns. Parked stores do not hold it back. -/
def execAcq (d a : BitVec 5) (e : Scope) (s : State) : Result :=
  let va := s.g a
  .next (s.reachPast false (Access.object false) va fun s t =>
    match t with
    | .mem pa leaf _ => s.objectAt fun s =>
      if s.bindBad va then s.trap 0x09 va
      else if s.lineBusy s.cur.site s.cur.core (s.lineOf pa) ∨ s.injFull s.cur (s.homeOf pa leaf) then s.flow .stall
      else
        let s := s.dropForAtomic s.cur (s.lineOf pa)
        (s.send s.cur va pa leaf (.acq d e) .sent []).parkOn [s.nextId] (rG [d])
    | _ => s.trap 0x09 va)

/-- `rel` (R112, R129, R131, R288): release part, then the object word written at its home; the bundle stalls meanwhile. -/
def execRel (a b : BitVec 5) (e : Scope) (s : State) : Result :=
  let va := s.g a
  let v := s.g b
  .next (s.reachPast false (Access.object true) va fun s t =>
    match t with
    | .mem pa leaf _ => s.objectAt fun s =>
      if s.bindBad va then s.trap 0x09 va
      else
        s.releasePart va e fun s =>
          match s.claimLine (s.lineOf pa) (some s.cur) with
          | (s, false) => s.flow .stall
          | (s, true) =>
            (s.dropForAtomic s.cur (s.lineOf pa)).homeWrite (s.lineOf pa) (s.homeOf pa leaf) s.c.asid none
              (runAt (pa % 128) (toBytes 8 v.toNat))
    | _ => s.trap 0x09 va)

/-! ### Waits (R290 to R292) -/

/-- The context in issue waits; its bundle executes again. Where an asynchronous cause waits already, `State.abandon` ends the wait
as its bundle ends. -/
def State.await (s : State) (w : Wait) : State :=
  ((s.modC fun c => { c with wait := w }).leave s.cur .waiting).flow .again

/-- A wait's result has been taken. -/
def State.unfire (s : State) : State := s.modC fun c => { c with fired := none }

/-- `waitc` (R290). -/
def execWaitc (l x c t : BitVec 5) (s : State) : Result :=
  if s.countersMet s.cur l x c t then .next s else .next (s.await (.waitc l x c t))

/-- `sfufence` (R292). -/
def execSfufence (s : State) : Result :=
  if s.c.sfuBusy then .next (s.await .sfufence) else .next s

/-- Access of a watched word (R291): as `ld.d`, but on no device page and not the engine registers. -/
def Access.watch : Access := ⟨8, 8, false, false, false, false, false, true, false, false⟩

/-- A watched word in local memory lies in the context's own constant window or in a region that it holds. -/
def State.watchLocal (s : State) (core off : Nat) : Bool :=
  (core = s.cur.core && decide (0x800 * s.cur.ctx ≤ off) && decide (off + 8 ≤ 0x800 * s.cur.ctx + 0x800)) ||
    (s.core s.cur.site core).covers (holderOf s.cur) false off 8

/-- Checks of the watched addresses in order; `f` goes on with their physical addresses. A local word outside the context's own
constant window and its regions takes 0x0A, in system mode too (R291; log entry 80). -/
def State.watchAll (s : State) : List W64 → List Nat → (State → List Nat → State) → State
  | [], pas, f => f s pas
  | va :: l, pas, f =>
    s.reach Access.watch va fun s t =>
      match t with
      | .mem pa _ _ =>
        if paRegion pa = 3 ∧ (paSite pa ≠ s.cur.site ∨ !s.watchLocal (pa / 524288 % 256) (pa % 524288)) then s.trap 0x0A va
        else State.watchAll s l (pas ++ [pa]) f
      | .loc core off _ =>
        if s.watchLocal core off then State.watchAll s l (pas ++ [lmemPa s.cur.site core off]) f else s.trap 0x0A va
      | .engine _ => s.trap 0x09 va

/-- The value of a watched word at its home. -/
def State.watchValue (s : State) (pa : Nat) : W64 := BitVec.ofNat 64 (ofBytes ((s.targetRead pa 8).getD []))

/-- Watches that belong to a wait under way. -/
def State.liveWatches (s : State) : List Watch :=
  s.watches.filter fun w =>
    (s.ctx w.who).st == .waiting && (match (s.ctx w.who).wait with | .waita _ => true | _ => false)

/-- A watch for word `i`: at its bank, in one of the 1,024 entries of its home's hub, or polled; `more` are the watches of
earlier words of the same `waita`. -/
def State.newWatch (s : State) (more : List Watch) (i pa : Nat) (e : W64) : Watch :=
  let room (l : List Watch) : Bool :=
    decide ((l.filter fun w => w.held && paRegion w.pa != 3 && paSite (s.plain w.pa) == paSite (s.plain pa)).length < 1024)
  let held := paRegion pa == 3 || (paRegion pa != 4 && paRegion pa != 5 && room (s.liveWatches ++ more))
  ⟨s.cur, i, pa, s.canon pa, e, held, false⟩

/-- The watched words are made ready at their homes (R138, R146), and a gated bank of one powers up; false where the host holds
a line. -/
def State.watchReady (s : State) (who : CtxRef) (pas : List Nat) : State × Bool :=
  let s := pas.foldl (fun s pa => s.powerPa pa 8) s
  s.claimLines (some who) ((pas.filter fun pa => !(3 ≤ paRegion pa ∧ paRegion pa ≤ 5)).map s.lineOf)

/-- `waita` (R291): fires at once when a word differs, else watches. -/
def execWaita (d a b : BitVec 5) (t : BitVec 3) (n : BitVec 2) (s : State) : Result :=
  match s.c.fired with
  | some v =>
    let s := s.unfire
    .next ((if v < 4 then s.rdcUnbound s.cur.site else s).gw d (BitVec.ofNat 64 v))
  | none =>
    let is := List.range (n.toNat + 1)
    let vas := is.map fun i => s.g (a + BitVec.ofNat 5 i)
    let exp (i : Nat) : W64 := s.g (b + BitVec.ofNat 5 i)
    .next (s.watchAll vas [] fun s pas =>
      match s.watchReady s.cur pas with
      | (s, false) => s.flow .stall
      | (s, true) =>
      match is.find? fun i => s.watchValue (pas.getD i 0) != exp i with
      | some i => (s.rdcUnbound s.cur.site).gw d (BitVec.ofNat 64 i)
      | none =>
        let ws := is.foldl (fun l i => l ++ [s.newWatch l i (pas.getD i 0) (exp i)]) []
        ({ s with watches := (s.watches.filter fun (x : Watch) => x.who != s.cur) ++ ws } : State).await (.waita t))

/-- A context waits in `waita`. -/
def Ctx.inWaita (c : Ctx) : Bool := c.st == .waiting && (match c.wait with | .waita _ => true | _ => false)

/-- The lowest watch index of a context that a test accepts. -/
def State.firstWatch (s : State) (r : CtxRef) (f : Watch → Bool) : Option Nat :=
  (List.range 4).find? fun i => s.watches.any fun w => w.who == r && w.idx == i && f w

/-- `watchNotify` event (R291): a home or bank has seen a change of a watched word. -/
def execWatchNotify (r : CtxRef) (s : State) : Result :=
  match s.firstWatch r (fun w => w.held && w.seen) with
  | some i => .next (if (s.ctx r).inWaita then s.fire r i else s)
  | none => .next s

/-- `watchPoll` event (R291): the polled words are compared at their homes. -/
def execWatchPoll (r : CtxRef) (s : State) : Result :=
  let pas := (s.watches.filter fun w => w.who == r && !w.held).map (·.pa)
  match s.watchReady r pas with
  | (s, false) => .next s
  | (s, true) =>
    match s.firstWatch r (fun w => !w.held && s.watchValue w.pa != w.expect) with
    | some i => .next (if (s.ctx r).inWaita then s.fire r i else s)
    | none => .next s

/-- `waitaTimeout` event (R291): T other than 0. -/
def execWaitaTimeout (r : CtxRef) (s : State) : Result :=
  match (s.ctx r).wait with
  | .waita t => .next (if t ≠ 0 ∧ (s.ctx r).st = .waiting then s.fire r 4 else s)
  | _ => .next s

/-! ### Multicast (R419) -/

/-- The next switch from hub `a` on the X-first route to hub `b`. -/
def nextHop (a b : Nat) : Nat := (legHubs false a b).getD 1 a

/-- The hops of a copy that follows an NST entry: each switch still to come, with the network and class of the leg to it. -/
def pathOf (l : List Hop) : List Hop := (l.zip (l.drop 1)).map fun x => { x.1 with hub := x.2.hub }

/-- A multicast from a site: one tree along the X-first routes, and an own copy for each destination whose NST entry
has another mode, in the relay class on the first leg of a relayed route and in the multicast class otherwise. -/
def State.mcastSend (s : State) (site : Nat) (msg : McastMsg) (dests : List Nat) : State :=
  let h := s.phys site
  let own (d : Nat) : Bool := bits (s.sreg site (0x1600 + 8 * d)) 0 2 != 0
  let tree := dests.filter fun d => !own d
  let s := if tree.isEmpty then s
    else { s with mcasts := s.mcasts ++ [⟨s.nextId, msg, h, h, false, false, tree, []⟩], nextId := s.nextId + 1 }
  (dests.filter own).foldl (fun s d =>
    let l := s.hops site d
    let first := l.headD ⟨h, false, false⟩
    { s with
      mcasts := s.mcasts ++ [⟨s.nextId, msg, h, h, first.y, first.relay, [d], pathOf l⟩]
      nextId := s.nextId + 1 }) s

/-- Two copies stand in one input buffer: each network has its own for each class on each port (R414). -/
def Mcast.sameBuffer (a b : Mcast) : Bool := a.hub == b.hub && a.from_ == b.from_ && a.y == b.y && a.relay == b.relay

/-- No earlier copy stands in the same input buffer. -/
def State.mcastFirst (s : State) (m : Mcast) : Bool :=
  match s.mcasts.find? m.sameBuffer with
  | some x => x.id == m.id
  | none => false

/-- Destinations taken from a copy; it leaves its buffer with the last. -/
def State.mcastTake (s : State) (id : Nat) (ds : List Nat) : State :=
  { s with mcasts := s.mcasts.filterMap fun m =>
      if m.id = id then
        (let rest := m.dests.filter fun d => !ds.contains d
         if rest.isEmpty then none else some { m with dests := rest })
      else some m }

/-- The neighbours for which a copy of the tree has branches, in the order of its destinations. -/
def State.mcastPorts (s : State) (m : Mcast) : List Nat :=
  ((m.dests.filter fun d => s.phys d ≠ m.hub).map fun d => nextHop m.hub (s.phys d)).eraseDups

/-- `multicastBranch` event (R419): the branch with this number of a copy leaves for its neighbour; none waits for another. A copy
that follows an NST entry has one. -/
def execMulticastBranch (b : McastBranch) (s : State) : Result :=
  match s.mcasts.find? fun m => m.id = b.copy with
  | none => .next s
  | some m =>
    if !s.mcastFirst m then .next s
    else
      match m.path with
      | h :: rest =>
        .next { s with
          mcasts := (s.mcasts.filter fun x => x.id != b.copy) ++
            [{ m with hub := h.hub, from_ := m.hub, y := h.y, relay := h.relay, path := rest }] }
      | [] =>
        match (s.mcastPorts m)[b.branch]? with
        | none => .next s
        | some h =>
          let part := m.dests.filter fun x => s.phys x ≠ m.hub ∧ nextHop m.hub (s.phys x) = h
          let s' := s.mcastTake b.copy part
          .next { s' with
            mcasts := s'.mcasts ++ [⟨s'.nextId, m.msg, h, m.hub, m.y, m.relay, part, []⟩]
            nextId := s'.nextId + 1 }

/-! ### Girth barriers (R193 to R196, R295 to R299) -/

/-- Word `w` of group `g`'s membership mask, and of its arrivals. -/
def Die.gmask (d : Die) (g w : Nat) : W64 := Table.get 0 d.girthMask (4 * g + w)
def Die.garr (d : Die) (g w : Nat) : W64 := Table.get 0 d.girthArr (4 * g + w)

/-- A core is a member, and has arrived. -/
def Die.gmember (d : Die) (g core : Nat) : Bool := bit (d.gmask g (core / 64)) (core % 64)
def Die.garrived (d : Die) (g core : Nat) : Bool := bit (d.garr g (core / 64)) (core % 64)

/-- Every member of a group on the die has arrived. -/
def Die.gfull (d : Die) (g : Nat) : Bool := (List.range 4).all fun w => d.gmask g w &&& ~~~(d.garr g w) == 0

/-- The group has a member on the die. -/
def Die.gany (d : Die) (g : Nat) : Bool := (List.range 4).any fun w => d.gmask g w != 0

/-- The dies of a group, ascending; the die alone when GIRTHSPAN names no other. -/
def State.gdies (s : State) (site g : Nat) : List Nat :=
  let v := (s.die site).girthSpan.toList.getD g 0
  if v = 0 ∨ v = BitVec.ofNat 64 (2 ^ site) then [site] else (List.range 64).filter fun d => bit v d

/-- The group spans dies. -/
def State.gspans (s : State) (site g : Nat) : Bool := s.gdies site g != [site]

/-- Peer modules of a group. -/
def State.gmods (s : State) (site g : Nat) : List Nat :=
  let v := s.sreg site (0x1D00 + 8 * g)
  (List.range 32).filter fun m => bit v m

/-- The phase bit of a group. -/
def Die.gphase (d : Die) (g : Nat) : Nat := if d.girthPhase.getLsbD g then 1 else 0

/-- A report stands for the open phase. -/
def Die.reported (d : Die) (g src : Nat) : Bool := d.barrier.any fun b => b.1 == g && b.2 == src

/-- The group is complete on this module, as die `site` sees it (R298). -/
def State.gmoduleDone (s : State) (site g : Nat) : Bool :=
  let d := s.die site
  let ds := s.gdies site g
  d.gfull g && (d.gany g || s.gspans site g) &&
    ds.all fun x => x == site ||
      (d.reported g x && s.computeSite x &&
        (s.die x).girthSpan.toList.getD g 0 == d.girthSpan.toList.getD g 0)

/-- The die's own reports that are due: barrier packets to the other dies of a spanning group, and, from the lowest die
of the group, barrier packets to peer modules, held while their link is down (R298, R432, R433). -/
def State.greport (s : State) (site g : Nat) : State :=
  let d := s.die site
  let s :=
    if s.gspans site g && d.gfull g && !d.reported g site then
      (s.modDie site fun d => { d with barrier := d.barrier ++ [(g, site)] }).mcastSend site (.barrier g site)
        ((s.gdies site g).filter (· != site))
    else s
  if (s.gdies site g).head? = some site ∧ s.gmoduleDone site g then
    (s.gmods site g).foldl (fun s m =>
      if (s.die site).reported g (192 + m) then s
      else
        let mark (x : Nat) (s : State) : State := s.modDie site fun d => { d with barrier := d.barrier ++ [(g, x)] }
        if s.peerOk m then
          mark (192 + m) (s.emit (.flit (bits (s.sreg 0 (0x1B80 + 8 * m)) 0 5) (.barrier g (d.gphase g = 1))))
        else mark (192 + m) (mark (128 + m + 32 * d.gphase g) s)) s
  else s

/-- One entry of each source is used up by the phase that completes. -/
def Die.gspend (d : Die) (g : Nat) (srcs : List Nat) : Die :=
  { d with barrier := srcs.foldl (fun l x => l.erase (g, x)) d.barrier }

/-- The phase of a group completes on a die: the bit flips, arrivals are cleared, waiters complete. -/
def State.gflip (s : State) (site g : Nat) : State :=
  let ms := s.gmods site g
  let ph := (s.die site).gphase g
  let srcs := s.gdies site g ++ ms.map (fun m => 64 + m + 32 * ph) ++ ms.map (192 + ·)
  let s := s.modDie site fun d =>
    { d.gspend g srcs with
      girthPhase := d.girthPhase ^^^ (1#8 <<< g)
      girthArr := (List.range 4).foldl (fun t w => Table.erase t (4 * g + w)) d.girthArr }
  let s := { s with ctxs := Table.mapVals (fun k (c : Ctx) =>
      if k / 1024 = site then { c with girthFlip := c.girthFlip ||| (1#8 <<< g) } else c) s.ctxs }
  let here := s.liveCtxs.filter fun r => r.site = site
  here.foldl (fun s r =>
    match (s.ctx r).wait with
    | .waitb x => if x.toNat = g ∧ (s.ctx r).st = .waiting then s.fire r 0 else s
    | .arrive x => if x.toNat = g then s.rouse r else s
    | _ => s) s

/-- `phaseComplete` event (R193, R298, R432). -/
def execPhaseComplete (site group : Nat) (s : State) : Result :=
  let d := s.die site
  if s.gmoduleDone site group ∧ (s.gmods site group).all (fun m => d.reported group (64 + m + 32 * d.gphase group)) ∧
      (!s.gspans site group ∨ d.reported group site) then
    .next (s.gflip site group)
  else .next s

/-- `barrierPacket` event (R298): a copy reaches its die. -/
def execBarrierPacket (site group src : Nat) (s : State) : Result :=
  match s.mcasts.find? fun m =>
      m.msg = .barrier group src ∧ m.hub = s.phys site ∧ site ∈ m.dests ∧ m.path = [] ∧ s.mcastFirst m with
  | none => .next s
  | some m =>
    let s := (s.mcastTake m.id [site]).modDie site fun d => { d with barrier := d.barrier ++ [(group, src)] }
    .next (s.greport site group)

/-- The mask of cause 0x10 (R196, R299). -/
def State.gmissing (s : State) (site g : Nat) : W64 :=
  let l := (s.gdies site g).flatMap fun d =>
    ((List.range 256).filter fun c => (s.die d).gmember g c).map fun c => !(s.die d).garrived g c
  BitVec.ofNat 64 (packBits (l.take 63) + if (l.drop 63).any id then 9223372036854775808 else 0)

/-- A synchronous cause met by a context that waits: taken at its bundle, by all members of a gang (R186). -/
def State.trapAll (s : State) (r : CtxRef) (code : Nat) (v : W64) : State :=
  (s.members r).foldl (fun s m =>
    let c := s.ctx m
    let s := s.takeTrap m false false code v c.pc c.slot
    if (s.ctx m).st = .free then s else s.rouse m) s

/-- `girthTimeout` event (R196): a timeout of 0 never expires. -/
def execGirthTimeout (r : CtxRef) (s : State) : Result :=
  match (s.ctx r).wait with
  | .waitb g =>
    if (s.ctx r).st = .waiting ∧ bits ((s.die r.site).girthTo.toList.getD g.toNat 0) 0 32 ≠ 0 then
      .next (s.trapAll r 0x10 (s.gmissing r.site g.toNat))
    else .next s
  | _ => .next s

/-- The group's membership check of R295. -/
def State.girth (s : State) (g : BitVec 3) (f : State) : Result :=
  if (s.die s.cur.site).gmember g.toNat s.cur.core then .next f else .next (s.trap 0x09 (g.setWidth 64))

/-- The core arrives; the context records the phase bit (R194). -/
def State.arriveGo (s : State) (g : BitVec 3) : State :=
  let d := s.die s.cur.site
  let core := s.cur.core
  let n := g.toNat
  if d.garrived n core then s.await (.arrive g)
  else
    let w := core / 64
    let s := s.modDie s.cur.site fun d =>
      { d with girthArr := Table.put d.girthArr (4 * n + w) (d.garr n w ||| (1#64 <<< (core % 64))) }
    let m : BitVec 8 := 1#8 <<< n
    (s.modC fun c =>
      { c with
        girthRec := (c.girthRec &&& ~~~m) ||| (d.girthPhase &&& m)
        girthFlip := c.girthFlip &&& ~~~m }).greport s.cur.site n

/-- `arrive` (R193, R194). -/
def execArrive (g : BitVec 3) (s : State) : Result :=
  s.girth g (s.arriveGo g)

/-- `arriveSs` (R195): the arrival is withheld until the context's writes are performed; a spanning group's arrival acts
as a fence of module scope. -/
def execArriveSs (g : BitVec 3) (s : State) : Result :=
  let site := s.cur.site
  s.girth g <|
    let spans := s.gspans site g.toNat || !(s.gmods site g.toNat).isEmpty
    if s.c.ocs ≠ 0 ∨ s.c.occ ≠ 0 ∨ !(s.parked s.cur).isEmpty ∨ (spans && s.awaiting s.cur) then s.flow .stall
    else if spans then (s.rdcUnbound site).arriveGo g
    else s.arriveGo g

/-- `waitb` (R194 to R196). A wait that the phase's flip has ended completes, even where the flip emptied the group (R297). One
that was abandoned and executes again is a `waitb` like any other: where its core is no member any more it takes 0x09 (R295;
log entry 80). -/
def execWaitb (g : BitVec 3) (s : State) : Result :=
  let site := s.cur.site
  let passed : State := if s.gspans site g.toNat ∨ s.gmods site g.toNat ≠ [] then s.unfire.rdcUnbound site else s.unfire
  if s.c.fired.isSome then .next passed
  else s.girth g (if s.c.girthFlip.getLsbD g.toNat then passed else s.await (.waitb g))

/-- A write of GIRTHMASK_g_w takes effect (R296, R297). -/
def State.girthSetMask (s : State) (site g w : Nat) (v : W64) : State :=
  let inn := BitVec.ofNat 64 (packBits ((List.range 64).map fun j => s.inRect site (64 * w + j)))
  let v := v &&& inn
  let s := s.modDie site fun d =>
    { d with
      girthMask := Table.set 0 d.girthMask (4 * g + w) v
      girthArr := Table.set 0 d.girthArr (4 * g + w) (d.garr g w &&& v) }
  if !(s.die site).gany g ∧ !s.gspans site g then s.gflip site g else s.greport site g

end Sys2Proof.Machine
end

