-- ==== Sys2Proof/Machine/Handle.lean ====
section
/-! DEFINITION. Local memory's handle regions: grants, passes, takes, recalls and releases, bank power gating and the
retain timeout (R66 to R77, R284 to R286). -/

namespace Sys2Proof.Machine

/-! ### Region entries -/

/-- Entry of a core's region table. -/
def Core.region (k : Core) (slot : Nat) : Region := Table.get Region.reset k.regions slot

/-- Change an entry. -/
def State.modRegion (s : State) (site core slot : Nat) (f : Region → Region) : State :=
  s.modCore site core fun k => { k with regions := Table.put k.regions slot (f (k.region slot)) }

/-- The entry is in use. -/
def Region.used (e : Region) : Bool := e.state != .free

/-- Two runs of 64-byte units overlap. -/
def unitsMeet (b l b' l' : Nat) : Bool := decide (b < b' + l') && decide (b' < b + l)

/-- A region of units lies in task space (R70). -/
def inTask (b l : Nat) : Bool := decide (0x16000 ≤ 64 * b) && decide (64 * (b + l) ≤ 524288) && decide (0 < l)

/-- A used entry overlaps a run of units. -/
def Core.overlaps (k : Core) (b l : Nat) : Bool :=
  k.regions.any fun e => e.2.used && unitsMeet e.2.base e.2.len b l

/-- Entries of a core that are FREE. -/
def Core.freeSlots (k : Core) : List Nat := (List.range 32).filter fun i => !(k.region i).used

/-- Banks that a run of local bytes covers are powered (R68). -/
def ungate (g : BitVec 16) (off n : Nat) : BitVec 16 :=
  (List.range 16).foldl (fun (m : BitVec 16) b =>
    if off < 32768 * (b + 1) ∧ 32768 * b < off + n then m &&& ~~~(1#16 <<< b) else m) g

/-- A grant: the entry becomes EXCLUSIVE to the target, its bytes 0 when `fill` says so (R71, R75). -/
def State.grant (s : State) (site core slot b l : Nat) (h : Holder) (pin fill : Bool) : State :=
  let s := s.modRegion site core slot fun e =>
    { state := .exclusive h, base := b, len := l, gen := e.gen, pin := pin, grantee := if pin then some h else none }
  let s := s.modCore site core fun k => { k with gated := ungate k.gated (64 * b) (64 * l) }
  if fill then s.zero (lmemPa site core (64 * b)) (64 * l) else s

/-! ### Handle values (R70) -/

/-- Fields of a handle or of a region description. -/
def hSlot (v : W64) : Nat := bits v 0 5
def hOwner (v : W64) : Nat := bits v 6 6
def hGen (v : W64) : Nat := bits v 12 12
def hBase (v : W64) : Nat := bits v 24 13
def hLen (v : W64) : Nat := bits v 37 13 + 1

/-- The handle value of an entry, MODE = 0. -/
def handleOf (slot owner gen base len : Nat) : W64 :=
  BitVec.ofNat 64 (slot + owner * 64 + gen * 4096 + base * 16777216 + (len - 1) * 137438953472)

/-- Physical core that owns the region of a handle, for a context of the cluster. -/
def hCore (r : CtxRef) (v : W64) : Nat := clusterOf r.core * 64 + hOwner v

/-- The handle names its entry. -/
def State.handleOk (s : State) (r : CtxRef) (v : W64) : Bool :=
  let e := (s.core r.site (hCore r v)).region (hSlot v)
  decide (hGen v = e.gen.toNat) && decide (hBase v = e.base) && decide (hLen v = e.len) && decide (bits v 50 14 = 0)

/-- The context that a target operand names; none for an invalid one. -/
def State.target (s : State) (r : CtxRef) (v : W64) : Option Holder :=
  if bits v 8 56 = 0 ∧ s.inRect r.site (clusterOf r.core * 64 + bits v 0 6) then some ⟨bits v 0 6, bits v 6 2⟩ else none

/-! ### R72: engine commands on a region -/

/-- Bytes [o, o + n) of a core meet a region. -/
def meetsRegion (c core o n b l : Nat) : Bool := c = core && decide (o < 64 * (b + l)) && decide (64 * b < o + n)

/-- Bytes that an address of a context names now meet a region: through an aperture, or through pages whose frames are in
local memory, 4 KiB by 4 KiB. -/
def State.bytesMeet (s : State) (r : CtxRef) (asid : BitVec 16) (core b l : Nat) (va : W64) (n : Nat) : Bool :=
  match s.engLoc r va with
  | some (c, o, _) => meetsRegion c core o n b l
  | none =>
    (List.range ((va.toNat % 4096 + n + 4095) / 4096)).any fun j =>
      let a := if j = 0 then va else BitVec.ofNat 64 ((va.toNat / 4096 + j) * 4096)
      let k := min (4096 - a.toNat % 4096) (va.toNat + n - a.toNat)
      if !canonical a || bit a 55 then false
      else
        match s.engPa r asid a with
        | some pa => paRegion pa == 3 && paSite pa == r.site && meetsRegion (pa / 524288 % 256) core (pa % 524288) k b l
        | none => false

/-- Rows from an address meet a region. -/
def State.rowsMeet (s : State) (r : CtxRef) (asid : BitVec 16) (core b l : Nat) (va stride : W64) (skip rows n : Nat) : Bool :=
  (List.range rows).any fun i => s.bytesMeet r asid core b l (va + BitVec.ofNat 64 skip + BitVec.ofNat 64 i * stride) n

/-- A matrix command reads or writes a region. -/
def State.cmdMeets (s : State) (r : CtxRef) (core b l : Nat) (m : MxCmd) : Bool :=
  (m.spans.any fun sp => s.rowsMeet r m.asid core b l sp.va (BitVec.ofNat 64 sp.str) sp.skip sp.rows sp.len) ||
    ((m.opc = 5 || m.opc = 6) && s.rowsMeet r m.asid core b l (m.d 1) (BitVec.ofNat 64 (m.f 3 0 20)) 0 m.rows (8 * m.cols))

/-- Element bytes of a map's side: FP32 for RAW. -/
def mapEs (code : Nat) : Nat := if code = 0 then 4 else elemBytes code

/-- Destination address of a `map` (R323). -/
def mapDst (b : W64) : W64 := BitVec.ofNat 64 (0xFFFFFFFF00000000 + bits b 0 32)

/-- A copy reads or writes a region. -/
def State.copyMeets (s : State) (r : CtxRef) (asid : BitVec 16) (core b l : Nat) (src dst len stride : W64) (peer : Nat) : Bool :=
  let rows := bits len 32 16 + 1
  (peer != 1 && s.rowsMeet r asid core b l src (sext 32 (bits stride 0 32)) 0 rows (bits len 0 32)) ||
    (peer != 2 && s.rowsMeet r asid core b l dst (sext 32 (bits stride 32 32)) 0 rows (bits len 0 32))

/-- The active copy, or one that a pre-emption stopped. -/
def State.runMeets (s : State) (r : CtxRef) (core b l : Nat) (a : CopyRun) : Bool :=
  s.copyMeets r a.asid core b l a.src a.dst a.len a.stride a.peer

/-- A store of a context to a region is on its way to the bank, or parked (R72). -/
def State.storesMeet (s : State) (r : CtxRef) (core b l : Nat) : Bool :=
  let k := s.core r.site r.core
  (s.reqs.any fun q => q.who == r && !q.orphan && q.stage != .done && paRegion q.pa == 3 && paSite q.pa == r.site &&
    meetsRegion (q.pa / 524288 % 256) core (q.pa % 524288 / 128 * 128) 128 b l) ||
    ((k.rq ++ k.stw).any fun e => e.ctx == r.ctx && s.bytesMeet r e.asid core b l e.va e.data.length)

/-- Some store, matrix command or copy of a context on a region is not finished (R72). -/
def State.regionBusy (s : State) (r : CtxRef) (core b l : Nat) : Bool :=
  let k := s.core r.site r.core
  let x := s.ctx r
  let map (va y : W64) : Bool :=
    let es := match s.engLoc r va with
      | some (_, _, code) => mapEs code
      | none => 4
    s.rowsMeet r x.asid core b l va 0 0 1 (es * bits y 32 16)
  s.storesMeet r core b l ||
    (k.mxq.any fun m => m.ctx == r.ctx && s.cmdMeets r core b l m) ||
    ((k.cp.toList ++ x.savedCp.toList).any fun a => a.ctx == r.ctx && s.runMeets r core b l a) ||
    (k.chunks.any fun c => c.ctx == r.ctx && !c.dead &&
      ((c.peer != 1 && s.bytesMeet r c.asid core b l c.src c.n) || (c.peer != 2 && s.bytesMeet r c.asid core b l c.dst c.n))) ||
    (x.cpArmed && s.copyMeets r x.asid core b l x.cpsrc x.cpdst x.cplen x.cpstride (bits x.cpctl 6 2)) ||
    (k.obuf.any fun e => e.ctx == r.ctx && !e.dead) ||
    ((s.octet r.site (octetOf r.core)).sfuq ++ x.savedSfu).any fun q =>
      q.who == r && q.fn == .map && (map q.a q.b || map (mapDst q.b) q.b)

/-! ### The instructions -/

/-- `hgrant` (R284, R285). -/
def execHgrant (d a b : BitVec 5) (s : State) : Result :=
  let v := s.g a
  let core := hCore s.cur v
  let k := s.core s.cur.site core
  let fail (n : Nat) : State := s.gw d (BitVec.ofNat 64 (9223372036854775808 + n))
  if !s.c.sys then .next (s.trap 0x09 0)
  else
    match s.target s.cur (s.g b) with
    | none => .next (fail 3)
    | some h =>
      if !inTask (hBase v) (hLen v) ∨ !s.inRect s.cur.site core then .next (fail 3)
      else if k.overlaps (hBase v) (hLen v) then .next (fail 1)
      else
        match k.freeSlots with
        | [] => .next (fail 2)
        | x :: l =>
          let slot := (x :: l).getD (s.choose (l.length + 1)) x
          .next ((s.next.grant s.cur.site core slot (hBase v) (hLen v) h false true).gw d
            (handleOf slot (hOwner v) (k.region slot).gen.toNat (hBase v) (hLen v)))

/-- A handle instruction of the context in issue: the handle is validated, the event applied to its entry; `waits` for
the events of R72. -/
def State.handleOp (s : State) (v : W64) (waits : Bool) (f : Region → Option Region) (g : State → State) : State :=
  if !s.handleOk s.cur v then s.trap 0x0A v
  else
    let core := hCore s.cur v
    let e := (s.core s.cur.site core).region (hSlot v)
    match f e with
    | none => s.trap 0x0A v
    | some e' =>
      if waits && s.regionBusy s.cur core e.base e.len then s.flow .stall
      else g (s.modRegion s.cur.site core (hSlot v) fun _ => e')

/-- Pass exclusive (R71, R76). -/
def Region.passX (h t : Holder) (e : Region) : Option Region :=
  if e.pin then none
  else if e.state = .exclusive h ∨ e.state = .shared [h] then some { e with state := .passing (some h) t }
  else none

/-- Pass shared. -/
def Region.passS (h t : Holder) (e : Region) : Option Region :=
  match e.state with
  | .exclusive o => if o = h then some { e with state := .shared (if t = h then [h] else [h, t]) } else none
  | .shared hs =>
    if hs.contains h then some { e with state := .shared (if hs.contains t then hs else hs ++ [t]) } else none
  | _ => none

/-- Take. -/
def Region.take (h : Holder) (e : Region) : Option Region :=
  match e.state with
  | .passing _ t => if t = h then some { e with state := .exclusive h } else none
  | _ => none

/-- Recall. -/
def Region.recall (h : Holder) (e : Region) : Option Region :=
  match e.state with
  | .passing (some o) _ => if o = h then some { e with state := .exclusive h } else none
  | _ => none

/-- Release. -/
def Region.release (h : Holder) (e : Region) : Option Region :=
  match e.state with
  | .exclusive o => if o = h ∧ !e.pin then some e.freed else none
  | .shared hs =>
    let rest := hs.filter fun x => x != h
    if !hs.contains h then none
    else if rest.isEmpty then (if e.pin then none else some e.freed)
    else some { e with state := .shared rest }
  | _ => none

/-- A pass to a target operand. -/
def State.hpass (s : State) (d a b : BitVec 5) (mode : Nat) (f : Holder → Holder → Region → Option Region) : State :=
  let v := s.g a
  let t := s.target s.cur (s.g b)
  s.handleOp v true (fun e => t.bind fun t => f (holderOf s.cur) t e) fun s => s.gw d (putBits v 5 1 mode)

/-- `hpassX` (R71, R284, R286). -/
def execHpassX (d a b : BitVec 5) (s : State) : Result :=
  .next (s.hpass d a b 0 Region.passX)

/-- `hpassS`. -/
def execHpassS (d a b : BitVec 5) (s : State) : Result :=
  .next (s.hpass d a b 1 Region.passS)

/-- `htake`. -/
def execHtake (d a : BitVec 5) (s : State) : Result :=
  .next (s.handleOp (s.g a) false (Region.take (holderOf s.cur)) fun t => t.gw d (putBits (s.g a) 5 1 0))

/-- `hrecall`. -/
def execHrecall (a : BitVec 5) (s : State) : Result :=
  .next (s.handleOp (s.g a) false (Region.recall (holderOf s.cur)) id)

/-- `hrel`. -/
def execHrel (a : BitVec 5) (s : State) : Result :=
  .next (s.handleOp (s.g a) true (Region.release (holderOf s.cur)) id)

/-! ### Banks and retained regions -/

/-- A used region covers a byte of a bank. -/
def Core.bankUsed (k : Core) (bank : Nat) : Bool := k.overlaps (512 * bank) 512

/-- `bankPowerGate` event (R68): banks 3 to 15; the bank reads 0 when powered again. -/
def execBankPowerGate (site core bank : Nat) (s : State) : Result :=
  if bank < 3 ∨ 16 ≤ bank ∨ (s.core site core).bankUsed bank then .next s
  else
    .next ((s.zero (lmemPa site core (32768 * bank)) 32768).modCore site core fun k =>
      { k with gated := k.gated ||| (1#16 <<< bank) })

/-- `retainTimeout` event (R77). -/
def execRetainTimeout (site core slot : Nat) (s : State) : Result :=
  match ((s.core site core).region slot).state with
  | .retained _ => .next (s.modRegion site core slot Region.freed)
  | _ => .next s

end Sys2Proof.Machine
end

