-- ==== Sys2Proof/Machine/Lanes.lean ====
section
/-! DEFINITION. Lane claims and the special-function unit (R188 to R192, R300, R301, R321 to R326). -/

namespace Sys2Proof.Machine

/-! ### Claims -/

/-- A register's lanes at a new claim: higher lanes go, new ones read 0 (R190). -/
def resize {α : Type} (z : α) (n : Nat) (l : List α) : List α := (List.range n).map fun i => l.getD i z

/-- A context at a new set of blocks. -/
def Ctx.setHeld (c : Ctx) (held : List Nat) : Ctx :=
  let n := 32 * held.length
  { c with held := sortBy id held, v := c.v.map (resize 0 n), m := c.m.map (resize false n) }

/-- `n` blocks of a list, by a free choice (R301). -/
def State.pickBlocks (s : State) (l : List Nat) (n : Nat) : List Nat := (l.rotateLeft (s.choose (l.length + 1))).take n

/-- A context's claim becomes `n` blocks; blocks that it frees join the pool. -/
def State.setClaim (s : State) (r : CtxRef) (n : Nat) : State :=
  let c := s.ctx r
  let held := if n ≤ c.claim then s.pickBlocks c.held n
    else c.held ++ s.pickBlocks (s.freeBlocks r.site (octetOf r.core)) (n - c.claim)
  (s.modCtx r fun c => c.setHeld held).next

/-- The new claim of R189, for a context with claim `c`, `free` blocks in the pool, `d` contexts that hold or want
blocks; `unmet` says that another context is unmet. -/
def renewed (w c free d : Nat) (unmet : Bool) : Nat :=
  if !unmet then min w (c + free)
  else
    let share := max 1 (8 / d)
    min w (max (min c share) (min share (c + free)))

/-- D of R189, the context included as it wants `w`. -/
def State.demand (s : State) (r : CtxRef) (w : Nat) : Nat :=
  ((s.octCtxs r.site (octetOf r.core)).filter fun x =>
    decide (0 < x.2.claim) || (if x.1 == r then decide (0 < w) else x.2.unmet)).length

/-- Another context of the octet is unmet. -/
def State.othersUnmet (s : State) (r : CtxRef) : Bool :=
  (s.octCtxs r.site (octetOf r.core)).any fun x => x.1 != r && x.2.unmet

/-- Grants of members in order, each from the pool that the earlier ones leave: how `f` answers from a context's claim
and the pool. -/
def grants (s : State) (f : CtxRef → Nat → Nat → Nat) : List CtxRef → Nat → List Nat
  | [], _ => []
  | r :: l, free =>
    let n := f r (s.ctx r).claim free
    n :: grants s f l (free + (s.ctx r).claim - n)

/-- Every member of the gang gets the least of the members' grants (R192); the leader's execution does it for all. What is
left in the pool then goes to the contexts chosen for resumption (R191). -/
def State.claimAll (s : State) (w : Nat) (f : CtxRef → Nat → Nat → Nat) : State :=
  if s.follows then s
  else
    let ms := s.members s.cur
    let n := (grants s f ms (s.freeBlocks s.cur.site (octetOf s.cur.core)).length).foldl min 8
    let s := ms.foldl (fun s m => s.modCtx m fun c => { c with want := w }) s
    let down := ms.foldl (fun s m => if n < (s.ctx m).claim then s.setClaim m n else s) s
    (ms.foldl (fun s m => if (s.ctx m).claim < n then s.setClaim m n else s) down).reserve s.cur.site (octetOf s.cur.core)

/-- Lanes of the claim, as the instructions return them. -/
def State.claimLanes (s : State) (d : BitVec 5) : State := s.gw d (BitVec.ofNat 64 (32 * s.c.claim))

/-- Vector loads or stores of the context are outstanding (R300). -/
def Ctx.vecBusy (c : Ctx) : Bool := c.pend.v != 0

/-- `vclaim` (R188, R192): 0x0D when blocks are held already. -/
def execVclaim (d : BitVec 5) (w : BitVec 4) (s : State) : Result :=
  let before := if s.c.gang then (s.member (qpos s.cur)).claim else s.c.claim
  if 0 < before then .next (s.trap 0x0D 0)
  else .next ((s.claimAll w.toNat fun _ _ free => min w.toNat free).claimLanes d)

/-- `vrenew` (R189, R192). -/
def execVrenew (d : BitVec 5) (w : BitVec 4) (s : State) : Result :=
  if s.c.vecBusy then .next (s.flow .stall)
  else
    .next ((s.claimAll w.toNat fun r c free =>
      renewed w.toNat c free (s.demand r w.toNat) (s.othersUnmet r)).claimLanes d)

/-- `vrel` (R300). -/
def execVrel (s : State) : Result :=
  if s.c.vecBusy then .next (s.flow .stall)
  else .next ((s.modC fun c => { c.setHeld [] with want := 0 }).reserve s.cur.site (octetOf s.cur.core))

/-! ### `sfucmd` (R321 to R325) -/

/-- The flags of a request: the scope of REL, when its function touches memory (R127). -/
def sfuRel (u : SfuFn) (rel : Bool) (e : Scope) : Option Scope := if rel && u == .map then some e else none

/-- The function of a `map`. -/
def mapFn (n : Nat) : SfuFn :=
  match n with
  | 0 => .rcp | 1 => .rsqrt | 2 => .sqrt | 3 => .exp2 | 4 => .log2 | 5 => .sinpi | 6 => .cospi | 7 => .tanh
  | 8 => .sigmoid | _ => .exp

/-- Rows 3, 5, 6 and 7 of R275 for one range of a `map` as one access, and the apertures: the cause. -/
def State.mapCheck (s : State) (r : CtxRef) (va : W64) (count : Nat) (write : Bool) : Option Nat :=
  match s.engLoc r va with
  | none => some 0x09
  | some (core, off, code) =>
    let n := count * mapEs code
    if 524288 < off + n then some 0x09
    else if va.toNat % mapEs code ≠ 0 then some 0x0B
    else if 5 < code then some 0x0E
    else if count = 0 then none
    else s.localCheck r core off n code write

/-- The SFU's request enters its octet's queue (R123, R325). -/
def State.sfuPut (s : State) (d : BitVec 5) (q : SfuReq) : State :=
  let o := octetOf s.cur.core
  if !s.startOk s.cur ∨ 16 ≤ (s.octet s.cur.site o).sfuq.length then s.flow .stall
  else
    ((s.modOctet s.cur.site o fun x => { x with sfuq := x.sfuq ++ [{ q with job := s.nextId }] }).takeId).modC fun c =>
      { c with sfuBusy := true, pend := c.pend.add (rG [d]) }

/-- `sfucmd` (R321, R323). Every check of a map's source range comes before any of its destination range; R323 gives no order
between the two (log entry 82). -/
def execSfucmd (d a b : BitVec 5) (e : Scope) (rel acq : Bool) (u : SfuFn) (s : State) : Result :=
  let x := s.g a
  let y := s.g b
  let q : SfuReq :=
    { who := s.cur, fn := u, a := x, b := y, d := d, rel := sfuRel u rel e, acq := acq && u == .map, scope := e,
      started := false, next := 0, job := 0, drop := false }
  if u ≠ .map then .next (s.sfuPut d q)
  else if 9 < bits y 48 4 ∨ bits y 52 12 ≠ 0 then .next s.illegal
  else
    match s.mapCheck s.cur x (bits y 32 16) false with
    | some c => .next (s.trap c x)
    | none =>
      match s.mapCheck s.cur (mapDst y) (bits y 32 16) true with
      | some c => .next (s.trap c (mapDst y))
      | none => .next (s.sfuPut d q)

/-- A source element of a `map` as FP32: decoded with scaling off. -/
def mapLoad (code b : Nat) : Nat :=
  if code = 0 then b % 4294967296
  else if code = 5 then Fmt.fp32.round .ne 0 (Fp.ofInt (BitVec.ofNat 8 b).toInt)
  else (windowLoad code b none).toNat

/-- A result's bytes: narrowed with scaling off, to nearest even; an INT8 element is the FP32 value rounded. -/
def mapStore (code x : Nat) : List Byte :=
  if code = 0 then toBytes 4 x
  else if code = 5 then toBytes 1 (BitVec.ofInt 8 (toInt8 .ne 0 (Fmt.fp32.decode x))).toNat
  else toBytes (elemBytes code) (windowStore code .ne 0 (BitVec.ofNat 32 x) none)

/-- Element `i` of a `map`; none when a bank check fails. -/
def State.mapElem (s : State) (q : SfuReq) (i : Nat) : Option State :=
  match s.engLoc q.who q.a, s.engLoc q.who (mapDst q.b) with
  | some (c1, o1, k1), some (c2, o2, k2) =>
    let a1 := o1 + i * mapEs k1
    let a2 := o2 + i * mapEs k2
    let ok := q.drop ||
      ((s.localCheck q.who c1 a1 (mapEs k1) k1 false).isNone && (s.localCheck q.who c2 a2 (mapEs k2) k2 true).isNone)
    if !ok then none
    else
      let s := (s.powerUp q.who.site c1 a1 (mapEs k1)).powerUp q.who.site c2 a2 (mapEs k2)
      let x := mapLoad k1 (ofBytes (s.bytes (lmemPa q.who.site c1 a1) (mapEs k1)))
      some (s.setBytes (lmemPa q.who.site c2 a2) (mapStore k2 (sfuFp32 (mapFn (bits q.b 48 4)) x)))
  | _, _ => none

/-- Elements of a step; the index of one that failed. -/
def State.mapStep (s : State) (q : SfuReq) : Nat → Nat → State × Option Nat
  | 0, _ => (s, none)
  | n + 1, i =>
    if bits q.b 32 16 ≤ i then (s, none)
    else
      match s.mapElem q i with
      | none => (s, some i)
      | some s => State.mapStep s q n (i + 1)

/-- A request is over: its result lands, and it counts down by R126. -/
def State.sfuDone (s : State) (site octet : Nat) (q : SfuReq) (v : W64) : State :=
  let s := s.modOctet site octet fun o => { o with sfuq := o.sfuq.drop 1 }
  if q.drop then s
  else
    let s := (s.modCtx q.who fun c => { c.wg q.d v with pend := c.pend.sub (rG [q.d]) }).spill q.who (rG [q.d])
    s.modCore site q.who.core fun k => { k with jobs := k.jobs ++ [⟨q.who.ctx, q.job, .sfu, q.rel, none⟩] }

/-- `sfuRequestStart` event (R325): the first request not yet started; with ACQ it waits for what its context issued before it
(R125). -/
def execSfuRequestStart (site octet : Nat) (s : State) : Result :=
  match (s.octet site octet).sfuq.find? fun q => !q.started with
  | none => .next s
  | some q =>
    if q.acq && !q.drop && s.awaitingTo q.who q.job then .next s
    else
    let s := s.modOctet site octet fun o =>
      { o with sfuq := o.sfuq.map fun x => if x.job = q.job then { x with started := true } else x }
    .next (if q.acq then s.engFence site (scopeCode q.scope) else s)

/-- `sfuResult` event (R325): the result of a scalar request, or one step of 32 elements of a `map`. -/
def execSfuResult (site octet : Nat) (s : State) : Result :=
  match (s.octet site octet).sfuq with
  | [] => .next s
  | q :: _ =>
    if !q.started then .next s
    else if q.fn ≠ .map then
      .next (s.sfuDone site octet q (BitVec.ofNat 64 (sfuFp32 q.fn (bits q.a 0 32))))
    else
      match s.mapStep q 32 q.next with
      | (s, some i) => .next (s.sfuDone site octet q (BitVec.ofNat 64 (9223372036854775808 + i)))
      | (s, none) =>
        if bits q.b 32 16 ≤ q.next + 32 ∨ q.drop then .next (s.sfuDone site octet q 0)
        else
          .next (s.modOctet site octet fun o =>
            { o with sfuq := o.sfuq.map fun x => if x.job = q.job then { x with next := q.next + 32 } else x })

end Sys2Proof.Machine
end

