-- ==== Sys2Proof/Machine/Power.lean ====
section
/-! DEFINITION. Power: dividers and row voltages, stall samples, leases' states, melt and throttle, row withholding,
energy flushes and die gating (R389 to R396, R401, R402, R406, R407, R410 to R412). -/

namespace Sys2Proof.Machine

/-! ### Registers -/

/-- Fast throttle in force on a site (R395). -/
def State.throttled (s : State) (site : Nat) : Bool := bit (s.sreg site 0x5018) 0

/-- Site in refreeze, and its melt fraction. -/
def State.refreeze (s : State) (site : Nat) : Bool := bit (s.sreg site 0x5000) 10
def State.meltFrac (s : State) (site : Nat) : Nat := bits (s.sreg site 0x5000) 0 10

/-- Code of a lease state (R400). -/
def LeaseState.code : LeaseState → Nat
  | .idle => 0 | .rampup => 1 | .sprint => 2 | .rampdown => 3

/-- The lease is in RAMPUP or SPRINT. -/
def Lease.live (l : Lease) : Bool := l.st = .rampup || l.st = .sprint

/-- Change a cluster's lease. -/
def State.setLease (s : State) (site cl : Nat) (l : Lease) : State :=
  s.modDie site fun d => { d with lease := Vector.ofFn fun i : Fin 4 => if i.val = cl then l else d.lease[i] }

/-! ### Dividers and voltages (R389, R390, R392) -/

/-- A dispatch to an idle core sets its divider to its floor (R392); to any other, the floors and offsets that the new task
brings act at once (R390). -/
def State.wakeDiv (s : State) (site core : Nat) : State :=
  let s := s.modCore site core fun k => { k with seen := true }
  if (s.core site core).divWant = 4 then s.wantDiv site core (s.floorDiv site core) else s.settleQuad site core

/-- `voltageStep` event (R389, R390): one code toward the target; the row's cores then take the dividers that their floors and
its voltage give, such as DIV 1 after the end of a lease (R402). -/
def execVoltageStep (site row : Nat) (s : State) : Result :=
  let v := s.vcode site row
  let t := s.rowTarget site row
  if v = t then .next (s.settleRow site row)
  else
    .next ((s.setSreg site (0x5040 + 8 * row) (BitVec.ofNat 64 (if v < t then v + 1 else v - 1))).settleRow site row)

/-! ### Stall samples (R393, R410) -/

/-- The divider that a sample asks for. -/
def sampleDiv (floor want ratio shi slo : Nat) (busy demand : Bool) : Nat :=
  if !busy then 4
  else if want = 4 ∨ !demand then floor
  else if shi ≤ ratio then max want (min (want + 1) 3)
  else if ratio ≤ slo then max floor (want - 1)
  else want

/-- A core's static energy of a stall sample: to account 0 with no context there, else shared equally among the ASIDs of its
contexts, the remainder one nJ each to the first of them (R410; log entry 39). -/
def State.staticShare (s : State) (site core energy : Nat) : State :=
  let l := ((s.busyCtxs site core).map fun (x : Ctx) => x.asid.toNat).eraseDups
  if l.isEmpty then s.charge site 0 energy
  else l.zipIdx.foldl (fun s a =>
    s.charge site a.1 (energy / l.length + if a.2 < energy % l.length then 1 else 0)) s

/-- `stallSample` event (R393): `idle` of `cycles` core cycles issued nothing; the core's static energy was `energy` nJ. ENERGY
of each context takes what was charged to it. The hub's and its idle rows' static energy goes to account 0 (R410). -/
def execStallSample (site core idle cycles energy : Nat) (s : State) : Result :=
  let ratio := min 255 (256 * idle / cycles)
  let cfg := (s.die site).stallcfg
  let busy := (s.busyCtxs site core).length
  let seen := (s.core site core).seen
  let s := s.modCore site core fun k => { k with stall := ratio, seen := decide (busy ≠ 0) }
  let s := ((List.range 4).foldl (fun s c =>
      let r : CtxRef := ⟨site, core, c⟩
      if (s.ctx r).st = .free then s
      else s.modCtx r fun x => { x with energy := x.energy + BitVec.ofNat 64 (x.due + energy / busy), due := 0 }) s).staticShare
    site core energy
  let want := sampleDiv (s.floorDiv site core) (s.core site core).divWant ratio (bits cfg 0 8) (bits cfg 8 8)
    (decide (busy ≠ 0) || seen) (bit cfg 16)
  .next ((s.bill site 0).wantDiv site core want)

/-! ### Leases' states (R401, R402) -/

/-- A lease ends: RAMPDOWN, and cause 0x21 in the cluster's contexts of its ASID. Its cores go to DIV 1 in the ramp-down that
begins, at the next steps of their rows (R402). -/
def State.endLease (s : State) (site cl : Nat) (why : Nat) (but : Option CtxRef) : State :=
  let l := (s.die site).leaseOf cl
  if !l.live then s
  else
    let s := s.setLease site cl { l with st := .rampdown }
    (s.liveCtxs.filter fun r => r.site = site ∧ clusterOf r.core = cl ∧ (s.ctx r).asid = l.asid ∧ some r ≠ but).foldl
      (fun s r => s.pendCause r 0x21 (BitVec.ofNat 64 why)) s

/-- Every lease of a site ends. -/
def State.endLeases (s : State) (site why : Nat) : State :=
  (List.range 4).foldl (fun s cl => s.endLease site cl why none) s

/-- `leaseTimerExpiry` event (R402). -/
def execLeaseTimerExpiry (site cluster : Nat) (s : State) : Result :=
  .next (s.endLease site cluster 0 none)

/-- `rampupComplete` event (R402): every row of the cluster is at its target. -/
def execRampupComplete (site cluster : Nat) (s : State) : Result :=
  let l := (s.die site).leaseOf cluster
  let rows := (List.range 4).map (4 * cluster + ·)
  if l.st = .rampup ∧ rows.all (fun r => s.vcode site r == s.rowTarget site r) then
    let shi := bits (s.die site).stallcfg 0 8
    -- the ramp is charged to the lease's ASID (R410)
    let s := (s.setLease site cluster { l with st := .sprint }).bill site l.asid.toNat
    .next ((List.range 64).foldl (fun s i =>
      let c := 64 * cluster + i
      if (s.core site c).stall < shi ∧ s.busyCtxs site c ≠ [] then s.wantDiv site c (s.floorDiv site c) else s) s)
  else .next s

/-- `rampdownComplete` event (R402): the lease is IDLE and keeps its ASID until the next grant. -/
def execRampdownComplete (site cluster : Nat) (s : State) : Result :=
  let l := (s.die site).leaseOf cluster
  if l.st = .rampdown ∧ (List.range 64).all (fun i => decide (1 ≤ (s.core site (64 * cluster + i)).div)) ∧
      (List.range 4).all (fun i => s.vcode site (4 * cluster + i) == s.rowTarget site (4 * cluster + i)) then
    .next ((s.setLease site cluster { l with st := .idle }).bill site l.asid.toNat)
  else .next s

/-- A write of LEASECFG (R395): ignored in whole when it breaks EXIT < ADMIT ≤ ENTER ≤ 1,000; KILL ends the leases. -/
def State.leasecfg (s : State) (site : Nat) (v : W64) : State :=
  if bits v 21 10 < bits v 1 10 ∧ bits v 1 10 ≤ bits v 11 10 ∧ bits v 11 10 ≤ 1000 then
    let s := s.setSreg site 0x5008 (v &&& ones 0 31)
    if bit v 31 then s.endLeases site 4 else s
  else s

/-- `leasecfgKill` event (R402). -/
def execLeasecfgKill (site : Nat) (v : W64) (s : State) : Result :=
  .next (s.leasecfg site v)

/-! ### Melt and throttle (R394, R406, R407) -/

/-- `meltEstimate` event (R394). -/
def execMeltEstimate (site frac : Nat) (s : State) : Result :=
  let cfg := s.sreg site 0x5008
  let frac := min 1000 frac
  let was := s.refreeze site
  let now := if was then !decide (frac < bits cfg 21 10) else decide (bits cfg 11 10 < frac)
  let s := s.setSreg site 0x5000 (BitVec.ofNat 64 (frac + if now then 1024 else 0))
  .next (if now && !was then s.endLeases site 2 else s)

/-- Contexts of a die with PWRREQ.TN take a throttle notice (R407). -/
def State.throttleNotice (s : State) (site : Nat) (v : Nat) : State :=
  (s.liveCtxs.filter fun r => r.site = site ∧ bit (s.ctx r).pwrreq 8).foldl
    (fun s r => s.pendCause r 0x22 (BitVec.ofNat 64 v)) s

/-- A junction sensor at `temp` °C raises its alarm: it has reached TJMAX (R395). -/
def State.junction (s : State) (site temp : Nat) : Bool := decide (bits (s.sreg site 0x5010) 1 7 ≤ temp)

/-- Alarms in force, as SRC shows them: junction, current and external as given, the coolant alarm and FORCE as they stand
(R395, R406). -/
def State.alarms (s : State) (site : Nat) (junction current ext : Bool) : Nat :=
  (if junction then 1 else 0) + (if current then 2 else 0) + (if s.coolant then 4 else 0) + (if ext then 8 else 0) +
    (if bit (s.sreg site 0x5010) 0 then 16 else 0)

/-- The alarms of a site now: the first starts the throttle and ends the site's leases, and while the throttle is in force
SRC follows them. -/
def State.alarmed (s : State) (site : Nat) (junction current ext : Bool) : State :=
  let a := s.alarms site junction current ext
  let old := s.sreg site 0x5018
  if bit old 0 then s.setSreg site 0x5018 (putBits old 1 5 a)
  else if a = 0 then s
  else
    let s := s.setSreg site 0x5018 (BitVec.ofNat 64 (1 + a * 2 + (bits old 16 16 + 1) % 65536 * 65536))
    (s.endLeases site 3).throttleNotice site (2 + a * 16)

/-- `throttleStart` event (R406): a site's hottest junction sensor, its regulators' overcurrent alarm and the module's external
input as they are now. The external input acts at every site; their other alarms stand as their SRC holds them. -/
def execThrottleStart (site : Nat) (sense : SiteSense) (s : State) : Result :=
  .next (((List.range s.nSites).filter (· != site)).foldl
    (fun s d => s.alarmed d (bit (s.sreg d 0x5018) 1) (bit (s.sreg d 0x5018) 2) sense.ext)
    (s.alarmed site (s.junction site sense.temp) sense.current sense.ext))

/-- `throttleEnd` event (R406): every alarm has been clear for THOLD. -/
def execThrottleEnd (site : Nat) (s : State) : Result :=
  let old := s.sreg site 0x5018
  if bit old 0 ∧ s.alarms site (bit old 1) (bit old 2) (bit old 4) = 0 then
    .next ((s.setSreg site 0x5018 (putBits old 0 6 0)).throttleNotice site 3)
  else .next s

/-! ### Row withholding (R396) -/

/-- A site's power budget in W. -/
def State.budget (s : State) (site : Nat) : Nat :=
  let b := s.sreg site 0x5020
  bits b 0 12 + bits b 12 8 * ((List.range 4).filter fun cl => ((s.die site).leaseOf cl).live).length

/-- The hottest row that is not yet withheld, by the sensors' last readings; among equals the row of the latest reading, then
the lowest (log entry 85). -/
def State.hottest (s : State) (site row : Nat) : Option Nat :=
  let open_ := (row :: List.range 16).filter fun r => !bit (s.sreg site 0x3400) r
  let temp := fun r => Table.get 0 (s.die site).rowTemp r
  open_.find? fun r => open_.all fun x => decide (temp x ≤ temp r)

/-- `rowWithhold` event (R396): row `row`'s hottest sensor reads `temp` °C, and the site has used `power` W over 100 µs. A row
at TWH is withheld; while the site is over its budget, the hottest row too. -/
def execRowWithhold (site row temp power : Nat) (s : State) : Result :=
  let s := s.modDie site fun d => { d with rowTemp := Table.set 0 d.rowTemp row temp }
  let twh := bits (s.sreg site 0x5020) 20 7
  let put := fun (s : State) (r v : Nat) => s.setSreg site 0x3400 (putBits (s.sreg site 0x3400) r 1 v)
  let hot := if twh ≤ temp then put s row 1 else s
  if s.budget site < power then
    .next (match hot.hottest site row with
      | some r => put hot r 1
      | none => hot)
  else if temp + 5 ≤ twh ∧ 10 * power < 9 * s.budget site then .next (put s row 0)
  else .next hot

/-! ### Energy and gating (R410 to R412) -/

/-- `energyFlush` event (R410): the hub's accounts are added to the table. -/
def execEnergyFlush (site : Nat) (s : State) : Result :=
  let e := s.sreg site 0x5038
  if !bit e 0 then .next s
  else
    let base := bits e 12 40 * 4096
    let l := (s.hub (s.phys site)).energy.filter fun x => s.hasTarget (base + 8 * x.1)
    match s.claimLines none ((l.map fun x => s.lineOf (base + 8 * x.1)).eraseDups) with
    | (s, false) => .next s
    | (s, true) =>
    let s := l.foldl (fun s x => s.homeDword 0 (base + 8 * x.1) (s.dword (base + 8 * x.1) + BitVec.ofNat 64 x.2)) s
    .next (s.modHub (s.phys site) fun h => { h with energy := [] })

/-- The die has no work (R411). -/
def State.dieIdle (s : State) (site : Nat) : Bool :=
  !(s.liveCtxs.any fun r => r.site == site) &&
    (s.cores.all fun e => e.1 / 256 != site ||
      (e.2.mxq.isEmpty && e.2.obuf.isEmpty && e.2.cp.isNone && e.2.chunks.isEmpty && e.2.jobs.isEmpty && e.2.rq.isEmpty && e.2.stw.isEmpty &&
        e.2.regions.all fun x => !x.2.used)) &&
    (s.octets.all fun e => e.1 / 32 != site || e.2.sfuq.isEmpty) &&
    !(s.reqs.any fun q => (3 = paRegion q.pa || 4 = paRegion q.pa) && q.home == site)

/-- A gated die leaves the gate. -/
def State.ungateDie (s : State) (site : Nat) : State :=
  if (s.die site).gated then s.modDie site fun d => { d with gated := false } else s

/-- What a core keeps through the gate: its registers on the island and CYCLE. -/
def Core.gate (k : Core) : Core :=
  { Core.reset with
    last := k.last, regions := k.regions, cycle := k.cycle, div := k.div, divWant := k.divWant, stall := k.stall,
    retired := k.retired, owed := k.owed, ht := k.ht, htMsg := k.htMsg, msgSent := k.msgSent, msgRecv := k.msgRecv }

/-- `dieGate` event (R411). -/
def execDieGate (site : Nat) (s : State) : Result :=
  if !bit (s.sreg site 0x5030) 0 ∨ (s.die site).gated ∨ !s.dieIdle site then .next s
  else
    let s := (s.rdcEvict site fun _ => true).noInstall site fun _ => true
    let s := { s with cores := Table.mapVals (fun k (c : Core) => if k / 256 = site then c.gate else c) s.cores }
    let s := s.zero (mkPa 3 site 0) 134217728
    .next (s.modDie site fun d => { d with gated := true, tlb := [], bind := [], pred := [], farRun := [] })

/-- `dieWake` event (R412): for a task record of its bridle or an access to its regions 0x3 and 0x4. -/
def execDieWake (site : Nat) (s : State) : Result :=
  if (s.hub (s.phys site)).tasks ≠ [] ∨
      s.reqs.any (fun q => (3 = paRegion q.pa || 4 = paRegion q.pa) && q.home == site) then
    .next (s.ungateDie site)
  else .next s

end Sys2Proof.Machine
end

