-- ==== Sys2Proof/Machine/System.lean ====
section
/-! DEFINITION. System registers (R267 to R269, R296, R297, R302, R327, R373, R380 to R382, R386, R397 to R400), lease
instructions (R401 to R405), `trap`, `rft`, TLB maintenance and `icsync` (R270 to R274), and the dictionary
instructions (R213 to R216, R224 to R233). -/

namespace Sys2Proof.Machine

/-! ### What the registers show -/

/-- PWRSTAT (R400). -/
def State.pwrstat (s : State) (r : CtxRef) : W64 :=
  let k := s.core r.site r.core
  BitVec.ofNat 64 (k.div % 8 + (if s.throttled r.site then 8 else 0) + s.vcode r.site (r.core / 16) * 16 +
    (s.ctx r).reqst.toNat * 1024 + k.stall % 256 * 8192)

/-- LEASESTAT (R400); the whole ms left depend on time and are a free value up to the duration (log entry 6). -/
def State.leasestat (s : State) (site cl : Nat) : W64 :=
  let l := (s.die site).leaseOf cl
  BitVec.ofNat 64 (l.st.code + (if s.refreeze site then 4 else 0) + (if s.throttled site then 8 else 0) +
    s.meltFrac site * 16 + (if l.live then s.choose (l.ms % 8192 + 1) else 0) * 65536 + l.asid.toNat * 4294967296)

/-- LANEPOOL (R302). -/
def State.lanepool (s : State) (site oct : Nat) : W64 :=
  let free := s.freeBlocks site oct
  let rsv := (s.octet site oct).rsv.map (·.1)
  BitVec.ofNat 64 (packBits ((List.range 8).map free.contains) + 256 * packBits ((List.range 8).map rsv.contains) +
    65536 * ((s.octCtxs site oct).filter fun x => x.2.unmet).length)

/-- SFUSTAT (R327). -/
def State.sfustat (s : State) (r : CtxRef) : W64 :=
  let q := (s.octet r.site (octetOf r.core)).sfuq
  BitVec.ofNat 64 ((if (s.ctx r).sfuBusy then 1 else 0) + 2 * (q.filter fun x => x.who = r).length + 64 * q.length)

/-- GIRTHSTAT (R296). -/
def State.girthstat (s : State) (r : CtxRef) : W64 :=
  let d := s.die r.site
  BitVec.ofNat 64 (d.girthPhase.toNat + 256 * packBits ((List.range 8).map fun g => d.garrived g r.core) +
    65536 * (s.ctx r).girthSel.toNat)

/-! ### The map (R268) -/

/-- Whether a register may be read or written in a mode: 0x02 for a number that is not assigned, 0x09 for an access that
the map does not allow. -/
def srAllowed (n : Nat) (sys write : Bool) : Option Nat :=
  let both : Option Nat := none
  let sysOnly : Option Nat := if sys then none else some 0x09
  let ro : Option Nat := if write then some 0x09 else none
  let sysW : Option Nat := if write && !sys then some 0x09 else none
  if n = 0x000 ∨ n = 0x001 ∨ n = 0x010 ∨ n = 0x011 ∨ n = 0x0D1 ∨ n = 0x101 ∨ n = 0x102 ∨ n = 0x103 ∨ n = 0x1C0 ∨
      n = 0x1C1 ∨ n = 0x1C8 then ro
  else if n = 0x002 then (if write then sysOnly else none)
  else if (0x020 ≤ n ∧ n ≤ 0x024) ∨ n = 0x028 ∨ n = 0x029 then sysOnly
  else if (0x0C1 ≤ n ∧ n ≤ 0x0C5) ∨ n = 0x0D0 ∨ n = 0x100 ∨ n = 0x140 ∨ n = 0x1B0 ∨ n = 0x1C2 then both
  else if n = 0x104 ∨ n = 0x142 then sysW
  else if n = 0x141 ∨ n = 0x161 then both
  else if (0x150 ≤ n ∧ n ≤ 0x155) ∨ n = 0x160 then sysOnly
  else if (0x180 ≤ n ∧ n ≤ 0x1AF) ∨ (0x1B4 ≤ n ∧ n ≤ 0x1B7) then sysW
  else some 0x02

/-- Value of a register as its context reads it. -/
def State.srGet (s : State) (r : CtxRef) (n : Nat) : W64 :=
  let c := s.ctx r
  let d := s.die r.site
  if 0x0C1 ≤ n ∧ n ≤ 0x0C5 then c.wscale.toList.getD (n - 0x0C1) 0
  else if 0x180 ≤ n ∧ n < 0x1A0 then d.gmask ((n - 0x180) / 4) (n % 4)
  else if 0x1A0 ≤ n ∧ n < 0x1A8 then d.girthTo.toList.getD (n - 0x1A0) 0
  else if 0x1A8 ≤ n ∧ n < 0x1B0 then d.girthSpan.toList.getD (n - 0x1A8) 0
  else if 0x1B4 ≤ n ∧ n < 0x1B8 then d.garr c.girthSel.toNat (n - 0x1B4)
  else
    match n with
    | 0x000 => s.ctxstat r .running
    | 0x001 => s.coreName r.site r.core
    | 0x002 => c.asid.setWidth 64
    | 0x010 => (s.core r.site r.core).cycle
    | 0x011 => c.issued
    | 0x020 => c.tcause
    | 0x021 => c.tval
    | 0x022 => c.trappc
    | 0x023 => c.tstat
    | 0x024 => c.tvec
    | 0x028 => c.tscratch0
    | 0x029 => c.tscratch1
    | 0x0D0 => c.dictctl
    | 0x0D1 => c.dictbase
    | 0x100 => c.pwrreq
    | 0x101 => s.pwrstat r
    | 0x102 => s.leasestat r.site (clusterOf r.core)
    | 0x103 => c.energy
    | 0x104 => d.stallcfg
    | 0x140 => if c.npsec then 1 else 0
    | 0x141 => c.npcount.setWidth 64
    | 0x1B0 => s.girthstat r
    | 0x1C0 => s.lanepool r.site (octetOf r.core)
    | 0x1C1 => BitVec.ofNat 64 (packBits ((List.range 8).map c.held.contains))
    | 0x1C2 => c.lanepat
    | 0x1C8 => s.sfustat r
    | _ => s.dieHostReg r.site n

/-! ### Writes -/

/-- Held fatal records are written while an entry is free (R381). -/
def State.tqDrain (s : State) (site : Nat) : List TrapRec → State
  | [] => s
  | t :: l =>
    if (s.die site).tqUse < 64 then
      State.tqDrain ((s.tqPut site t true).modDie site fun d => { d with tqheld := l }) site l
    else s

/-- A write of TQCONS (R381). -/
def State.setTqcons (s : State) (site : Nat) (v : W64) : State :=
  let s := s.modDie site fun d => { d with tqcons := v.setWidth 32 }
  s.tqDrain site (s.die site).tqheld

/-- A write of a die register of the range 0x140 to 0x17F (R380 to R382, R386). -/
def State.dieRegWrite (s : State) (site n : Nat) (v : W64) : State :=
  match n with
  | 0x142 => s.modDie site fun d => { d with nplim := maskWrite d.nplim v (ones 0 32) }
  | 0x150 => s.modDie site fun d => { d with tqbase := maskWrite d.tqbase v (ones 11 41) }
  | 0x151 => s.modDie site fun d => { d with tqctl := maskWrite d.tqctl v (0x7#64 ||| ones 8 9) }
  | 0x153 => s.setTqcons site v
  | 0x154 => s.modDie site fun d => { d with tqdrop := v.setWidth 32 }
  | 0x160 => s.modDie site fun d => { d with stctl := maskWrite d.stctl v (0x1#64 ||| ones 8 24) }
  | _ => s

/-- REQST of a PWRREQ write (R399). -/
def reqstOf (v : W64) : Nat :=
  let cap := bits v 0 3
  let n : Int := needCode (max 1 cap)
  let voff : Int := (BitVec.ofNat 5 (bits v 3 5)).toInt
  if 3 < cap ∨ bits v 9 55 ≠ 0 then 4
  else if n + voff < 0 then 1
  else if 50 < n + voff then 2
  else 0

/-- A write of GIRTHSPAN, or of GIRTHPEER: only while the group has no arrivals on the die (R297, R432). -/
def Die.gidle (d : Die) (g : Nat) : Bool := (List.range 4).all fun w => d.garr g w == 0

/-- The register takes a new value; fields that are RO keep theirs (R6, R267). -/
def State.srPut (s : State) (r : CtxRef) (n : Nat) (v : W64) : State :=
  let vecSet (l : Vector W64 8) (i : Nat) (x : W64) : Vector W64 8 :=
    Vector.ofFn fun j : Fin 8 => if j.val = i then x else l[j]
  let mc (f : Ctx → Ctx) : State := s.modCtx r f
  if 0x0C1 ≤ n ∧ n ≤ 0x0C5 then
    mc fun c => { c with wscale := Vector.ofFn fun j : Fin 5 => if j.val = n - 0x0C1 then v &&& ones 0 46 else c.wscale[j] }
  else if 0x180 ≤ n ∧ n < 0x1A0 then s.girthSetMask r.site ((n - 0x180) / 4) (n % 4) v
  else if 0x1A0 ≤ n ∧ n < 0x1A8 then
    s.modDie r.site fun d => { d with girthTo := vecSet d.girthTo (n - 0x1A0) (v &&& ones 0 32) }
  else if 0x1A8 ≤ n ∧ n < 0x1B0 then
    if (s.die r.site).gidle (n - 0x1A8) then
      s.modDie r.site fun d => { d with girthSpan := vecSet d.girthSpan (n - 0x1A8) v }
    else s
  else
    match n with
    | 0x002 => mc fun c => { c with asid := v.setWidth 16, walkFault := none }
    | 0x020 => mc fun c => { c with tcause := v &&& ones 0 7 }
    | 0x021 => mc fun c => { c with tval := v }
    | 0x022 => mc fun c => { c with trappc := v &&& (ones 0 2 ||| ones 3 61) }
    | 0x023 => mc fun c => { c with tstat := v &&& ones 0 3 }
    | 0x024 => mc fun c => { c with tvec := v &&& ones 3 61 }
    | 0x028 => mc fun c => { c with tscratch0 := v }
    | 0x029 => mc fun c => { c with tscratch1 := v }
    | 0x0D0 => mc fun c => { c with dactive := BitVec.ofNat 2 (bits v 0 2) }
    | 0x100 =>
      let q := reqstOf v
      (mc fun c => { c with reqst := BitVec.ofNat 3 q, pwrreq := if q = 0 then v else c.pwrreq }).settleRow r.site (r.core / 16)
    | 0x104 =>
      if bits v 0 8 ≤ bits v 8 8 then s else s.modDie r.site fun d => { d with stallcfg := v &&& ones 0 17 }
    | 0x140 => mc fun c => { c with npsec := bit v 0, npcount := if bit v 0 then c.npcount else 0 }
    | 0x1B0 => mc fun c => { c with girthSel := BitVec.ofNat 3 (bits v 16 3) }
    | 0x1C2 => mc fun c => { c with lanepat := v &&& ones 0 34 }
    | _ => s.dieRegWrite r.site n v

/-- A register access behind the map's check. An access that the mode forbids has no address, and gives TVAL 0 (log entry 32). -/
def State.srCheck (s : State) (n : Nat) (write : Bool) (f : State) : Result :=
  match srAllowed n s.c.sys write with
  | some 0x02 => .next s.illegal
  | some code => .next (s.trap code 0)
  | none => .next f

/-- `srd` (R267). -/
def execSrd (d : BitVec 5) (n : BitVec 12) (s : State) : Result :=
  s.srCheck n.toNat false (s.gw d (s.srGet s.cur n.toNat))

/-- `swr` (R267). -/
def execSwr (a : BitVec 5) (n : BitVec 12) (s : State) : Result :=
  s.srCheck n.toNat true (s.srPut s.cur n.toNat (s.g a))

/-- `srset` (R267): the old value in gd, then its OR with ga. -/
def execSrset (d a : BitVec 5) (n : BitVec 12) (s : State) : Result :=
  let old := s.srGet s.cur n.toNat
  s.srCheck n.toNat true ((s.srPut s.cur n.toNat (old ||| s.g a)).gw d old)

/-- `srclr` (R267): the old value in gd, then its AND with the complement of ga. -/
def execSrclr (d a : BitVec 5) (n : BitVec 12) (s : State) : Result :=
  let old := s.srGet s.cur n.toNat
  s.srCheck n.toNat true ((s.srPut s.cur n.toNat (old &&& ~~~(s.g a))).gw d old)

/-- `tqconsWrite` event (R381). -/
def execTqconsWrite (site : Nat) (v : W64) (s : State) : Result :=
  .next (s.setTqcons site v)

/-! ### Leases (R401 to R405) -/

/-- Status of `lease` (R404). -/
def State.leaseStatus (s : State) (site cl : Nat) (v : W64) : Nat :=
  let cfg := s.sreg site 0x5008
  if !bit cfg 0 then 6
  else if bits v 13 51 ≠ 0 ∨ bits v 0 13 = 0 ∨ 5000 < bits v 0 13 then 4
  else if s.throttled site then 5
  else if s.refreeze site then 2
  else if bits cfg 1 10 ≤ s.meltFrac site then 1
  else if ((s.die site).leaseOf cl).st ≠ .idle then 3
  else 0

/-- `lease` (R404). -/
def execLease (d a : BitVec 5) (s : State) : Result :=
  let cl := clusterOf s.cur.core
  let v := s.g a
  let q := s.leaseStatus s.cur.site cl v
  let s := if q = 0 then s.setLease s.cur.site cl ⟨.rampup, s.c.asid, bits v 0 13⟩ else s
  .next (s.gw d (BitVec.ofNat 64 q))

/-- `leaseq` (R403). -/
def execLeaseq (d : BitVec 5) (s : State) : Result :=
  .next (s.gw d (s.leasestat s.cur.site (clusterOf s.cur.core)))

/-- `leaseend` (R405). -/
def execLeaseend (d : BitVec 5) (s : State) : Result :=
  let cl := clusterOf s.cur.core
  let l := (s.die s.cur.site).leaseOf cl
  if !l.live then .next (s.gw d 1)
  else if l.asid ≠ s.c.asid then .next (s.gw d 2)
  else .next ((s.endLease s.cur.site cl 1 (some s.cur)).gw d 0)

/-! ### Traps and maintenance (R270 to R274) -/

/-- Where a context resumes after the `trap` in issue: at the next slot of a dictionary bundle, be it the B-class slot of the
same unit, else at the next bundle (R270). -/
def State.afterTrap (s : State) : W64 × BitVec 2 :=
  let behind : Option (BitVec 2) := match s.issue.dict with
    | some (_, sla, _, slb, _) => if slb = sla + 1 then some (BitVec.ofNat 2 slb) else s.issue.nextSlot
    | none => s.issue.nextSlot
  match behind with
  | some k => (s.c.pc, k)
  | none => (s.c.pc + 8, 0)

/-- `trap` (R270): cause 0x05, resuming after it. -/
def execTrap (n : BitVec 10) (s : State) : Result :=
  let (a, slot) := s.afterTrap
  let s' := s.takeTrap s.cur false false 0x05 (n.setWidth 64) a slot
  .next (if (s'.ctx s.cur).st = .free then s'.flow .ended else s'.flow .trapped)

/-- `rft` (R271): system mode only. -/
def execRft (s : State) : Result :=
  if s.c.sys then .next s.returnTrap else .next (s.trap 0x09 0)

/-- Entries dropped from every core TLB, die TLB and hub page-walk cache (R272). -/
def State.tlbDrop (s : State) (f : TlbEntry → Bool) (p : WalkPtr → Bool) : State :=
  { s with
    cores := Table.mapVals (fun _ (c : Core) => { c with tlb := c.tlb.filter fun e => !f e }) s.cores
    dies := Table.mapVals (fun _ (d : Die) => { d with tlb := d.tlb.filter fun e => !f e }) s.dies
    hubs := Table.mapVals (fun _ (h : Hub) => { h with pwc := h.pwc.filter fun x => !p x }) s.hubs }

/-- A `tlbinv` (R272): entries dropped, then the bundle stalls until the accesses translated before are performed. -/
def State.tlbinv (s : State) (f : TlbEntry → Bool) (p : WalkPtr → Bool) (g : Req → Bool) : Result :=
  if !s.c.sys then .next (s.trap 0x09 0)
  else
    let s := s.tlbDrop f p
    let open_ := s.reqs.any fun q =>
      g q && q.stage != .done && (match q.kind with | .writeback _ _ => false | _ => true)
    .next (if open_ then s.flow .stall else s)

/-- `tlbinvVa`. An entry that covers the page covers at most the aligned 1 GiB around it: every access there is waited
for. -/
def execTlbinvVa (a b : BitVec 5) (s : State) : Result :=
  let page := pageOf (s.g a)
  let asid : BitVec 16 := (s.g b).setWidth 16
  s.tlbinv (fun e => (leafG e.leaf || e.asid == asid) && decide (e.vbase / 4096 ≤ page) &&
      decide (page < (e.vbase + e.size) / 4096))
    (fun p => p.asid == asid && p.tag == walkTag (s.g a).toNat p.lvl)
    fun q => pageOf q.va / 262144 == page / 262144

/-- `tlbinvAsid` (R272, R273): the ASID's bindings go too. -/
def execTlbinvAsid (a : BitVec 5) (s : State) : Result :=
  let asid : BitVec 16 := (s.g a).setWidth 16
  let s' := if !s.c.sys then s
    else (List.range s.nSites).foldl (fun s d =>
      ((s.die d).bind.filter fun b => b.asid = asid).foldl (fun s b => s.dropSlot d b.slot) s) s
  s'.tlbinv (fun e => e.asid == asid && !leafG e.leaf) (fun p => p.asid == asid) fun q => q.asid == asid

/-- `tlbinvAll`. -/
def execTlbinvAll (s : State) : Result :=
  s.tlbinv (fun _ => true) (fun _ => true) fun _ => true

/-- `icsync` (R274): waits for every earlier store of the context, also in a handler for those parked before the trap, since R131
exempts other instructions only; then empties the core's instruction cache. -/
def execIcsync (s : State) : Result :=
  let late (q : Req) : Req :=
    match q.kind with
    | .load (.fetch _) =>
      if q.who.site = s.cur.site ∧ q.who.core = s.cur.core then { q with kind := .load (.fetch true) } else q
    | _ => q
  if s.c.ocs = 0 ∧ !s.awaiting s.cur then
    .next { s.modCore s.cur.site s.cur.core (fun k => { k with ic := [] }) with reqs := s.reqs.map late }
  else .next (s.flow .stall)

/-! ### The dictionary (R213 to R216, R224 to R233) -/

/-- The checks of `dictld` on its image address (R224). -/
def State.dictldCause (s : State) (a : W64) : Option Nat :=
  let o := a.toNat % 524288
  if a.toNat < 0xFFFFFFFFFFC00000 then some 0x09
  else if bits a 19 3 ≠ 0 then some 0x0E
  else if bits a 0 6 ≠ 0 then some 0x0B
  else if s.c.sys then none
  else if 0x800 * s.cur.ctx ≤ o ∧ o + 512 ≤ 0x800 * s.cur.ctx + 0x800 then none
  else if (s.core s.cur.site s.cur.core).covers (holderOf s.cur) false o 512 then none
  else if o < 0x16000 then some 0x09
  else some 0x0A

/-- Bank `b` of a context takes 64 new entries; a slot may still expand an old one (R228). -/
def Ctx.loadBank (c : Ctx) (b : Nat) (img : List W64) : Ctx :=
  (List.range 64).foldl (fun c i =>
    let k := 64 * b + i
    let old := Table.get 0 c.dict k
    let new := img.getD i 0
    if old = new then { c with dictOld := Table.erase c.dictOld k }
    else { c with dict := Table.set 0 c.dict k new, dictOld := Table.put c.dictOld k old }) c

/-- The image at a local offset of a core; what lies past the end of local memory is a free value (log entry 33). -/
def State.dictImage (s : State) (site core o : Nat) : List W64 :=
  (List.range 64).map fun i =>
    if o + 8 * i < 524288 then s.dword (lmemPa site core (o + 8 * i)) else Config.dictPast (o + 8 * i)

/-- A store of the context in issue to bytes [o, o + 512) of its core's local memory, made through a translated page, is still on
its way (R224). -/
def State.imageStores (s : State) (o : Nat) : Bool :=
  s.reqs.any fun q => q.who == s.cur && !q.orphan && q.stage != .done && paRegion q.pa == 3 && paSite q.pa == s.cur.site &&
    q.pa / 524288 % 256 == s.cur.core &&
    (match q.kind with
      | .store bs 0 => bs.any fun b => let x := q.pa / 128 * 128 % 524288 + b.1; decide (o ≤ x) && decide (x < o + 512)
      | _ => false)

/-- `dictld` (R224): completes at once, the load proceeds in the background. It reads the image with every earlier store of the
context in it; a gated bank that holds it powers up (R68). -/
def execDictld (a : BitVec 5) (b : BitVec 2) (s : State) : Result :=
  let v := s.g a
  match s.dictldCause v with
  | some c => .next (s.trap c v)
  | none =>
    let o := v.toNat % 524288
    if s.c.dload.isSome ∨ s.imageStores o then .next (s.flow .stall)
    else
      let s := s.powerUp s.cur.site s.cur.core o 512
      let img := s.dictImage s.cur.site s.cur.core o
      .next (s.modC fun c =>
        { c.loadBank b.toNat img with
          dload := some ⟨b, o⟩
          lbank := b
          dictbase := putBits (putBits c.dictbase (13 * b.toNat) 13 (o / 64)) (52 + b.toNat) 1 1 })

/-- `dictsel` (R225). -/
def execDictsel (b : BitVec 2) (s : State) : Result :=
  .next (s.modC fun c => { c with dactive := b })

/-- `dictfence` (R226). -/
def execDictfence (s : State) : Result :=
  if s.c.dload.isSome then .next (s.flow .stall) else .next (s.modC fun c => { c with dictOld := [] })

/-- `dictrd` (R227). -/
def execDictrd (d a : BitVec 5) (b : BitVec 2) (s : State) : Result :=
  if s.c.dload.isSome then .next (s.flow .stall)
  else .next (s.gw d (Table.get 0 s.c.dict (64 * b.toNat + bits (s.g a) 0 6)))

/-- `dictionaryLoadComplete` event (R224). A load that pre-emption cut short is done again at resumption (R230). -/
def execDictionaryLoadComplete (r : CtxRef) (s : State) : Result :=
  if (s.ctx r).saved then .next s else .next (s.modCtx r fun c => { c with dload := none })

/-- A debug write of an entry (R233): only while the context is STOPPED and loads nothing; into the save area too where the
context's dictionary stands there. -/
def State.debugDict (s : State) (r : CtxRef) (bank idx : Nat) (v : W64) : State :=
  let c := s.ctx r
  if c.st = .stopped ∧ c.dload.isNone then
    let s := if c.saved then s.setDword (savePa r (0x800 + 8 * (64 * bank + idx))) v else s
    s.modCtx r fun c =>
      { c with
        dict := Table.set 0 c.dict (64 * bank + idx) v
        dictOld := Table.erase c.dictOld (64 * bank + idx) }
  else s

/-- `debugDictionaryWrite` event (R233). -/
def execDebugDictionaryWrite (r : CtxRef) (bank idx : Nat) (v : W64) (s : State) : Result :=
  .next (s.debugDict r bank idx v)

end Sys2Proof.Machine
end

