-- ==== Sys2Proof/Machine/Sched.lean ====
section
/-! DEFINITION. Work from launch to issue and back: launch records, host queues, dealing, placement and dispatch (R172 to
R174, R354 to R369), `larm`, `halt`, `yield`, gangs and the halt sequence (R179, R180, R184 to R186, R198, R263 to
R266). -/

namespace Sys2Proof.Machine

/-! ### Launch records (R354, R355) -/

/-- Number of records. -/
def State.recCount (s : State) : Nat := bits (s.sreg 0 0x3208) 0 17

/-- Doubleword `i` of a record, as it stands in memory. -/
def State.recDw (s : State) (rec i : Nat) : W64 := s.dword (s.recPa rec + 8 * i)

/-- The homes of some records make their lines ready for the bridle; false where the host holds one (R99, R139). -/
def State.recsReady (s : State) (recs : List Nat) : State × Bool :=
  s.claimLines none (recs.flatMap fun r => [s.lineOf (s.recPa r), s.lineOf (s.recPa r + 128)])

/-- Bytes within one line as a bridle reads them: the home's, with those of its die's write-backs that are still on their way
and the dirty ones of the die's copy. -/
def State.dieBytes (s : State) (site pa n : Nat) : List Byte :=
  let line := s.lineOf pa
  let late := s.reqs.flatMap fun q => (s.lateBack site line q).getD []
  let own := match s.rdcFind site line with
    | some l => (List.range 128).filterMap fun i => if l.dirty.getD i false then some (i, l.data.getD i 0) else none
    | none => []
  ((patch (s.targetLine pa) (late ++ own)).drop (pa % 128)).take n

/-- A hub writes a doubleword of memory: at once, or as a request that waits at the home while the host holds the line. -/
def State.hubDword (s : State) (pa : Nat) (v : W64) : State :=
  let line := s.lineOf pa
  let home := paSite (s.plain pa)
  if s.hostHolds line then
    s.sendBack home ⟨line, home, [], [], [], none⟩ 0 (runAt (pa % 128) (toBytes 8 v.toNat))
  else (s.recallLine line none).homeDword 0 pa v

/-- A doubleword of memory that a hub has written or is about to. -/
def State.hubDw (s : State) (pa : Nat) : W64 := BitVec.ofNat 64 (ofBytes (s.dieBytes (paSite (s.plain pa)) pa 8))

/-- The bridle writes a doubleword of a record. -/
def State.setRecDw (s : State) (rec i : Nat) (v : W64) : State := s.homeDword 0 (s.recPa rec + 8 * i) v

/-- The bridle writes a field of a record. -/
def State.setRecField (s : State) (rec i lo n x : Nat) : State := s.setRecDw rec i (putBits (s.recDw rec i) lo n x)

/-- Field of a launch's record as read at arming. -/
def Launch.dw (l : Launch) (i : Nat) : W64 := l.data.getD i 0

/-- Fields of a launch. -/
def Launch.asid (l : Launch) : BitVec 16 := BitVec.ofNat 16 (bits (l.dw 0) 32 16)
def Launch.prio (l : Launch) : Nat := bits (l.dw 0) 4 3
def Launch.gangpl (l : Launch) : Bool := bit (l.dw 0) 7
def Launch.nstm1 (l : Launch) : Nat := bits (l.dw 0) 8 4
def Launch.prodmask (l : Launch) : Nat := bits (l.dw 0) 16 16
def Launch.lseq (l : Launch) : Nat := bits (l.dw 1) 0 32
def Launch.bcnt (l : Launch) : Nat := bits (l.dw 18) 0 8
def Launch.tdx (l : Launch) : Nat := bits (l.dw 19) 0 7
def Launch.tdy (l : Launch) : Nat := bits (l.dw 19) 7 7
def Launch.tdz (l : Launch) : Nat := bits (l.dw 19) 14 7
def Launch.gx (l : Launch) : Nat := bits (l.dw 19) 21 14
def Launch.gy (l : Launch) : Nat := bits (l.dw 19) 35 14
def Launch.gz (l : Launch) : Nat := bits (l.dw 19) 49 14

/-- Tiles per block. -/
def Launch.tiles (l : Launch) : Nat := l.tdx * l.tdy * l.tdz

/-- Blocks of the grid. -/
def Launch.blocks (l : Launch) : Nat := l.gx * l.gy * l.gz

/-- A footprint entry (R356): kind, acquire scope, base and length in 64-byte units, source. -/
structure Footprint where
  kind : Nat
  scope : Nat
  base : Nat
  len : Nat
  src : W64
deriving DecidableEq, Repr

/-- Footprint entry `f` of a launch. -/
def Launch.fp (l : Launch) (f : Nat) : Footprint :=
  let v := l.dw (6 + f)
  ⟨bits v 0 3, bits v 3 3, bits v 6 13, bits v 19 13 + 1, l.dw (21 + f)⟩

/-- The entries in use. -/
def Launch.fps (l : Launch) : List Footprint := ((List.range 4).map l.fp).filter fun f => f.kind != 0

/-- The dies that a launch may run on: those of DIES in service for compute, ascending (R359). -/
def State.launchDies (s : State) (l : Launch) : List Nat :=
  (List.range s.nSites).filter fun d => s.computeSite d && (l.dw 20 == 0 || bit (l.dw 20) d)

/-- No two entries overlap. -/
def apart : List Footprint → Bool
  | [] => true
  | f :: l => (l.all fun g => !unitsMeet f.base f.len g.base g.len) && apart l

/-- The footprint entries obey R356. -/
def Launch.fpsOk (l : Launch) : Bool :=
  ((List.range 4).all fun i => bits (l.dw (6 + i)) 32 32 = 0) &&
    (l.fps.all fun f => decide (f.kind ≤ 4) && inTask f.base f.len &&
      ((f.kind != 1 && (f.kind != 4 || f.src == 0)) || (scopeOf f.scope).isSome)) && apart l.fps

/-- Successor `i` of a launch; none for 0xFFFF. -/
def Launch.succ (l : Launch) (i : Nat) : Option Nat :=
  let x := bits (l.dw 4) (16 * i) 16
  if x = 0xFFFF then none else some x

/-- The successors. -/
def Launch.succs (l : Launch) : List Nat := (List.range 4).filterMap l.succ

/-- The successors that a record names in memory. -/
def State.recSuccs (s : State) (rec : Nat) : List Nat :=
  (List.range 4).filterMap fun i =>
    let x := bits (s.recDw rec 4) (16 * i) 16
    if x = 0xFFFF then none else some x

/-- A record and its successors are ready at their homes. -/
def State.armReady (s : State) (rec : Nat) : State × Bool :=
  match s.recsReady [rec] with
  | (s, true) => s.recsReady (s.recSuccs rec)
  | (s, false) => (s, false)

/-- Reserved bits of a record are 0 (R355). -/
def Launch.reservedOk (l : Launch) : Bool :=
  bits (l.dw 0) 12 4 = 0 && bits (l.dw 0) 48 16 = 0 && bits (l.dw 1) 42 22 = 0 && bits (l.dw 3) 32 32 = 0 &&
    ((List.range 6).all fun i => l.dw (10 + i) == 0) && bits (l.dw 18) 8 56 = 0 && !bit (l.dw 19) 63 &&
    ((List.range 7).all fun i => l.dw (25 + i) == 0)

/-- A record is valid (R358). -/
def State.recValid (s : State) (l : Launch) : Bool :=
  let dim (hi x : Nat) : Bool := decide (1 ≤ x) && decide (x ≤ hi)
  bit (l.dw 0) 2 && l.reservedOk && dim 64 l.tdx && dim 64 l.tdy && dim 64 l.tdz && decide (l.tiles ≤ 64) &&
    dim 16383 l.gx && dim 16383 l.gy && dim 16383 l.gz && decide (l.bcnt ≤ 248) && !(s.launchDies l).isEmpty &&
    l.fpsOk && (!l.gangpl || l.tiles % 4 == 0) &&
    (l.succs.all fun x => decide (x < s.recCount) && x != l.lrec && bit (s.recDw x 0) 2 &&
      bits (s.recDw x 0) 32 16 == l.asid.toNat)

/-! ### Arming, starting and completing (R357) -/

/-- An access to a die's local memory or registers takes the die out of the gate (R412). -/
def State.ungatePa (s : State) (pa : Nat) : State :=
  if 3 = paRegion pa ∨ 4 = paRegion pa then s.ungateDie (paSite pa) else s

/-- A translation by the bridle: the physical address, or where there is none, whether the read failed (true) or has to wait
for a line of the tables that the host holds (R366). -/
def State.bridleXlate (s : State) (site : Nat) (asid : BitVec 16) (va : Nat) : State × Except Bool Nat :=
  let v : W64 := BitVec.ofNat 64 va
  if !canonical v ∨ bit v 55 then (s, .error true)
  else
    match s.walkSet site asid va false with
    | (s, .wait) => (s, .error false)
    | (s, .cause _) => (s, .error true)
    | (s, .entry e) =>
      let pa := e.pa va
      let memory := paRegion pa ≠ 4 ∧ paRegion pa ≠ 5
      if !s.hasTarget pa || (memory && s.poison.contains (s.lineOf pa)) then (s, .error true)
      else if memory then
        match s.claimLine (s.lineOf pa) none with
        | (s, true) => ((s.ungatePa pa).powerPa pa 1, .ok pa)
        | (s, false) => (s, .error false)
      else (s.ungatePa pa, .ok pa)

/-- The bridle's read of bytes at a virtual address in an ASID, line by line (R366): the bytes, the address that could not
be translated or read, or nothing yet. -/
def State.bridleRead (s : State) (site : Nat) (asid : BitVec 16) :
    Nat → Nat → Nat → State × Except (Option W64) (List Byte)
  | 0, _, _ => (s, .ok [])
  | fuel + 1, va, n =>
    if n = 0 then (s, .ok [])
    else
      let k := min n (128 - va % 128)
      match s.bridleXlate site asid va with
      | (s, .error true) => (s, .error (some (BitVec.ofNat 64 va)))
      | (s, .error false) => (s, .error none)
      | (s, .ok pa) =>
        match State.bridleRead s site asid fuel ((va + k) % 2 ^ 64) (n - k) with
        | (s, .ok bs) => (s, .ok (s.dieBytes site pa k ++ bs))
        | r => r

/-- The words of the broadcast block, read at their homes; the first failing address, or nothing yet (R357). -/
def State.bcastRead (s : State) (site : Nat) (asid : BitVec 16) : Nat → W64 → State × Except (Option W64) (List W64)
  | 0, _ => (s, .ok [])
  | n + 1, va =>
    match s.bridleXlate site asid va.toNat with
    | (s, .error true) => (s, .error (some va))
    | (s, .error false) => (s, .error none)
    | (s, .ok pa) =>
      match State.bcastRead s site asid n (va + 8) with
      | (s', .ok ws) => (s', .ok (BitVec.ofNat 64 (ofBytes ((s.targetRead pa 8).getD [])) :: ws))
      | r => r

/-- The logical site whose bridle owns a record: the home of its seal line (R354). -/
def State.recSite (s : State) (rec : Nat) : Nat := paSite (s.plain (s.recPa rec))

/-- A launch goes in flight; the order of starts is the order of the list. -/
def State.takeOff (s : State) (l : Launch) : State :=
  let s := s.setRecField l.lrec 0 0 2 2
  { s with launches := (s.launches.filter fun (x : Launch) => x.lser != l.lser) ++ [{ l with inflight := true }] }

/-- `start` (R357). A cancelled record's RETAINED regions go, also those that came since it was cancelled (R77). A broadcast block of which the host holds a line is read once the home has that line back: the launch
stays armed until then, and `blockDeal` starts it. -/
def State.startLaunch (s : State) (ser : Nat) : State :=
  match s.launch ser with
  | none => s
  | some l =>
    if bit (s.recDw l.lrec 1) 41 then (((s.takeOff l).setRecField l.lrec 1 41 1 0).freeRetained l.lrec).failLaunch ser 5
    else
      match s.bcastRead (s.recSite l.lrec) l.asid l.bcnt (putBits (l.dw 17) 0 3 0) with
      | (s, .ok ws) => (s.takeOff l).modLaunch ser fun x => { x with bcast := ws }
      | (s, .error (some va)) => ((s.takeOff l).setRecDw l.lrec 5 va).failLaunch ser 3
      | (s, .error none) => s

/-- `arm` (R357), for a host queue or for `larm`. -/
def State.armRecord (s : State) (rec : Nat) (queue : Option (Nat × Nat)) : State :=
  let data := (List.range 32).map (s.recDw rec)
  let dw1 := putBits (putBits (data.getD 1 0) 0 32 (bits (data.getD 1 0) 0 32 + 1)) 32 9 0
  let l : Launch :=
    { lrec := rec, lser := s.nextLser, data := data.set 1 dw1, bcast := [], inflight := false, nextBlock := 0,
      running := 0, code := 0, queue := queue }
  let s := ((s.setRecDw rec 1 dw1).setRecField rec 0 0 2 1)
  let s := { s with launches := s.launches ++ [l], nextLser := s.nextLser + 1 }
  if !s.recValid l then (s.setRecField rec 1 32 8 2).failLaunch l.lser 2
  else if bits (l.dw 3) 16 16 = 0 then s.startLaunch l.lser
  else s

/-- The record is IDLE. -/
def State.recIdle (s : State) (rec : Nat) : Bool := bits (s.recDw rec 0) 0 2 = 0 && !(s.launches.any fun l => l.lrec == rec)

/-- `decrement` (R357). -/
def State.decrement (s : State) (rec : Nat) : State :=
  let n := bits (s.recDw rec 3) 16 16
  let s := if 0 < n then s.setRecField rec 3 16 16 (n - 1) else s
  if n ≤ 1 then
    match s.launches.find? fun l => l.lrec = rec ∧ !l.inflight ∧ l.code = 0 with
    | some l => s.startLaunch l.lser
    | none => s
  else s

/-- What completion does to one successor. -/
def State.succeed (s : State) (l : Launch) (rec : Nat) : State :=
  let d := s.recDw rec 0
  if !bit d 2 ∨ bits d 32 16 ≠ l.asid.toNat then s
  else if l.code = 0 then s.decrement rec
  else ((s.setRecField rec 1 41 1 1).freeRetained rec).decrement rec

/-! ### Rings (R367, R368) -/

/-- Offset of a host-queue register. -/
def hqOff (slot r : Nat) : Nat := 0x3000 + 0x40 * slot + r

/-- A host-queue register of a site. -/
def State.hqReg (s : State) (site slot r : Nat) : W64 := s.sreg site (hqOff slot r)

/-- Store one. -/
def State.setHqReg (s : State) (site slot r : Nat) (v : W64) : State := s.setSreg site (hqOff slot r) v

/-- The run-time part of a slot. -/
def State.hqRun (s : State) (site slot : Nat) : HqRun := (s.hub (s.phys site)).hq.toList.getD slot ⟨0, [], none, none⟩

/-- Change it. -/
def Hub.modHq (u : Hub) (slot : Nat) (f : HqRun → HqRun) : Hub :=
  { u with hq := Vector.ofFn fun i : Fin 4 => if i.val = slot then f u.hq[i] else u.hq[i] }

/-- Change it in the hub of a site. -/
def State.modHq (s : State) (site slot : Nat) (f : HqRun → HqRun) : State :=
  s.modHub (s.phys site) fun u => u.modHq slot f

/-- An entry has retired. -/
def RingItem.isDone : RingItem → Bool
  | .nop d => d
  | .launch _ _ d => d
  | .signal d => d

/-- The LAUNCH entry of a launch has retired. -/
def RingItem.finish (ser : Nat) : RingItem → RingItem
  | .launch r n d => .launch r n (d || n == ser)
  | x => x

/-- Entries of the longest retired prefix. -/
def donePrefix (l : List RingItem) : Nat := (l.takeWhile (·.isDone)).length

/-- PROG counts the longest prefix of retired entries (R368). -/
def State.retire (s : State) (site slot : Nat) : State :=
  let n := donePrefix (s.hqRun site slot).items
  if n = 0 then s
  else
    (s.setHqReg site slot 0x18 (BitVec.ofNat 64 ((bits (s.hqReg site slot 0x18) 0 32 + n) % 4294967296))).modHq site slot
      fun q => { q with items := q.items.drop n }

/-- Retirements of a queue that no slot holds count in its descriptor's PROG (R369). -/
def State.retireOrphans (s : State) (site : Nat) : State :=
  let l := (s.hub (s.phys site)).orphans
  let s := l.foldl (fun s o =>
    let n := donePrefix o.2
    if n = 0 then s
    else s.hubDword (o.1 + 24) (BitVec.ofNat 64 ((bits (s.hubDw (o.1 + 24)) 0 32 + n) % 4294967296))) s
  s.modHub (s.phys site) fun u =>
    { u with orphans := (u.orphans.map fun o => (o.1, o.2.drop (donePrefix o.2))).filter fun o => !o.2.isEmpty }

/-- A launch's ring entry retires, wherever it stands. -/
def State.retireLaunch (s : State) (ser : Nat) : State :=
  let s := { s with hubs := Table.mapVals (fun _ (u : Hub) =>
    { u with
      hq := u.hq.map fun q => { q with items := q.items.map (RingItem.finish ser) }
      orphans := u.orphans.map fun o => (o.1, o.2.map (RingItem.finish ser)) }) s.hubs }
  (List.range s.nSites).foldl (fun s d => ((List.range 4).foldl (fun s i => s.retire d i) s).retireOrphans d) s

/-! ### The events of a record (R357, R359) -/

/-- `arm` event: the record's owner arms it, when it is IDLE. -/
def execArm (rec : Nat) (s : State) : Result :=
  match s.armReady rec with
  | (s, false) => .next s
  | (s, true) => if rec < s.recCount ∧ s.recIdle rec then .next (s.armRecord rec none) else .next s

/-- Every task record of a launch is gone from the bridles. -/
def State.undealt (s : State) (l : Launch) : Bool :=
  decide (l.nextBlock < l.blocks) || s.hubs.any fun e => e.2.tasks.any fun t => t.lser == l.lser

/-- A launch may complete: no task of it runs, and none is to be dispatched. -/
def State.launchDone (s : State) (l : Launch) : Bool :=
  l.running = 0 && (l.code != 0 || (l.inflight && !s.undealt l))

/-- What completion writes: the outcome, IDLE, and DEPCNT := DEPINIT of the read at arming. -/
def State.closeRecord (s : State) (l : Launch) : State :=
  ((s.setRecField l.lrec 1 32 8 l.code).setRecField l.lrec 3 16 16 (bits (l.dw 3) 0 16)).setRecField l.lrec 0 0 2 0

/-- `complete` event (R357). -/
def execComplete (rec : Nat) (s : State) : Result :=
  match s.launches.find? fun l => l.lrec = rec ∧ s.launchDone l with
  | none => .next s
  | some l =>
    match s.recsReady (rec :: l.succs) with
    | (s, false) => .next s
    | (s, true) =>
      let s := { s with launches := s.launches.filter fun x => x.lser != l.lser }
      let s := { s with hubs := Table.mapVals (fun _ (u : Hub) =>
        { u with tasks := u.tasks.filter fun t => t.lser != l.lser }) s.hubs }
      let s := s.closeRecord l
      let s := l.succs.foldl (fun s x => s.succeed l x) s
      .next (s.retireLaunch l.lser)

/-- The groups of a die: for every valid rectangle and every cluster, the cores of both (R364). -/
def State.groupsOf (s : State) (site : Nat) : List (List Nat) :=
  (List.range 16).flatMap fun i =>
    (List.range 4).map fun cl => ((List.range 64).map (64 * cl + ·)).filter fun c => rectHas (s.rect site i) c

/-- The quads whose four cores are all in a list. -/
def quadsIn (cores : List Nat) : List (List Nat) :=
  (cores.filter fun c => c % 4 = 0).filterMap fun c =>
    let q := [c, c + 1, c + 2, c + 3]
    if q.all cores.contains then some q else none

/-- Some group of a die could hold a block (R361, code 4). -/
def State.everPlaced (s : State) (site : Nat) (l : Launch) : Bool :=
  (s.groupsOf site).any fun g =>
    if l.gangpl then decide (l.tiles ≤ 4 * (quadsIn g).length) else decide (l.tiles ≤ g.length)

/-- An armed launch of a record whose dependences are met and whose broadcast block could not be read yet. -/
def State.startDue (s : State) (rec : Nat) : Option Launch :=
  s.launches.find? fun l => l.lrec = rec ∧ !l.inflight ∧ l.code = 0 ∧ bits (s.recDw rec 3) 16 16 = 0

/-- The next block of a launch in flight goes to its die's bridle, while that has room. -/
def State.dealBlock (s : State) (l : Launch) : State :=
  let ds := s.launchDies l
  match ds[(l.lseq + l.nextBlock) % ds.length]? with
  | none => s
  | some d =>
    if !s.everPlaced d l then s.failLaunch l.lser 4
    else if 4096 < (s.hub (s.phys d)).tasks.length + l.nstm1 + 1 then s
    else
      let s := s.modHub (s.phys d) fun u =>
        { u with tasks := u.tasks ++ (List.range (l.nstm1 + 1)).map fun st => ⟨l.lrec, l.lser, l.nextBlock, st⟩ }
      s.modLaunch l.lser fun x => { x with nextBlock := x.nextBlock + 1 }

/-- `blockDeal` event (R359); a launch whose start waited is started first. -/
def execBlockDeal (rec : Nat) (s : State) : Result :=
  match s.startDue rec with
  | some l =>
    (match s.recsReady [rec] with
      | (s, true) => .next (s.startLaunch l.lser)
      | (s, false) => .next s)
  | none =>
    match s.launches.find? fun l => l.lrec = rec ∧ l.inflight ∧ l.code = 0 ∧ l.nextBlock < l.blocks with
    | none => .next s
    | some l => .next (s.dealBlock l)

/-! ### Placement (R360, R363 to R365) -/

/-- Context numbers of a core that are FREE. -/
def State.freeCtxs (s : State) (site core : Nat) : List Nat :=
  (List.range 4).filter fun c => (s.ctx ⟨site, core, c⟩).st = .free

/-- A context that keeps new tasks off its core: pre-empted and not held (R363). -/
def Ctx.blocks (c : Ctx) : Bool := c.st = .preempted && !c.hold && !c.testHold

/-- The row of a core is withheld. -/
def State.withheld (s : State) (site core : Nat) : Bool := bit (s.sreg site 0x3400) (core / 16)

/-- Entry of a core RETAINED for a record with a footprint's base and length. -/
def Core.retainedFor (k : Core) (lrec : Nat) (f : Footprint) : Option Nat :=
  (k.regions.find? fun e => e.2.state = .retained lrec ∧ e.2.base = f.base ∧ e.2.len = f.len).map (·.1)

/-- A core holds a RETAINED region for a record. -/
def Core.holdsFor (k : Core) (lrec : Nat) : Bool := k.regions.any fun e => e.2.state = .retained lrec

/-- The entries of a launch that need a new region on a core. -/
def Core.newFps (k : Core) (l : Launch) : List Footprint :=
  l.fps.filter fun f => f.kind != 4 || (k.retainedFor l.lrec f).isNone

/-- A core is usable for a tile of a launch (R363, R364, R386). A withheld row does not close a core to the successor for
which it RETAINS a region (R362; log entry 69). -/
def State.usable (s : State) (site : Nat) (l : Launch) (core : Nat) : Bool :=
  let k := s.core site core
  let fs := k.newFps l
  (!s.withheld site core || k.holdsFor l.lrec) && !k.retired && !(s.freeCtxs site core).isEmpty &&
    (List.range 4).all (fun c => !(s.ctx ⟨site, core, c⟩).blocks) &&
    decide ((s.die site).testing.map (·.1) ≠ some core) &&
    fs.all (fun f => !k.overlaps f.base f.len) && decide (fs.length ≤ k.freeSlots.length)

/-- Context number common to the cores of a quad. -/
def State.quadCtx (s : State) (site : Nat) (q : List Nat) : Option Nat :=
  (List.range 4).find? fun c => q.all fun k => (s.freeCtxs site k).contains c

/-- A choice within one group: how many usable cores of the group hold RETAINED regions for the record, how many chosen cores
are slow, the chosen cores with their contexts, ascending. -/
structure Pick where
  held : Nat
  slow : Nat
  cores : List (Nat × Nat)
deriving DecidableEq, Repr

/-- Units (a core, or a quad) in the order in which tiles take them. -/
def State.order (s : State) (site lrec : Nat) (us : List (List Nat)) : List (List Nat) :=
  sortBy (fun u =>
    let held := (u.filter fun c => (s.core site c).holdsFor lrec).length
    let slow := (u.filter fun c => s.slow site c != 0).length
    (4 - held) * 16384 + slow * 1024 + u.headD 0) us

/-- The cores that a block takes in a group, if it fits. -/
def State.pickIn (s : State) (site : Nat) (l : Launch) (g : List Nat) : Option Pick :=
  let ok := g.filter (s.usable site l)
  let us : List (List Nat) :=
    if l.gangpl then (quadsIn ok).filter fun q => (s.quadCtx site q).isSome else ok.map fun c => [c]
  let take := (s.order site l.lrec us).take (if l.gangpl then l.tiles / 4 else l.tiles)
  let cores := take.flatMap id
  if cores.length < l.tiles then none
  else
    let ctxOf (u : List Nat) : Nat :=
      if l.gangpl then (s.quadCtx site u).getD 0 else (s.freeCtxs site (u.headD 0)).headD 0
    let cs := sortBy (fun (x : Nat × Nat) => x.1) (take.flatMap fun u => u.map fun c => (c, ctxOf u))
    some ⟨(ok.filter fun c => (s.core site c).holdsFor l.lrec).length,
      (cores.filter fun c => s.slow site c != 0).length, cs⟩

/-- The better of two choices (R364). -/
def Pick.better (a b : Pick) : Bool :=
  let lo (p : Pick) : Nat := (p.cores.head?.map (·.1)).getD 0
  if a.held ≠ b.held then decide (b.held < a.held)
  else if a.slow ≠ b.slow then decide (a.slow < b.slow)
  else decide (lo a < lo b)

/-- `place` (R364): the chosen cores and contexts in ascending core order, tile by tile. -/
def State.place (s : State) (site : Nat) (l : Launch) : Option (List (Nat × Nat)) :=
  let some_ := s.cores.any fun e => e.1 / 256 == site && e.2.holdsFor l.lrec
  let ps := ((s.groupsOf site).filterMap fun g => s.pickIn site l g).filter fun p => !some_ || decide (0 < p.held)
  (ps.foldl (fun (b : Option Pick) p =>
    match b with
    | none => some p
    | some q => if p.better q then some p else some q) none).map (·.cores)

/-- A task record is a producer, or a consumer (R365). -/
def Launch.producer (l : Launch) (stage : Nat) : Bool := l.prodmask / 2 ^ stage % 2 = 1
def Launch.consumer (l : Launch) (stage : Nat) : Bool := l.prodmask != 0 && !l.producer stage

/-- Tiles of the producer task records of a die that have not been dispatched, over the launches in flight (R365). -/
def State.producersLeft (s : State) (site : Nat) : Nat :=
  (((s.hub (s.phys site)).tasks.filterMap fun t =>
    (s.launch t.lser).bind fun l => if l.inflight ∧ l.producer t.stage then some l.tiles else none)).foldl (· + ·) 0

/-- `reserve_ok` once the chosen contexts are taken (R365; log entry 43). -/
def State.reserveOk (s : State) (site : Nat) (cores : List (Nat × Nat)) : Bool :=
  let inn := (List.range 256).filter (s.inRect site)
  let left := (List.range 256).filter fun c =>
    !s.withheld site c &&
      decide ((cores.filter fun x => x.1 = c).length < (s.freeCtxs site c).length)
  decide (min (s.producersLeft site) inn.length ≤ left.length)

/-! ### Dispatch (R75, R136, R173, R174, R360, R366) -/

/-- The fill bytes of a block's entries, read before any grant; the source of the entry that failed, or nothing yet. -/
def State.fills (s : State) (site : Nat) (l : Launch) (cores : List (Nat × Nat)) :
    List Footprint → State × Except (Option W64) (List (Footprint × List Byte))
  | [] => (s, .ok [])
  | f :: fs =>
    let needed := f.kind = 1 ∨ (f.kind = 4 ∧ f.src ≠ 0 ∧ cores.any fun c => ((s.core site c.1).retainedFor l.lrec f).isNone)
    if needed then
      let s := s.engFence site f.scope
      match s.bridleRead site l.asid (64 * f.len + 1) f.src.toNat (64 * f.len) with
      | (s, .error e) => (s, .error (e.map fun _ => f.src))
      | (s, .ok bs) =>
        match State.fills s site l cores fs with
        | (s, .ok m) => (s, .ok ((f, bs) :: m))
        | r => r
    else State.fills s site l cores fs

/-- `n` doublewords that the spec leaves unspecified (R75; log entry 12). -/
def State.freeFill (s : State) (pa n : Nat) : State :=
  { (s.setBytes pa ((List.range n).flatMap fun i => toBytes 8 (Config.freeWord (s.tick + i)).toNat)) with tick := s.tick + n }

/-- One footprint entry of a tile. -/
def State.footprint (s : State) (site core : Nat) (l : Launch) (h : Holder) (data : List (Footprint × List Byte))
    (f : Footprint) : State :=
  let inherit_ : Option Nat := if f.kind = 4 then (s.core site core).retainedFor l.lrec f else none
  match inherit_ with
  | some slot => s.modRegion site core slot fun e => { e with state := .exclusive h, pin := true, grantee := some h }
  | none =>
    let free := (s.core site core).freeSlots
    let s := s.next.grant site core (free.getD (s.choose free.length) 0) f.base f.len h true true
    let pa := lmemPa site core (64 * f.base)
    if f.kind = 3 then s.freeFill pa (8 * f.len)
    else
      match data.find? fun d => d.1 = f with
      | some d => s.setBytes pa d.2
      | none => s

/-- The constants k0 to k255 of a tile (R173, R174). -/
def State.constants (s : State) (l : Launch) (t : TaskRec) (r : CtxRef) (tlin : Nat) : List W64 :=
  let n (x : Nat) : W64 := BitVec.ofNat 64 x
  [n (tlin % l.tdx + tlin / l.tdx % l.tdy * 256 + tlin / (l.tdx * l.tdy) * 65536 + tlin * 16777216),
    n (t.block % l.gx + t.block / l.gx % l.gy * 16384 + t.block / (l.gx * l.gy) * 268435456),
    l.dw 19,
    n (t.stage + l.nstm1 * 16),
    s.coreName r.site r.core,
    n (l.lseq + l.lrec * 4294967296 + l.asid.toNat * 281474976710656),
    l.dw 16,
    n (r.ctx + r.core % 8 * 4 + octetOf r.core * 32)] ++ l.bcast ++ List.replicate (248 - l.bcast.length) 0

/-- The context of a tile, ready for its first bundle. Registers to which the spec gives no value there hold free values
(log entry 12); the engine registers are 0, CPFAULT whole (R329; log entry 84). -/
def State.taskCtx (s : State) (l : Launch) (t : TaskRec) (r : CtxRef) (tlin : Nat) : Ctx :=
  let w (i : Nat) : W64 := Config.freeWord (s.tick + i)
  { Ctx.reset with
    g := Vector.ofFn fun i : Fin 32 => w i.val
    p := (w 32).setWidth 8
    ja0 := w 33
    ja1 := w 34
    lr := w 35
    pc := putBits (l.dw 2) 0 3 0
    asid := l.asid
    tvec := putBits (s.sreg r.site 0x3640) 0 3 0
    girthRec := (s.die r.site).girthPhase
    cpfault := 0
    st := .dispatching
    task := some ⟨l.lrec, l.lser, t.block, t.stage, tlin⟩ }

/-- One tile is dispatched: its footprint regions, its constants, its context. -/
def State.dispatchTile (s : State) (l : Launch) (t : TaskRec) (data : List (Footprint × List Byte)) (r : CtxRef)
    (tlin : Nat) : State :=
  let s := l.fps.foldl (fun s f => s.footprint r.site r.core l (holderOf r) data f) s
  let s := s.setBytes (lmemPa r.site r.core (0x800 * r.ctx)) ((s.constants l t r tlin).flatMap fun v => toBytes 8 v.toNat)
  let s := { (s.setCtx r (s.taskCtx l t r tlin)).paySave r l.asid.toNat with tick := s.tick + 36 }
  (s.makeReady r).wakeDiv r.site r.core

/-- A task record leaves its bridle for the chosen contexts, or its launch fails; while the host holds a line that the bridle
must read or write, it stays. -/
def State.dispatchRec (s : State) (site : Nat) (l : Launch) (t : TaskRec) (cores : List (Nat × Nat)) : State :=
  let taken (s : State) : State := s.modHub (s.phys site) fun u => { u with tasks := u.tasks.filter fun x => x != t }
  match (s.ungateDie site).fills site l cores l.fps with
  | (s, .error none) => s
  | (s, .error (some va)) =>
    (match s.recsReady [l.lrec] with
      | (s, true) => ((taken s).setRecDw l.lrec 5 va).failLaunch l.lser 3
      | (s, false) => s)
  | (s, .ok data) =>
    let s := (taken s).rdcUnbound site
    let tiles := (List.range cores.length).map fun i => (i, cores.getD i (0, 0))
    let s := tiles.foldl (fun s x => s.dispatchTile l t data ⟨site, x.2.1, x.2.2⟩ x.1) s
    (s.modLaunch l.lser fun x => { x with running := x.running + l.tiles }).bill site l.asid.toNat

/-- Position of a launch in the order of starts. -/
def State.startOrder (s : State) (ser : Nat) : Nat := (s.launches.takeWhile fun l => l.lser != ser).length

/-- The candidates of a die in order (R360); none of a group that is rolling back (R388). -/
def State.candidates (s : State) (site : Nat) : List (Launch × TaskRec) :=
  sortBy (fun (x : Launch × TaskRec) =>
      (((7 - x.1.prio) * 65536 * 65536 + s.startOrder x.1.lser) * 16 + x.2.stage) * 4398046511104 + x.2.block)
    ((s.hub (s.phys site)).tasks.filterMap fun t => (s.launch t.lser).bind fun l =>
      if l.code = 0 ∧ !s.rollbacks.contains (s.cgroup l.asid.toNat) then some (l, t) else none)

/-- The first candidate that can be placed. -/
def State.firstPlaced (s : State) (site : Nat) : List (Launch × TaskRec) → Option (Launch × TaskRec × List (Nat × Nat))
  | [] => none
  | (l, t) :: rest =>
    match s.place site l with
    | some cores =>
      if l.consumer t.stage && !s.reserveOk site cores then State.firstPlaced s site rest else some (l, t, cores)
    | none => State.firstPlaced s site rest

/-- The die is stopped by the halt tree. -/
def State.dieStopped (s : State) (site : Nat) : Bool := bit (s.sreg site 0x3608) 4

/-- `dispatch` event (R360). -/
def execDispatch (site : Nat) (s : State) : Result :=
  if s.dieStopped site then .next s
  else
    match s.firstPlaced site (s.candidates site) with
    | some (l, t, cores) => .next (s.dispatchRec site l t cores)
    | none => .next s

/-! ### Host queues (R367 to R369) -/

/-- State codes of a slot. -/
def State.hqState (s : State) (site slot : Nat) : Nat := bits (s.hqReg site slot 0x28) 0 2

/-- A slot enters a state with an error code. -/
def State.setHqState (s : State) (site slot st err : Nat) : State :=
  s.setHqReg site slot 0x28 (BitVec.ofNat 64 (st + 256 * err))

/-- TAIL lies more than the ring's size ahead of PROG. -/
def State.hqFar (s : State) (site slot : Nat) : Bool :=
  decide (2 ^ bits (s.hqReg site slot 0x08) 1 5 <
    (bits (s.hqReg site slot 0x10) 0 32 + 4294967296 - bits (s.hqReg site slot 0x18) 0 32) % 4294967296)

/-- The state of a slot whose registers have been set: EN, the ring's size and the tail decide. -/
def State.hqSettle (s : State) (site slot : Nat) : State :=
  let ctl := s.hqReg site slot 0x08
  if !bit ctl 0 then s.setHqState site slot 0 0
  else if bits ctl 1 5 = 0 ∨ 16 < bits ctl 1 5 then s.setHqState site slot 3 3
  else if s.hqFar site slot then s.setHqState site slot 3 4
  else s.setHqState site slot 1 0

/-- `hqtailWrite` event (R368, R369). -/
def execHqtailWrite (site slot : Nat) (v : W64) (s : State) : Result :=
  let t := v &&& ones 0 32
  if 3 < slot then .next s
  else if s.hqState site slot = 2 then
    match (s.hqRun site slot).desc with
    | some d => .next (s.hubDword (d + 16) t)
    | none => .next s
  else
    let s := s.setHqReg site slot 0x10 t
    .next (if s.hqState site slot = 1 ∧ s.hqFar site slot then s.setHqState site slot 3 4 else s)

/-- `hqctlWrite` event (R367). -/
def execHqctlWrite (site slot : Nat) (v : W64) (s : State) : Result :=
  if 3 < slot ∨ s.hqState site slot = 2 then .next s
  else .next ((s.setHqReg site slot 0x08 (v &&& ones 0 6)).hqSettle site slot)

/-- The next ring entry of a slot, if it may be consumed: its number and its address. -/
def State.hqNext (s : State) (site slot : Nat) : Option (Nat × Nat) :=
  let q := s.hqRun site slot
  let ctl := s.hqReg site slot 0x08
  if slot < 4 ∧ s.hqState site slot = 1 ∧ bit ctl 0 ∧ q.next ≠ (s.hqReg site slot 0x10).setWidth 32 then
    some (q.next.toNat, bits (s.hqReg site slot 0x00) 6 46 * 64 + 64 * (q.next.toNat % 2 ^ bits ctl 1 5))
  else none

/-- An entry is consumed. -/
def State.consume (s : State) (site slot : Nat) (i : RingItem) : State :=
  (s.modHq site slot fun q => { q with next := q.next + 1, items := q.items ++ [i] }).retire site slot

/-- What the next entry of a slot does when it is of a kind; the slot goes to ERROR at a reserved one. An entry whose line
the host holds is read once the home has it back (R139). -/
def State.hqEntry (s : State) (site slot kind : Nat) (f : State → Nat → State) : State :=
  match s.hqNext site slot with
  | none => s
  | some (_, pa) =>
    match s.claimLine (s.lineOf pa) none with
    | (s, false) => s
    | (s, true) =>
      let k := bits (s.dword pa) 0 4
      if 2 < k then s.setHqState site slot 3 1
      else if k = kind then f s pa
      else s

/-- `nopEntry` event. -/
def execNopEntry (site slot : Nat) (s : State) : Result :=
  .next (s.hqEntry site slot 0 fun s _ => s.consume site slot (.nop true))

/-- `launchEntry` event: waits until the record is IDLE. -/
def execLaunchEntry (site slot : Nat) (s : State) : Result :=
  .next (s.hqEntry site slot 1 fun s pa =>
    let rec_ := bits (s.dword pa) 16 16
    if s.recCount ≤ rec_ then s.setHqState site slot 3 2
    else
      match s.armReady rec_ with
      | (s, false) => s
      | (s, true) =>
        if !s.recIdle rec_ then s
        else (s.consume site slot (.launch rec_ s.nextLser false)).armRecord rec_ (some (site, slot)))

/-- `hqdescWrite` event (R369): the slot is frozen and written to the descriptor that was loaded last. -/
def execHqdescWrite (site slot : Nat) (v : W64) (s : State) : Result :=
  if 3 < slot ∨ s.hqState site slot = 2 then .next s
  else
    let v := v &&& (1 ||| ones 6 46)
    let q := s.hqRun site slot
    let s := match q.desc with
      | none => s
      | some d =>
        let ws := [s.hqReg site slot 0x00, s.hqReg site slot 0x08, s.hqReg site slot 0x10, s.hqReg site slot 0x18,
          q.next.setWidth 64, 0, 0, 0]
        ((List.range 8).foldl (fun (s : State) i => s.hubDword (d + 8 * i) (ws.getD i 0)) s).modHub (s.phys site) fun u =>
          { u with orphans := if q.items.isEmpty then u.orphans else u.orphans ++ [(d, q.items)] }
    let s := s.modHq site slot fun q => { q with items := [], switch := some v }
    .next ((s.setHqReg site slot 0x20 v).setHqState site slot 2 0)

/-- Entries still to retire of the queue of a descriptor, wherever a hub keeps them. -/
def State.orphansOf (s : State) (d : Nat) : List RingItem :=
  s.hubs.flatMap fun e => (e.2.orphans.filter fun o => o.1 = d).flatMap (·.2)

/-- `queueSwitchComplete` event (R369). A descriptor of which the host holds the line is loaded once the home has it back (R139). -/
def execQueueSwitchComplete (site slot : Nat) (s : State) : Result :=
  if 3 < slot ∨ s.hqState site slot ≠ 2 then .next s
  else
    match (s.hqRun site slot).switch with
    | none => .next s
    | some v =>
      let d := bits v 6 46 * 64
      let load := bit v 0
      match (if load then s.claimLine (s.lineOf d) none else (s, true)) with
      | (s, false) => .next s
      | (s, true) =>
      let dw (i : Nat) : W64 := if load then s.hubDw (d + 8 * i) else 0
      let s := ((((s.setHqReg site slot 0x00 (dw 0 &&& ones 6 46)).setHqReg site slot 0x08 (dw 1 &&& ones 0 6)).setHqReg
        site slot 0x10 (dw 2 &&& ones 0 32)).setHqReg site slot 0x18 (dw 3 &&& ones 0 32))
      let items := if load then s.orphansOf d else []
      let s := s.modHq site slot fun q =>
        { q with next := (dw 4).setWidth 32, items := items, desc := if load then some d else none, switch := none }
      let s := if load then
          { s with hubs := Table.mapVals (fun _ (u : Hub) => { u with orphans := u.orphans.filter fun o => o.1 != d }) s.hubs }
        else s
      if !load then .next (s.setHqState site slot 0 0)
      else
        let s := s.setHqState site slot 1 0
        .next (if bit (s.hqReg site slot 0x08) 0 then s.hqSettle site slot else s)

/-! ### `larm`, `halt`, `yield` (R198, R263, R264, R266) -/

/-- Status of `larm`. -/
def State.larmStatus (s : State) (v : W64) : Nat :=
  let r := bits v 0 16
  if bits v 16 48 ≠ 0 ∨ s.recCount ≤ r then 3
  else if bits (s.recDw r 0) 32 16 ≠ s.c.asid.toNat ∨ !bit (s.recDw r 0) 3 then 2
  else if !s.recIdle r then 1
  else 0

/-- `larm` (R266). -/
def execLarm (d a : BitVec 5) (s : State) : Result :=
  if !s.drained s.cur then .next (s.flow .stall)
  else
    let rec_ := bits (s.g a) 0 16
    match (if rec_ < s.recCount then s.armReady rec_ else (s, true)) with
    | (s, false) => .next (s.flow .stall)
    | (s, true) =>
      let q := s.larmStatus (s.g a)
      let s := if q = 0 then s.armRecord rec_ none else s
      .next (s.gw d (BitVec.ofNat 64 q))

/-- `yield` (R263): the owner hands its core to the next READY context. -/
def execYield (s : State) : Result :=
  let r := s.cur
  match s.nextReady r.site r.core r.ctx with
  | none => .next s
  | some _ =>
    if (s.core r.site r.core).owner = some r.ctx then
      .next ((s.modC fun c => { c with st := .ready }).passOwner r.site r.core r.ctx)
    else .next s

/-- An entry of the context that was parked before the trap whose handler runs: a `halt` there discards it (R264). -/
def Ctx.parkedBefore (c : Ctx) (ctx : Nat) (e : ReplayEntry) : Bool := c.inHandler && e.ctx == ctx && !e.inTrap

/-- The context in issue goes to HALTING; in a handler the entries parked before the trap are discarded (R264). -/
def State.halt (s : State) (succ : Option (BitVec 16)) : State :=
  let r := s.cur
  let old (e : ReplayEntry) : Bool := s.c.parkedBefore r.ctx e
  let k := s.core r.site r.core
  let n := ((k.rq ++ k.stw).filter fun e => old e && e.src == .store).length
  let s := s.modCore r.site r.core fun k =>
    { k with rq := k.rq.filter fun e => !old e, stw := k.stw.filter fun e => !old e }
  let s := s.modC fun c => { c with retain := succ, ocs := c.ocs - n, gang := false, preReq := false, testReq := false }
  ((s.leave r .halting).gangLost r).flow .ended

/-- `halt`. -/
def execHalt (s : State) : Result :=
  .next (s.halt none)

/-- `halt.ret`. -/
def execHaltRet (a : BitVec 5) (s : State) : Result :=
  if bits (s.g a) 16 48 ≠ 0 then .next s.illegal else .next (s.halt (some ((s.g a).setWidth 16)))

/-- A context with no reply, store, command or request outstanding (R198). -/
def State.quiet (s : State) (r : CtxRef) : Bool :=
  let c := s.ctx r
  c.ocl == 0 && c.ocs == 0 && c.occ == 0 && c.oct == 0 && !c.sfuBusy && !s.rqBusy r && !s.awaiting r &&
    !(s.reqs.any fun q => q.who == r && !q.orphan && q.kind.exch)

/-- The successor of a `halt.ret` if it is usable (R264). -/
def State.successor (s : State) (r : CtxRef) (n : BitVec 16) : Option Nat :=
  let asid := match (s.ctx r).task.bind fun t => s.launch t.lser with
    | some l => l.asid
    | none => (s.ctx r).asid
  let d := s.recDw n.toNat 0
  if n.toNat < s.recCount ∧ bit d 2 ∧ bits d 32 16 = asid.toNat then some n.toNat else none

/-- The accumulator slots of a halting context become FREE (R340). -/
def State.freeSlotsOf (s : State) (r : CtxRef) : State :=
  s.modCore r.site r.core fun k => { k with slots := k.slots.map fun (a : AccSlot) => if a.ownedBy r.ctx then AccSlot.reset else a }

/-- The records that the halt of a context reads and writes: its own, and the successor that it names (R264). -/
def State.haltRecs (s : State) (r : CtxRef) : List Nat :=
  match (s.ctx r).retain, (s.ctx r).task with
  | some n, some t => if n.toNat < s.recCount then [t.lrec, n.toNat] else [t.lrec]
  | _, _ => []

/-- Ballast that the end of a task may cause is charged to its ASID (R409, R410). -/
def State.billBallast (s : State) (r : CtxRef) (asid : BitVec 16) : State :=
  if bit (s.sreg r.site 0x5028) 0 then s.bill r.site asid.toNat else s

/-- `haltSequence` event (R198). -/
def execHaltSequence (r : CtxRef) (s : State) : Result :=
  if (s.ctx r).st ≠ .halting ∨ !s.quiet r then .next s
  else
    match s.recsReady (s.haltRecs r) with
    | (s, false) => .next s
    | (s, true) =>
      let c := s.ctx r
      let s := s.fenceAct r.site .module
      let succ := c.retain.bind (s.successor r)
      let s := match c.retain, succ, c.task with
        | some _, none, some t => s.setRecField t.lrec 1 40 1 1
        | _, _, _ => s
      -- a retain timeout of 0 frees RETAINED regions at once (R96)
      let keep := if bits (s.sreg r.site 0x2028) 0 16 = 0 then none else succ
      let s := s.mapRegions r.site (clusterOf r.core) fun _ e => e.halted (holderOf r) keep
      .next (((s.freeSlotsOf r).freeCtx r).billBallast r c.asid)

/-! ### Gangs (R184 to R186, R265) -/

/-- The members of a would-be gang agree (R184). -/
def State.gangFits (s : State) (r : CtxRef) : Bool :=
  let c := s.ctx r
  (quadOthers r).all fun o =>
    let x := s.ctx o
    x.asid == c.asid && (x.task.map fun t => (t.lser, t.block)) == (c.task.map fun t => (t.lser, t.block)) &&
      (s.rectOf r.site r.core).isSome && s.rectOf o.site o.core == s.rectOf r.site r.core && !x.gang

/-- `gang` of the context in issue is complete with status 0: with the last of the four the gang stands, and its cores run
at one divider (R185). -/
def State.gangStand (s : State) (d : BitVec 5) : State :=
  let s := s.gw d 0
  let os := quadOthers s.cur
  if os.all fun o => (s.ctx o).wait = .gangDone then
    let s := (s.cur :: os).foldl (fun s o => s.modCtx o fun c => { c with gang := true }) s
    (os.foldl (fun s o => s.waitOver o) s).settleQuad s.cur.site s.cur.core
  else ((s.modC fun c => { c with wait := .gangDone }).leave s.cur .waiting).flow .park

/-- `gang` (R184, R265); within a gang every member gets status 3 and goes on as an independent context. -/
def execGang (d : BitVec 5) (s : State) : Result :=
  let os := quadOthers s.cur
  if s.c.gang then
    .next (((s.gw d 3).modC fun c => { c with gang := false }).settleQuad s.cur.site s.cur.core)
  else
    match s.c.fired with
    | some v =>
      let s := s.unfire
      if v ≠ 0 then .next (s.gw d (BitVec.ofNat 64 v))
      else if os.all fun o => (s.ctx o).fired = some 0 ∨ (s.ctx o).wait = .gangDone then .next (s.gangStand d)
      else .next (s.gw d 1)
    | none =>
      if os.all fun o => (s.ctx o).st = .waiting ∧ (s.ctx o).wait = .gang then
        let q := if s.gangFits s.cur then 0 else 3
        let s := os.foldl (fun s o => s.fire o q) s
        .next (if q = 0 then s.gangStand d else s.gw d 3)
      else .next (s.await .gang)

/-- `split` (R186): 0x02 outside a gang. -/
def execSplit (s : State) : Result :=
  if s.c.gang then .next ((s.modC fun c => { c with gang := false }).settleQuad s.cur.site s.cur.core) else .next s.illegal

/-- `gangTimeout` event (R184): those that wait get status 2, those of a stopped die when it goes on. -/
def execGangTimeout (r : CtxRef) (s : State) : Result :=
  let inGang (o : CtxRef) : Bool := (s.ctx o).waitsIn ∧ (s.ctx o).wait = .gang
  if inGang r then
    .next (((r :: quadOthers r).filter inGang).foldl (fun s o => s.fire o 2)
      ((quadOthers r).foldl (fun s o =>
        if (s.ctx o).wait = .gangDone then (s.waitOver o).pendCause o 0x22 1 else s) s))
  else .next s

/-- `floorIssue` event (R180): a READY context issues one bundle in place of the owner. -/
def execFloorIssue (r : CtxRef) (s : State) : Result :=
  if (s.ctx r).st = .ready ∧ ((s.core r.site r.core).owner).isSome then
    .next { s with agenda := .issue r :: s.agenda }
  else .next s

end Sys2Proof.Machine
end

