-- ==== Sys2Proof/Machine/Trap.lean ====
section
/-! DEFINITION. Causes at bundle boundaries, fatal causes, pre-emption and resumption, non-pre-emptible sections, the
halt tree, roving self-test, containment groups, and memory errors (R94 to R96, R132 to R134, R181, R186, R187, R363,
R371 to R388). -/

namespace Sys2Proof.Machine

/-! ### Causes at a bundle boundary (R129, R130, R181, R371, R372) -/

/-- The store that a pending store cause belongs to was made in the handler that runs. -/
def State.handlerStore (s : State) (r : CtxRef) (va : W64) : Bool :=
  (s.core r.site r.core).rq.any fun e => e.ctx == r.ctx && e.faulted && e.inTrap && e.va == va

/-- The pending cause with the lowest code of a list. -/
def lowestCause : List (Nat × W64) → Option (Nat × W64)
  | [] => none
  | x :: l =>
    match lowestCause l with
    | some y => if y.1 < x.1 then some y else some x
    | none => some x

/-- The cause that a context takes at its next bundle boundary: whether it is asynchronous, its code and its TVAL. In a
handler only a cause of the handler's own stores is taken; the others stay pending. -/
def State.boundaryCause (s : State) (r : CtxRef) : Option (Bool × Nat × W64) :=
  let c := s.ctx r
  let stores := if c.inTrap then c.pendStore.filter fun x => s.handlerStore r x.2 else c.pendStore
  match lowestCause stores, (if c.inTrap then none else lowestCause c.pendAsync) with
  | some x, _ => some (false, x)
  | none, some y => some (true, y)
  | none, none => none

/-- A cause taken is pending no more. -/
def Ctx.tookCause (c : Ctx) (async : Bool) (code : Nat) (v : W64) : Ctx :=
  if async then { c with pendAsync := c.pendAsync.filter fun x => x.1 != code }
  else { c with pendStore := c.pendStore.erase (code, v) }

/-- A context takes its boundary cause, or the one that a member of its gang raises. -/
def State.takeBoundary (s : State) (r : CtxRef) (raised : Bool × Nat × W64) : State :=
  let (async, code, v) := (s.boundaryCause r).getD raised
  let c := s.ctx r
  (s.modCtx r fun c => c.tookCause async code v).takeTrap r async (!async) code v c.pc c.slot

/-- All members of a gang enter together (R186). -/
def State.takeAll (s : State) (r : CtxRef) (raised : Bool × Nat × W64) : State :=
  let gang := (s.ctx r).gang
  (s.members r).foldl (fun s m =>
    if (s.ctx m).st = .free ∨ (gang ∧ !(s.ctx m).gang) then s else s.takeBoundary m raised) s

/-- A context stands at a bundle boundary where it may take a cause: it can issue, is not within a dictionary bundle, and
its bundle does not complete a wait that is over, nor execute again after parking. -/
def Ctx.atBoundary (c : Ctx) : Bool := (c.st = .running || c.st = .ready) && !c.mid && !c.redo && c.fired.isNone

/-- A gang member's cause is also its partners' boundary. -/
def State.gangCause (s : State) (r : CtxRef) : Option (Bool × Nat × W64) := (s.members r).findSome? s.boundaryCause

/-- `endContext` event (R383): a fatal cause of a context is acted on. -/
def execEndContext (r : CtxRef) (s : State) : Result :=
  match (s.ctx r).fatal with
  | some (code, v) => if (s.ctx r).st = .free then .next s else .next (s.endContext r code v)
  | none => .next s

/-- A context meets an uncorrectable error (R94). -/
def State.fatalTo (s : State) (r : CtxRef) (code : Nat) (v : W64) : State :=
  if (s.ctx r).st = .free then s else s.modCtx r fun c => { c with fatal := some (code, v) }

/-- A context is within a section that has lasted to its limit (R380). -/
def State.npOver (s : State) (r : CtxRef) : Bool :=
  let c := s.ctx r
  let lim := let l := bits (s.die r.site).nplim 0 32; if l = 0 then 65536 else l
  c.npsec && decide (lim ≤ c.npcount.toNat)

/-- `npcountLimit` event (R380). -/
def execNpcountLimit (r : CtxRef) (s : State) : Result :=
  let c := s.ctx r
  if s.npOver r ∧ c.st ≠ .free ∧ c.st ≠ .stopped then
    .next (s.endContext r 0x11 (c.npcount.setWidth 64))
  else .next s

/-! ### Pre-emption (R187, R326, R353, R374 to R377) -/

/-- Slots that a context owns, ascending. -/
def State.ownedSlots (s : State) (r : CtxRef) : List Nat :=
  (List.range 8).filter fun i => (s.slotOf r.site r.core i).ownedBy r.ctx

/-- The accumulator-save region of a context: its physical address, when it is large enough for `n` slots. -/
def State.accRegion (s : State) (r : CtxRef) (n : Nat) : Option Nat :=
  let fs := (((s.ctx r).task.bind fun t => s.launch t.lser).map (·.fps)).getD []
  (fs.find? fun f => f.kind = 3 ∧ 4096 + 16384 * n ≤ 64 * f.len).map fun f =>
    lmemPa r.site ((s.ctx r).fpCore.getD r.core) (64 * f.base)

/-- A context may accept a pre-emption request now (R374). -/
def State.mayPreempt (s : State) (r : CtxRef) : Bool :=
  let c := s.ctx r
  let k := s.core r.site r.core
  let slots := s.ownedSlots r
  let engine := (k.mxq.any fun m => m.ctx == r.ctx) || !slots.isEmpty
  (c.st = .ready || c.st = .running || c.st = .parked || c.st = .waiting) && !c.mid && c.fired.isNone &&
    !(c.redo && (c.st = .ready || c.st = .running)) && c.wait ≠ .gangDone && !c.npsec && (!engine || (s.accRegion r slots.length).isSome)

/-- The started scalar requests of a context complete, and its other requests leave the queue (R326). -/
def State.drainSfu (s : State) (r : CtxRef) : State :=
  let o := octetOf r.core
  let mine := (s.octet r.site o).sfuq.filter fun q => q.who = r ∧ !q.drop
  let done := mine.filter fun q => q.started ∧ q.fn ≠ .map
  let left := mine.filter fun q => !(q.started && q.fn != .map)
  let s := s.modOctet r.site o fun x => { x with sfuq := x.sfuq.filter fun q => q.who != r || q.drop }
  let s := s.modCtx r fun c => done.foldl (fun (c : Ctx) q =>
    { c.wg q.d (BitVec.ofNat 64 (sfuFp32 q.fn (bits q.a 0 32))) with pend := c.pend.sub (rG [q.d]) }) c
  let busy := !left.isEmpty || (s.core r.site r.core).jobs.any fun j => j.ctx == r.ctx && j.kind == .sfu
  s.modCtx r fun c => { c with savedSfu := left, sfuBusy := busy }

/-- Bytes of a slot's elements, row-major in rows of 256 bytes (R377). -/
def State.slotImage (s : State) (site core i : Nat) : List Byte :=
  let a := s.slotOf site core i
  let es := if a.type = 2 then 8 else 4
  (List.range 64).flatMap fun m => (List.range (256 / es)).flatMap fun n =>
    toBytes es (Table.get (0 : W64) a.elems (64 * m + n)).toNat

/-- The 128-bit mask and bytes of an output-buffer entry. -/
def OutEntry.image (e : OutEntry) : List Byte :=
  let data := e.data.foldl (fun (l : List Byte) b => l.set b.1 b.2) (List.replicate 128 (0 : Byte))
  let mask := packBits ((List.range 128).map fun i => e.data.any fun b => b.1 == i)
  data ++ toBytes 8 e.va.toNat ++ toBytes 16 mask

/-- The accumulator-save region is written and the engine's work of the context leaves the core (R353, R377). -/
def State.saveEngine (s : State) (r : CtxRef) : State :=
  let k := s.core r.site r.core
  let slots := s.ownedSlots r
  let cmds := k.mxq.filter fun m => m.ctx = r.ctx
  let outs := k.obuf.filter fun e => e.ctx = r.ctx ∧ !e.dead
  let s := s.modCtx r fun c => { c with saveAt := s.accRegion r slots.length }
  let s := match (s.ctx r).saveAt with
    | none => s
    | some o =>
      let at_ (x : Nat) : Nat := o + x
      let types := slots.foldl (fun n i => n + (s.slotOf r.site r.core i).type % 4 * 4 ^ i) 0
      let head := packBits ((List.range 8).map slots.contains) + types * 256 + cmds.length * 2 ^ 24 + outs.length * 2 ^ 32
      let prog : Nat := match cmds.head? with
        | some m => if m.started then m.opc + (if m.opc = 4 ∨ m.opc = 5 then 0 else m.next * 2 ^ 32) else 0
        | none => 0
      let s := s.setDword (at_ 0) (BitVec.ofNat 64 head)
      let s := s.setDwords (at_ 0x40) (s.ctx r).mxstage.toList
      let s := s.setDword (at_ 0x80) (BitVec.ofNat 64 prog)
      let s := s.setDwords (at_ 0x100) (cmds.flatMap fun (m : MxCmd) => m.dw.toList)
      let s := (List.range outs.length).foldl (fun (s : State) e =>
        match outs[e]? with
        | some x => s.setBytes (at_ (0x500 + 144 * e)) x.image
        | none => s) s
      (List.range slots.length).foldl (fun s j =>
        s.setBytes (at_ (0x1000 + 0x4000 * j)) (s.slotImage r.site r.core (slots.getD j 0))) s
  let s := s.modCtx r fun c =>
    { c with
      -- `acz` and `acl` begin again, with their checks
      savedMx := cmds.map fun (m : MxCmd) => if m.opc = 4 ∨ m.opc = 5 then { m with next := 0, started := false } else m
      savedObuf := outs
      savedSlots := (List.range slots.length).map fun j => (slots.getD j 0, j) }
  s.modCore r.site r.core fun k =>
    { k with
      mxq := k.mxq.filter fun m => m.ctx != r.ctx
      ebuf := k.ebuf.filter fun e => !(cmds.any fun m => m.job == e.job)
      obuf := k.obuf.filter fun e => e.ctx != r.ctx || e.dead
      slots := k.slots.map fun (a : AccSlot) => if a.ownedBy r.ctx then AccSlot.reset else a }

/-- RESERVED slots for the contexts chosen for resumption (R340). -/
def State.reserveSlots (s : State) (r : CtxRef) : State :=
  let c := s.ctx r
  if c.st = .preempted ∧ c.chosen then
    c.savedSlots.foldl (fun (s : State) x =>
      s.modSlot r.site r.core x.1 fun a => if a.state = .free then { a with state := .reserved, owner := r.ctx } else a) s
  else s

/-- One context is drained, saved and PREEMPTED (R374). -/
def State.preemptOne (s : State) (r : CtxRef) (hold test : Bool) : State :=
  let k := s.core r.site r.core
  let active := k.cp.filter fun a => a.ctx = r.ctx
  -- a copy stopped before and not back in the engine yet is recorded again
  let cp := active.orElse fun _ => (s.ctx r).savedCp
  let armed := (s.ctx r).cpArmed
  let claim := (s.ctx r).claim
  let s := (s.drainSfu r).saveEngine r
  let s := s.saveImage r claim cp armed
  let s := s.modCore r.site r.core fun k => if active.isSome then { k with cp := none } else k
  let s := (s.modCtx r fun c =>
    { c with
      wait := .none
      held := []
      savedClaim := claim
      savedCp := cp
      cpArmed := false
      preOrder := s.nextId
      hold := hold
      testHold := test
      chosen := !hold && !test
      preReq := false
      preHold := false
      testReq := false }).takeId.billSave r (hold || test)
  ((s.leave r .preempted).reserve r.site (octetOf r.core)).reserveSlots r

/-- The acceptance of a pending request by a context or gang, where it may accept one now: all members at one boundary (R187,
R374). -/
def State.accepted (s : State) (r : CtxRef) : Option State :=
  let ms := s.members r
  if (ms.any fun m => (s.ctx m).preReq || (s.ctx m).testReq) ∧ ms.all s.mayPreempt then
    let hold := ms.any fun m => (s.ctx m).preReq && (s.ctx m).preHold
    let test := ms.any fun m => (s.ctx m).testReq
    some (ms.foldl (fun s m => s.preemptOne m hold test) s)
  else none

/-- `preemptionAccept` event (R374, R187). -/
def execPreemptionAccept (r : CtxRef) (s : State) : Result := .next ((s.accepted r).getD s)

/-- What a context or gang takes at a bundle boundary: a store's cause, which belongs to an earlier bundle, then the pending
asynchronous cause with the lowest code, 0x20 first (R371); none where nothing is pending. -/
def State.takePending (s : State) (r : CtxRef) : Option State :=
  if (s.members r).all fun m => (s.ctx m).atBoundary then
    match s.gangCause r with
    | some (false, x) => some (s.takeAll r (false, x))
    | some (true, x) => some ((s.accepted r).getD (s.takeAll r (true, x)))
    | none => s.accepted r
  else none

/-- `trapEntry` event (R372). -/
def execTrapEntry (r : CtxRef) (s : State) : Result := .next ((s.takePending r).getD s)

/-! ### Resumption (R134, R191, R340, R363, R375, R378, R386) -/

/-- The reservations of a context stand: blocks of its whole claim and every slot it owned. -/
def State.reserved (s : State) (r : CtxRef) : Bool :=
  let c := s.ctx r
  c.st = .preempted && c.chosen &&
    decide (((s.octet r.site (octetOf r.core)).rsv.filter fun b => b.2 == r).length = c.savedClaim) &&
    c.savedSlots.all fun x =>
      let a := s.slotOf r.site r.core x.1
      a.state = .reserved && a.owner == r.ctx

/-- A slot's elements read back from the accumulator-save region. -/
def State.slotElems (s : State) (pa type : Nat) : Table W64 :=
  let es := if type = 2 then 8 else 4
  let n := 256 / es
  (List.range 64).foldl (fun t m => (List.range n).foldl (fun t j =>
    Table.set 0 t (64 * m + j) (BitVec.ofNat 64 (ofBytes (s.bytes (pa + 256 * m + es * j) es)))) t) []

/-- A recorded command read back: its doublewords, and the progress of the interrupted one. -/
def State.cmdBack (s : State) (o j : Nat) (m : MxCmd) : MxCmd :=
  let at_ (x : Nat) : Nat := o + x
  { m with
    dw := Vector.ofFn fun i : Fin 8 => s.dword (at_ (0x100 + 64 * j + 8 * i.val))
    next := if j = 0 ∧ m.started then bits (s.dword (at_ 0x80)) 32 32 else m.next }

/-- The engine's work comes back (R353, R378). -/
def State.loadEngine (s : State) (r : CtxRef) (from_ : Option Nat) : State :=
  let c := s.ctx r
  let s := match from_ with
    | none => s
    | some o =>
      let at_ (x : Nat) : Nat := o + x
      let head := s.dword (at_ 0)
      let s := c.savedSlots.foldl (fun (s : State) (x : Nat × Nat) =>
        let type := bits head (8 + 2 * x.1) 2
        s.modSlot r.site r.core x.1 fun _ => ⟨.owned, r.ctx, type, s.slotElems (at_ (0x1000 + 0x4000 * x.2)) type⟩) s
      s.modCtx r fun c => { c with mxstage := Vector.ofFn fun i : Fin 8 => s.dword (at_ (0x40 + 8 * i.val)) }
  let cmds := match from_ with
    | none => c.savedMx
    | some o => (List.range c.savedMx.length).filterMap fun j => (c.savedMx[j]?).map (s.cmdBack o j)
  s.modCore r.site r.core fun k => { k with obuf := c.savedObuf ++ k.obuf, mxq := k.mxq ++ cmds }

/-- The copies come back: the stopped one from its recorded progress, the shadow set behind it (R454). -/
def State.loadCopy (s : State) (r : CtxRef) : State :=
  let dw (i : Nat) : W64 := s.saveDw r (0x480 + 8 * i)
  s.modCtx r fun c =>
    { c with
      savedCp := c.savedCp.map fun a =>
        { a with
          off := bits (dw 0) 0 32, row := bits (dw 0) 32 16, src := dw 1, dst := dw 2, len := dw 3 &&& cplenMask,
          stride := dw 4, ctl := dw 5 &&& cpctlMask }
      cpArmed := bit (dw 6) 0
      cpsrc := dw 7
      cpdst := dw 8
      cplen := dw 9 &&& cplenMask
      cpstride := dw 10
      cpctl := dw 11 &&& cpctlMask }

/-- A context is restored and READY (R378). -/
def State.resumeOne (s : State) (r : CtxRef) : State :=
  let o := octetOf r.core
  let c := s.ctx r
  let engine := !(c.savedSlots.isEmpty && c.savedMx.isEmpty && c.savedObuf.isEmpty)
  let held := ((s.octet r.site o).rsv.filter fun b => b.2 == r).map (·.1)
  let s := s.modOctet r.site o fun x => { x with rsv := x.rsv.filter fun b => b.2 != r }
  let load := s.imageLoad r
  let s := s.modCtx r fun c => { s.loadImage r c c.savedClaim with held := sortBy id held }
  let s := match load with
    | none => s
    | some d => s.modCtx r fun c =>
        { c.loadBank d.bank.toNat (s.dictImage r.site r.core d.src) with dictOld := [] }
  let s := if engine then s.loadEngine r c.saveAt else s
  let s := s.modOctet r.site o fun x => { x with sfuq := x.sfuq ++ c.savedSfu }
  let s := s.loadCopy r
  let s := s.modCtx r fun c =>
    { c with savedClaim := 0, savedSlots := [], saveAt := none, savedMx := [], savedObuf := [], savedSfu := [], chosen := false }
  ((s.makeReady r).billCtx r).paySave r (s.ctx r).asid.toNat

/-- Everything that names a context by its place names the new one. -/
def State.rename (s : State) (a b : CtxRef) : State :=
  let f (r : CtxRef) : CtxRef := if r = a then b else r
  let s := s.mapRegions a.site (clusterOf a.core) fun _ e =>
    let g (h : Holder) : Holder := if h = holderOf a then holderOf b else h
    { e with
      state := match e.state with
        | .exclusive h => .exclusive (g h)
        | .shared hs => .shared (hs.map g)
        | .passing h t => .passing (h.map g) (g t)
        | x => x
      grantee := e.grantee.map g }
  { s with
    reqs := s.reqs.map fun q => { q with who := f q.who }
    watches := s.watches.map fun w => { w with who := f w.who } }

/-- The cores to which a context of a retired core may move: same rectangle and cluster, a FREE slot (R386). -/
def State.havens (s : State) (r : CtxRef) : List Nat :=
  ((List.range 64).map (64 * clusterOf r.core + ·)).filter fun c =>
    c != r.core && !(s.core r.site c).retired && s.inRect r.site c && s.rectOf r.site c == s.rectOf r.site r.core &&
      !(s.freeCtxs r.site c).isEmpty

/-- The work that a moving context leaves on its old core is done: its accesses are performed, its SFU busy flag is clear, its jobs
and issued chunks are over (R134, R326, R386). -/
def State.mayMove (s : State) (r : CtxRef) : Bool :=
  let k := s.core r.site r.core
  !(s.ctx r).sfuBusy && !(k.stw.any fun e => e.ctx == r.ctx) && !(k.jobs.any fun j => j.ctx == r.ctx) &&
    !(k.chunks.any fun c => c.ctx == r.ctx && !c.dead) && !(s.reqs.any fun q => q.who == r && !q.orphan) &&
    (s.ctx r).xslots.all (s.capsDone r)

/-- A context has a replay entry on its core. -/
def State.hasEntry (s : State) (r : CtxRef) : Bool := (s.core r.site r.core).rq.any fun e => e.ctx == r.ctx

/-- A context moves to a FREE slot of another core: constants and save area go with it, its holdings are renamed, its
footprint stays where it was granted (log entry 16). -/
def State.migrate (s : State) (r b : CtxRef) : State :=
  let s := s.setBytes (lmemPa b.site b.core (0x800 * b.ctx)) (s.bytes (lmemPa r.site r.core (0x800 * r.ctx)) 0x800)
  let s := s.setBytes (savePa b 0) (s.bytes (savePa r 0) 0x5000)
  let c := s.ctx r
  let s := (s.setCtx b { c with savedObuf := c.savedObuf.map fun e => { e with ctx := b.ctx }
                                savedMx := c.savedMx.map fun m => { m with ctx := b.ctx }
                                savedCp := c.savedCp.map fun a => { a with ctx := b.ctx }
                                was := if b.ctx = r.ctx then c.was else r.ctx :: c.was
                                fpCore := some (c.fpCore.getD r.core) }).setCtx r Ctx.reset
  let s := s.modCore r.site r.core fun k =>
    { k with slots := k.slots.map fun a => if a.state = .reserved ∧ a.owner = r.ctx then AccSlot.reset else a }
  let s := s.modOctet r.site (octetOf r.core) fun o => { o with rsv := o.rsv.filter fun x => x.2 != r }
  (((s.rename r b).rdcUnbound b.site).reserve b.site (octetOf b.core)).reserveSlots b

/-- The queues have room for what the members bring back: 16 commands and 16 output-buffer entries on each core, 16 requests in
the octet (R325, R330, R343). -/
def State.resumeRoom (s : State) (ms : List CtxRef) : Bool :=
  (ms.all fun m =>
    let k := s.core m.site m.core
    let c := s.ctx m
    decide (k.mxq.length + c.savedMx.length ≤ 16) && decide (k.obuf.length + c.savedObuf.length ≤ 16)) &&
  (match ms with
    | [] => true
    | m :: _ => decide ((s.octet m.site (octetOf m.core)).sfuq.length + (ms.flatMap fun m => (s.ctx m).savedSfu).length ≤ 16))

/-- The recorded SFU requests of a context that is to move go back to its octet's queue, where they complete: the move waits for the
busy flag to clear (R326; log entry 70). -/
def State.requeueSfu (s : State) (r : CtxRef) : State :=
  let o := octetOf r.core
  let l := (s.ctx r).savedSfu
  if 16 < (s.octet r.site o).sfuq.length + l.length then s
  else (s.modOctet r.site o fun x => { x with sfuq := x.sfuq ++ l }).modCtx r fun c => { c with savedSfu := [] }

/-- `resumption` event (R378): the reservations that can be made are made; a context, or a whole gang, whose
reservations all stand is restored, once the queues have room. A context of a retired core moves first, or ends (R386). -/
def execResumption (r : CtxRef) (s : State) : Result :=
  let c := s.ctx r
  if c.st ≠ .preempted ∨ !c.chosen then .next s
  else if (s.core r.site r.core).retired then
    if s.hasEntry r then .next (s.endContext r 0x30 0)
    else if !c.savedSfu.isEmpty then .next (s.requeueSfu r)
    else if !s.mayMove r then .next s
    else
      let l := s.havens r
      match l[s.choose l.length]? with
      | none => .next (s.endContext r 0x30 0)
      | some k => .next (s.next.migrate r ⟨r.site, k, (s.freeCtxs r.site k).headD 0⟩)
  else
    let ms := s.members r
    let s := ms.foldl (fun s m => (s.reserve m.site (octetOf m.core)).reserveSlots m) s
    if ms.all s.reserved && s.resumeRoom ms then .next (ms.foldl State.resumeOne s) else .next s

/-! ### The pre-emption register (R379) -/

/-- OP 0 or 1: a request to a context; dropped by a FREE or HALTING one. -/
def Ctx.asked (c : Ctx) (hold : Bool) : Ctx :=
  if c.st = .free ∨ c.st = .halting then c else { c with preReq := true, preHold := hold }

/-- A change of who holds a context: a saved one that neither the host nor self-test holds may be chosen for resumption. -/
def State.letGo (s : State) (r : CtxRef) (f : Ctx → Ctx) : State :=
  let s := s.modCtx r f
  let c := s.ctx r
  if c.saved ∧ !c.hold ∧ !c.testHold then
    ((s.modCtx r fun c => { c with chosen := true }).reserve r.site (octetOf r.core)).reserveSlots r
  else s

/-- OP 2: a held context may be chosen for resumption, also one that the halt tree has stopped. -/
def State.unhold (s : State) (r : CtxRef) : State :=
  (s.members r).foldl (fun s m => s.letGo m fun c => { c with hold := false, preHold := false }) s

/-- The contexts that CTXM names. -/
def ctxsNamed (site core : Nat) (ctxm : BitVec 4) : List CtxRef :=
  ((List.range 4).filter fun i => ctxm.getLsbD i).map fun i => ⟨site, core, i⟩

/-- A write of PREEMPT with GO performs OP, or sets ERR. -/
def State.preemptOp (s : State) (site core : Nat) (ctxm : BitVec 4) (op : Nat) : State :=
  let v := core % 256 + ctxm.toNat * 256 + op % 4 * 4096
  if !s.inRect site core ∨ 2 < op then s.setSreg site 0x3600 (BitVec.ofNat 64 (v + 65536))
  else
    let s := (s.setSreg site 0x3600 (BitVec.ofNat 64 v)).ungateDie site
    (ctxsNamed site core ctxm).foldl (fun s r => if op = 2 then s.unhold r else s.modCtx r fun c => c.asked (op = 1)) s

/-- `preEmpt` event. -/
def execPreEmpt (site core : Nat) (ctxm : BitVec 4) (s : State) : Result := .next (s.preemptOp site core ctxm 0)

/-- `preEmptAndHold` event. -/
def execPreEmptAndHold (site core : Nat) (ctxm : BitVec 4) (s : State) : Result := .next (s.preemptOp site core ctxm 1)

/-- `resumeHeldContexts` event. -/
def execResumeHeldContexts (site core : Nat) (ctxm : BitVec 4) (s : State) : Result := .next (s.preemptOp site core ctxm 2)

/-! ### The halt tree (R384, R385) -/

/-- `haltTreeStop` event. -/
def execHaltTreeStop (site : Nat) (s : State) : Result := .next (s.haltStop (s.phys site))

/-- What ended while a context was STOPPED is seen at its release. -/
def State.recheck (s : State) (r : CtxRef) : State :=
  let c := s.ctx r
  match c.st with
  | .parked => s.unpark r
  | .waiting =>
    let flip := match c.wait with
      | .waitb g => c.girthFlip.getLsbD g.toNat
      | .arrive g => !(s.die r.site).garrived g.toNat r.core
      | _ => false
    if c.fired.isSome || flip || (s.boundaryCause r).isSome then s.rouse r else s.wake r
  | _ => s

/-- A STOPPED context returns to its prior state; a RUNNING one to the core, unless another owns it now. -/
def State.releaseCtx (s : State) (r : CtxRef) : State :=
  let c := s.ctx r
  if c.st ≠ .stopped then s
  else
    let s := s.modCtx r fun c => { c with st := c.prior, prior := .free }
    if c.prior ≠ .running then s
    else if ((s.core r.site r.core).owner).isSome then s.modCtx r fun c => { c with st := .ready }
    else s.modCore r.site r.core fun k => { k with owner := some r.ctx }

/-- A core without an owner takes the next READY context. -/
def State.refillOwner (s : State) (site core : Nat) : State :=
  match (s.core site core).owner with
  | some _ => s
  | none => s.passOwner site core (s.core site core).last

/-- RELEASE of the partition of hub `h` (R384, R385). -/
def State.haltRelease (s : State) (h : Nat) : State :=
  let v := s.hreg h 0x3608
  (s.htDies h).foldl (fun s d =>
    let rs := s.liveCtxs.filter fun r => r.site = d ∧ (s.ctx r).st = .stopped
    let s := rs.foldl State.releaseCtx s
    let s := rs.foldl State.recheck s
    let s := (rs.map (·.core)).eraseDups.foldl (fun s c => s.refillOwner d c) s
    let s := { s with cores := Table.mapVals (fun k (c : Core) =>
      if k / 256 = d then { c with msgSent := 0, msgRecv := 0 } else c) s.cores }
    let s := s.setSreg d 0x3608 (putBits (s.sreg d 0x3608) 4 1 0)
    if bit v 2 then rs.foldl (fun s r => s.pendCause r 0x23 (BitVec.ofNat 64 (bits v 16 16))) s else s) s

/-- `haltTreeRelease` event. -/
def execHaltTreeRelease (site : Nat) (s : State) : Result := .next (s.haltRelease (s.phys site))

/-! ### Grades (R1 to R3, R434, R435) -/

/-- Minima of the ordering codes: compute dies, cores, sites. -/
def gradeMinima : List (Nat × Nat × Nat) := [(62, 15360, 62), (58, 14336, 58), (52, 12800, 52)]

/-- The highest grade from `from_` down whose minima are all met; 3 for none. -/
def gradeOf (from_ dies cores sites : Nat) : Nat :=
  ((List.range 3).find? fun g =>
    decide (from_ ≤ g) &&
      (match gradeMinima[g]? with
        | some m => decide (m.1 ≤ dies) && decide (m.2.1 ≤ cores) && decide (m.2.2 ≤ sites)
        | none => false)).getD 3

/-- GRADE computed anew. -/
def State.regrade (s : State) : State :=
  let l := (List.range s.nSites).filter s.computeSite
  let cores := (l.map s.goodCores).foldl (· + ·) 0
  let as_ := Config.shippedGrade.val
  { s with grade := BitVec.ofNat 64 (as_ + gradeOf as_ l.length cores s.nSites * 4 + l.length * 16 + s.nSites * 2048 +
      cores * 262144) }

/-! ### Roving self-test (R386) -/

/-- The core to test next: the first in rectangles after the last one, in ascending order around the die; core 0 where none
has been tested or skipped yet. -/
def State.nextTested (s : State) (site : Nat) : Option Nat :=
  let v := (s.die site).ststat
  let from_ := if bits v 9 55 = 0 then 0 else bits v 0 8 + 1
  ((List.range 256).map fun i => (from_ + i) % 256).find? fun c => s.inRect site c && !(s.core site c).retired

/-- The engine's request to a context, beside any of the host's: pre-emption with hold; one that is PREEMPTED already is held from
now on. -/
def Ctx.askedTest (c : Ctx) : Ctx :=
  if c.saved then { c with testHold := true, chosen := false } else { c with testReq := true }

/-- `selfTestStart` event: pre-emption with hold is asked of the contexts of the next core. -/
def execSelfTestStart (site : Nat) (s : State) : Result :=
  let d := s.die site
  if !bit d.stctl 0 ∨ d.testing.isSome then .next s
  else
    match s.nextTested site with
    | none => .next s
    | some c =>
      let asked := (List.range 4).filter fun i =>
        let x := s.ctx ⟨site, c, i⟩
        x.st ≠ .free ∧ x.st ≠ .halting
      let s := asked.foldl (fun s i => s.modCtx ⟨site, c, i⟩ fun x => x.askedTest) s
      .next (s.modDie site fun d => { d with testing := some (c, asked), ststat := putBits d.ststat 0 9 (c + 256) })

/-- The contexts that the test took go on, where the host does not hold them; its own requests stand. -/
def State.testOver (s : State) (site core : Nat) (asked : List Nat) : State :=
  let s := asked.foldl (fun s i => (s.members ⟨site, core, i⟩).foldl (fun s m =>
    s.letGo m fun c => { c with testReq := false, testHold := false }) s) s
  s.modDie site fun d => { d with testing := none, ststat := putBits d.ststat 8 1 0 }

/-- Every context of the core under test has accepted, or holds no task. -/
def State.testReady (s : State) (site core : Nat) : Bool :=
  (List.range 4).all fun i =>
    let x := s.ctx ⟨site, core, i⟩
    x.st = .free || x.saved

/-- `selfTestWithdraw` event. -/
def execSelfTestWithdraw (site : Nat) (s : State) : Result :=
  match (s.die site).testing with
  | none => .next s
  | some (c, asked) =>
    if s.testReady site c then .next s
    else
      .next ((s.testOver site c asked).modDie site fun d =>
        { d with ststat := putBits d.ststat 9 7 (min 127 (bits d.ststat 9 7 + 1)) })

/-- The PREEMPTED contexts of a core that failed: those that cannot move end with cause 0x30, the others are to be
resumed elsewhere; one that the host holds, when OP 2 names it. -/
def State.evacuate (s : State) (r : CtxRef) : State :=
  let c := s.ctx r
  if !c.saved then s
  else if c.gang ∨ s.hasEntry r ∨ (s.havens r).isEmpty then s.endContext r 0x30 0
  else s.letGo r fun c => { c with testHold := false }

/-- `selfTestResult` event. -/
def execSelfTestResult (site : Nat) (pass : Bool) (s : State) : Result :=
  match (s.die site).testing with
  | none => .next s
  | some (c, asked) =>
    if !s.testReady site c then .next s
    else if pass then
      .next (((s.testOver site c asked).bill site 0).modDie site fun d =>
        { d with ststat := putBits d.ststat 32 32 (bits d.ststat 32 32 + 1) })
    else
      let s := s.modDie site fun d =>
        { d with testing := none, ststat := putBits (putBits d.ststat 8 1 0) 16 16 (bits d.ststat 16 16 + 1) }
      let s := s.modCore site c fun k => { k with retired := true }
      .next ((List.range 4).foldl (fun s i => s.evacuate ⟨site, c, i⟩) (s.bill site 0).regrade)

/-! ### Checkpoint intervals and rollback (R387, R388) -/

/-- Some context of a group is not FREE, or the group is rolling back. -/
def State.groupLive (s : State) (g : Nat) : Bool := s.rollbacks.contains g || s.liveCtxs.any fun r => s.cgroup (s.ctx r).asid.toNat == g

/-- The result fields of CKCMD: DONE and ERR. -/
def State.ckResult (s : State) (site : Nat) (done err : Bool) : State :=
  s.setSreg site 0x3618 (putBits (s.sreg site 0x3618) 16 2 ((if done then 1 else 0) + if err then 2 else 0))

/-- A group's undo records become dead. -/
def State.deadUndo (s : State) (g : Nat) : State :=
  { s with hubs := Table.mapVals (fun _ (u : Hub) =>
    { u with undo := u.undo.map fun x => if x.group = g then { x with dead := true } else x }) s.hubs }

/-- Set a group's state. -/
def State.setGroup (s : State) (g : Nat) (v : CkGroup) : State := { s with groups := Table.put s.groups g v }

/-- OP 1: opens an interval, unless a context of the group exists. Group 0 contains nothing and is never logged. -/
def State.ckOpen (s : State) (site g : Nat) : State :=
  if g = 0 then s.ckResult site true false
  else if s.groupLive g then s.ckResult site true true
  else ((s.deadUndo g).setGroup g ⟨1, false⟩).ckResult site true false

/-- OP 2: closes the interval. -/
def State.ckClose (s : State) (site g : Nat) : State :=
  let v := Table.get (⟨0, false⟩ : CkGroup) s.groups g
  let s := if v.st = 1 then (s.deadUndo g).setGroup g ⟨0, v.ovf⟩ else s
  s.ckResult site true false

/-- OP 3: complete at once, or once the last merged reduction of the group has been applied. -/
def State.ckRollback (s : State) (site g : Nat) : State :=
  let s := if g = 0 then s else s.rollback g
  if s.rollbacks.contains g then (s.ckResult site false false).modHub (s.phys site) fun u => { u with ckBusy := true }
  else s.ckResult site true false

/-- A task is in flight. -/
def State.busyTasks (s : State) : Bool := !s.liveCtxs.isEmpty || s.launches.any (·.inflight)

/-- Cached copies of lines that a copy of the keep tier into DRAM may change are dropped. -/
def State.dropCopies (s : State) : State :=
  { s with
    cores := Table.mapVals (fun _ (c : Core) => { c with l1 := [] }) s.cores
    dies := Table.mapVals (fun _ (d : Die) => { d with rdc := d.rdc.filter fun l => l.dirty.any id }) s.dies }

/-- Lines of DRAM and of the keep chiplets that the host holds. -/
def State.ckHeld (s : State) : List Nat := (s.l2.filter fun l => l.host && decide (paRegion (l.line * 128) < 2)).map (·.line)

/-- Poisoned lines after a copy: each line copied takes what its source is, poisoned or not (R94; log entry 83). -/
def copyPoison (toKeep : Bool) (l : List Nat) : List Nat :=
  let dst := if toKeep then 1 else 0
  let kept := l.filter fun x => paRegion (x * 128) != dst
  kept ++ (kept.filter fun x => decide (paRegion (x * 128) < 2)).map fun x =>
    if toKeep then x + 2199023255552 else x - 2199023255552

/-- Every site's DRAM goes to its keep chiplet, or the reverse, line for line (R387). Lines that cores own come back first
(R146). -/
def State.ckMove (s : State) (toKeep : Bool) : State :=
  let s : State := { s with cores := Table.mapVals (fun _ (c : Core) => { c with owned := [] }) s.cores }
  let cell (r : Nat) : List Host.Cell := s.mem.filter fun e => e.1 / 281474976710656 = r
  let rest : List Host.Cell := s.mem.filter fun e => 1 < e.1 / 281474976710656
  let s : State := { s with poison := copyPoison toKeep s.poison }
  if toKeep then { s with mem := cell 0 ++ ((cell 0).map fun e => (e.1 + 281474976710656, e.2)) ++ rest }
  else ({ s with mem := ((cell 1).map fun e => (e.1 - 281474976710656, e.2)) ++ cell 1 ++ rest } : State).dropCopies

/-- OP 4 and 5 (R387). While the host holds a line that the copy reads or writes, the copy waits for it (R139). -/
def State.ckCopy (s : State) (site : Nat) (toKeep : Bool) : State :=
  if s.busyTasks then s.ckResult site true true
  else
    let held := s.ckHeld
    let s := if held.isEmpty then s.ckMove toKeep else held.foldl State.snoop s
    -- the traffic is charged to system account 0
    let s := (List.range s.nSites).foldl (fun s d => s.bill d 0) s
    (s.ckResult site false false).modHub (s.phys site) fun u => { u with ckBusy := true, ckWait := !held.isEmpty }

/-- A write of CKCMD with GO. -/
def State.ckOp (s : State) (site g op : Nat) : State :=
  match op with
  | 1 => s.ckOpen site g
  | 2 => s.ckClose site g
  | 3 => s.ckRollback site g
  | 4 => s.ckCopy site true
  | 5 => s.ckCopy site false
  | _ => s.ckResult site true false

/-- The fields that a write with GO leaves in CKCMD. -/
def State.ckSet (s : State) (site g op : Nat) : State := s.setSreg site 0x3618 (BitVec.ofNat 64 (g % 4096 + op * 4096))

/-- `openInterval` event. -/
def execOpenInterval (site group : Nat) (s : State) : Result := .next ((s.ckSet site group 1).ckOp site group 1)

/-- `closeInterval` event. -/
def execCloseInterval (site group : Nat) (s : State) : Result := .next ((s.ckSet site group 2).ckOp site group 2)

/-- `rollBack` event. -/
def execRollBack (site group : Nat) (s : State) : Result := .next ((s.ckSet site group 3).ckOp site group 3)

/-- `copyDramToKeep` event. -/
def execCopyDramToKeep (site : Nat) (s : State) : Result :=
  let g := bits (s.sreg site 0x3618) 0 12
  .next ((s.ckSet site g 4).ckOp site g 4)

/-- `copyKeepToDram` event. -/
def execCopyKeepToDram (site : Nat) (s : State) : Result :=
  let g := bits (s.sreg site 0x3618) 0 12
  .next ((s.ckSet site g 5).ckOp site g 5)

/-- `checkpointOpDone` event. -/
def execCheckpointOpDone (site : Nat) (s : State) : Result :=
  let u := s.hub (s.phys site)
  if u.ckBusy ∧ s.rollbacks.isEmpty then
    if u.ckWait ∧ !s.ckHeld.isEmpty then .next (s.ckHeld.foldl State.snoop s)
    else
      let s := if u.ckWait then s.ckMove (decide (bits (s.sreg site 0x3618) 12 3 = 4)) else s
      .next ((s.ckResult site true false).modHub (s.phys site) fun u => { u with ckBusy := false, ckWait := false })
  else .next s

/-! ### Memory errors (R93 to R96) -/

/-- One more event in a field of ECCCE or ECCUE of a site. -/
def State.countEcc (s : State) (site : Nat) (ue : Bool) (field : Nat) : State :=
  let off := if ue then 0x2018 else 0x2010
  let v := s.sreg site off
  s.setSreg site off (putBits v (16 * field) 16 (min 65535 (bits v (16 * field) 16 + 1)))

/-- A line is poisoned at its home; POISONADDR names it. -/
def State.poisonLine (s : State) (line home : Nat) : State :=
  ({ s with poison := line :: s.poison.filter (· != line) } : State).setSreg home 0x2020
    (BitVec.ofNat 64 (1 + line % 35184372088832 * 128))

/-- Home of a line of regions 0x0 and 0x1. -/
def lineHome (line : Nat) : Nat := paSite (line * 128)

/-- An uncorrectable error in a line of a site's L2: a dirty line is poisoned at its home, a clean one dropped and fetched
again; the directory of a line that the host holds or a core owns stays (R94). -/
def State.l2Error (s : State) (line : Nat) : State :=
  match s.l2.find? fun l => l.line = line with
  | none => s
  | some l =>
    let s := if l.host || (s.ownerOf line).isSome then s else { s with l2 := s.l2.filter fun x => x.line != line }
    if l.dirty then (s.poisonLine line l.home).countEcc l.home true 1 else s.countEcc l.home false 1

/-- An uncorrectable error in a line of a die's remote-data cache: the line leaves with the die's L1 copies (R79), and a dirty
one is poisoned at its home (R94). -/
def State.rdcError (s : State) (site line : Nat) : State :=
  match s.rdcFind site line with
  | none => s
  | some l =>
    let s := (s.modDie site fun d => { d with rdc := d.rdc.filter fun x => x.line != line }).l1Drop site line none
    if l.dirty.any id then (s.poisonLine line l.home).countEcc site true 1 else s.countEcc site false 1

/-- An error in a word of local memory. -/
def State.localError (s : State) (site core off : Nat) : State :=
  let off := off / 8 * 8
  let s := s.countEcc site true 0
  let pa := lmemPa site core off
  let owners : List CtxRef :=
    if off < 0x2000 then [⟨site, core, off / 0x800⟩]
    else if off < 0x16000 then [⟨site, core, (off - 0x2000) / 0x5000⟩]
    else (s.core site core).regions.flatMap fun e =>
      if e.2.used ∧ 64 * e.2.base ≤ off ∧ off < 64 * (e.2.base + e.2.len) then e.2.owners.map (holderRef site core) else []
  let covered := (s.core site core).overlaps (off / 64) 1
  let live := owners.filter fun r => (s.ctx r).st ≠ .free
  if live.isEmpty ∧ !covered then s.setDword pa 0 else live.foldl (fun s r => s.fatalTo r 0x30 (BitVec.ofNat 64 pa)) s

/-- An error in a region-table entry: every holder takes cause 0x30, the entry becomes FREE. -/
def State.regionError (s : State) (site core slot : Nat) : State :=
  let e := (s.core site core).region slot
  if !e.used then s
  else
    let s := (s.countEcc site true 0).modRegion site core slot Region.freed
    e.holders.foldl (fun s h => s.fatalTo (holderRef site core h) 0x30 (BitVec.ofNat 64 (lmemPa site core (64 * e.base)))) s

/-- `uncorrectableError` event (R94). -/
def execUncorrectableError (e : ErrWhere) (s : State) : Result :=
  .next (match e with
    | .l1Line site core line =>
      (s.modCore site core fun k => { k with l1 := k.l1.filter fun l => l.line != line }).countEcc site false 1
    | .icLine site core line =>
      (s.modCore site core fun k => { k with ic := k.ic.filter fun l => l.line != line }).countEcc site false 1
    | .rdcLine site line => s.rdcError site line
    | .l2Line line => s.l2Error line
    | .memLine line =>
      let home := lineHome line
      (s.poisonLine line home).countEcc home true (if paRegion (line * 128) = 1 then 3 else 2)
    | .localWord site core off => s.localError site core off
    | .regionEntry site core slot => s.regionError site core slot)

/-- A corrected error in a storage array of a site and its die, by the field of ECCCE that counts it (R93, R96). -/
def State.correctedError (s : State) (site field : Nat) : State := s.countEcc site false (field % 4)

/-- `patrolScrub` event (R95): the next line of the site's DRAM; its energy goes to system account 0. -/
def execPatrolScrub (site : Nat) (find : ScrubFind) (s : State) : Result :=
  if !bit (s.sreg site 0x2000) 0 then .next s
  else
    let v := s.sreg site 0x2008
    let n := bits v 7 29
    let s := match find with
      | .clean => s
      | .corrected => s.countEcc site false 2
      | .uncorrectable => (s.poisonLine (mkPa 0 site (128 * n) / 128) site).countEcc site true 2
    let v := if n = 536870911 then putBits (putBits v 7 29 0) 36 12 (bits v 36 12 + 1) else putBits v 7 29 (n + 1)
    .next ((s.setSreg site 0x2008 v).bill site 0)

end Sys2Proof.Machine
end

