-- ==== Sys2Proof/Machine/Fabric.lean ====
section
/-! DEFINITION. Bring-up, host ports, module links, attestation and the sideband, and the writes of hub registers
(R6, R14 to R17, R25, R91, R138, R139, R413, R418, R420 to R437, R452, R453). -/

namespace Sys2Proof.Machine

/-! ### Module links (R430 to R433) -/

/-- A link by port. -/
def State.link (s : State) (port : Nat) : Link := Table.get ⟨false, 0⟩ s.links port

/-- The module accepts what comes over a port: the peer there has a valid map entry (R430). -/
def State.linkTakes (s : State) (port : Nat) : Bool :=
  let l := s.link port
  let e := s.sreg 0 (0x1B80 + 8 * l.peer)
  l.up && bit e 7 && !s.halter

/-- A peer's copy may reach an address of this module: regions 0x0 to 0x2, within one line. -/
def State.peerMay (s : State) (pa n : Nat) : Bool :=
  decide (paRegion pa ≤ 2) && s.hasTarget pa && decide (pa % 128 + n ≤ 128)

/-- The chunk of a copy that an answer is for: its core and the chunk. -/
def State.chunkOf (s : State) (id : Nat) : Option (Nat × Nat × Chunk) :=
  s.cores.findSome? fun e => (e.2.chunks.find? fun c => c.id = id).map fun c => (e.1 / 256, e.1 % 256, c)

/-- The side of a chunk that lies on a peer module. -/
def Chunk.peerVa (c : Chunk) : W64 := if c.peer = 1 then c.src else c.dst

/-- A chunk waits for an answer of its peer. -/
def Chunk.awaits (c : Chunk) : Bool :=
  (c.peer = 1 && c.stage == .reading) || c.stage == .sent

/-- A peer's read or write of a line becomes a request to the line's home, which makes the line ready as for any other
(R99, R146); it is no context's. -/
def State.peerReq (s : State) (port id pa n : Nat) (kind : ReqKind) : State :=
  let q : Req :=
    { id := s.nextId, who := ⟨s.siteOf (linkHub port), 256 + port, 0⟩, asid := 0, va := 0, pa := pa, home := paSite (s.plain pa)
      kind := kind, stage := .sent, refusals := 0, overtaken := 0, data := [], value := 0, status := 0
      install := false, orphan := true, device := false, uncached := false, grp := s.nextId, page := n, ext := some (port, id), fwd := [], replayed := false }
  { s with reqs := s.reqs ++ [q], nextId := s.nextId + 1 }

/-- The answer to a peer's request leaves over its link; a link that is down loses it, its copy having ended there (R433). -/
def State.peerAnswer (s : State) (port : Nat) (f : Flit) : State := if (s.link port).up then s.emit (.flit port f) else s

/-- What a flit does that a peer sends (R352, R431, R432). -/
def State.flitIn (s : State) (port : Nat) (f : Flit) : State :=
  match f with
  | .copyReadReq id pa n =>
    if s.peerMay pa n then s.peerReq port id pa n (.load .ahead) else s.emit (.flit port (.copyRefused id))
  | .copyWriteReq id pa data =>
    if s.peerMay pa data.length then s.peerReq port id pa data.length (.writeback (runAt (pa % 128) data) 64)
    else s.emit (.flit port (.copyRefused id))
  | .copyReadReply id data =>
    match s.chunkOf id with
    | some (site, core, _) =>
      s.setChunks site core fun l => l.map fun x =>
        if x.id = id ∧ x.stage = .reading then { x with stage := .bytes (data.take x.n) } else x
    | none => s
  | .copyWriteAck id =>
    match s.chunkOf id with
    | some (site, core, _) => s.setChunks site core fun l => l.filter fun x => x.id != id
    | none => s
  | .copyRefused id =>
    match s.chunkOf id with
    | some (site, core, c) => s.chunkFault site core c 8 c.peerVa
    | none => s
  | .copyPoisoned id =>
    match s.chunkOf id with
    | some (site, core, c) =>
      let s := s.setChunks site core fun l => l.filter fun x => x.id != id
      if c.dead then s
      else s.modCtx ⟨site, core, c.ctx⟩ fun x => { x with fatal := some (0x30, BitVec.ofNat 64 (c.peerVa.toNat / 128 * 128)) }
    | none => s
  | .exchange id push pa v w page =>
    -- the packet enters at the port's edge hub and follows that hub's route to its home (R431)
    let site := s.siteOf (linkHub port)
    let r : CtxRef := ⟨site, 256 + port, 0⟩
    let kind : ReqKind := if push then .push v w 0 .system else .pop w 0 0 .system
    let q : Req :=
      { id := s.nextId, who := r, asid := 0, va := 0, pa := pa, home := paSite (s.plain pa), kind := kind,
        stage := .atSwitch 0 (s.nextId + 1), refusals := 0, overtaken := 0, data := [], value := 0, status := 0,
        install := false, orphan := true, device := false, uncached := false, grp := s.nextId, page := page, ext := some (port, id), fwd := [], replayed := false }
    if paRegion pa ≤ 2 ∧ s.hasTarget pa then { s with reqs := s.reqs ++ [q], nextId := s.nextId + 2 }
    else s.emit (.flit port (.exchangeReply id 2 0))
  | .exchangeReply id status v =>
    s.modReq id fun q => if q.stage = .peer then { q with stage := .done, status := status, value := v } else q
  | .barrier g parity =>
    let code := 64 + (s.link port).peer + if parity then 32 else 0
    { s with dies := (List.range s.nSites).foldl (fun ds d =>
        if s.computeSite d then
          let x := Table.get Die.reset ds d
          Table.put ds d { x with barrier := x.barrier ++ [(g, code)] }
        else ds) s.dies }

/-- `moduleLinkFlit` event (R430): a flit whose CRC fails is sent again by the peer. -/
def execModuleLinkFlit (port : Nat) (crcOk : Bool) (flit : Flit) (s : State) : Result :=
  if crcOk && s.linkTakes port then .next (s.flitIn port flit) else .next s

/-- A peer module no longer answers a core's copies: each copy with an access under way there ends with reason 8 (R347,
R433); its other accesses there are over with it. -/
def State.cutCopies (s : State) (pmod : Nat) (e : Nat × Core) : State :=
  let site := e.1 / 256
  let core := e.1 % 256
  let lost := e.2.chunks.filter fun c => c.awaits && c.pmod = pmod
  lost.foldl (fun s c =>
    if (s.core site core).chunks.any fun x => x.id = c.id then
      (s.chunkFault site core c 8 c.peerVa).setChunks site core fun l => l.filter fun x => x.job != c.job || !x.awaits
    else s) s

/-- `moduleLinkDown` event (R433): copies to the module end with reason 8 where the map names this port for it. -/
def execModuleLinkDown (port : Nat) (s : State) : Result :=
  let l := s.link port
  if !l.up then .next s
  else
    let s := { s with links := Table.put s.links port { l with up := false } }
    .next (if bits (s.sreg 0 (0x1B80 + 8 * l.peer)) 0 5 = port then s.cores.foldl (fun s e => s.cutCopies l.peer e) s else s)

/-- Barrier reports that waited for a module are sent, each with the parity of its phase, once the map's link to it is up
(R433). -/
def State.sendHeld (s : State) (port m : Nat) : State :=
  if !s.peerOk m ∨ bits (s.sreg 0 (0x1B80 + 8 * m)) 0 5 ≠ port then s
  else
    (List.range s.nSites).foldl (fun s d =>
      let l := (s.die d).barrier.filter fun b => b.2 = 128 + m ∨ b.2 = 160 + m
      let s := l.foldl (fun s b => s.emit (.flit port (.barrier b.1 (b.2 = 160 + m)))) s
      if l.isEmpty then s
      else s.modDie d fun x => { x with barrier := x.barrier.filter fun b => b.2 != 128 + m && b.2 != 160 + m }) s

/-- `moduleLinkRetrain` event (R430, R433): the link is up with a peer that reports its number; held replies and barrier
packets go out. -/
def execModuleLinkRetrain (port peer : Nat) (s : State) : Result :=
  if s.halter then .next s
  else
    let s := { s with links := Table.put s.links port ⟨true, peer⟩ }
    let held := s.reqs.filter fun q => q.stage = .done ∧ q.kind.exch ∧ (q.ext.map (·.1)) = some port
    let s := held.foldl (fun s q =>
      match q.ext with
      | some (p, id) => (s.emit (.flit p (.exchangeReply id q.status q.value))).dropReq q.id
      | none => s) s
    .next (s.sendHeld port peer)

/-- `peerReplyTimeout` event (R433). -/
def execPeerReplyTimeout (id : Nat) (s : State) : Result :=
  match s.req id with
  | none => .next s
  | some q =>
    match q.stage, s.peerWin q.pa with
    | .peer, some (pmod, _) =>
      if s.linkUp pmod then .next s
      else .next ((s.dropReq id).fatalTo q.who 0x30 (BitVec.ofNat 64 q.pa))
    | _, _ => .next s

/-! ### Failed starts and halter mode (R427) -/

/-- A stage of the start is reached. -/
def State.reach_ (s : State) (n : Nat) : State := if s.starting then { s with stage := max s.stage n } else s

/-- A start fails with a reason; the third failure in a row puts the module into halter mode. -/
def State.failStart (s : State) (reason : Nat) : State :=
  let fails := min 3 (bits s.bootstat 4 2 + 1)
  let s := { s with bootstat := putBits (putBits s.bootstat 0 4 reason) 4 2 fails, starting := false }
  if fails < 3 then s
  else
    { s with
      bootstat := putBits s.bootstat 6 1 1
      hubs := Table.mapVals (fun h (u : Hub) => { u with st := if s.edgeUp h then .linked else .off, linked := s.edgeUp h }) s.hubs
      links := []
      sites := [] }

/-- Physical memory that outlives a start: the keep chiplets and the host's own memory (R92). -/
def State.keptMem (s : State) : List Host.Cell :=
  s.mem.filter fun e => e.1 / 281474976710656 = 1 || decide (8 ≤ e.1 / 281474976710656)

/-- What a start leaves as it was: the standby store, the manifest's hash, the keep tier, what the outside holds. -/
def State.afresh (s : State) : State :=
  { State.reset with
    mem := s.keptMem
    poison := s.poison.filter fun l => paRegion (l * 128) = 1
    nextId := s.nextId
    nextLser := s.nextLser
    out := s.out
    bootstat := s.bootstat
    manifest := s.manifest
    grade := s.grade
    coolant := s.coolant
    standby := s.standby
    mainPower := s.mainPower
    tick := s.tick
    agenda := s.agenda
    cur := s.cur }

/-- The registers of an edge hub right after a start: a fresh BOOTNONCE (R425). -/
def bootHub (tick h : Nat) : Hub :=
  if edgeHub h then
    { Hub.reset with regs := (List.range 4).map fun i => (0x120 + 8 * i, Config.freeWord (tick + i)) }
  else Hub.reset

/-- A start begins (R422, R427): every hub goes to OFF. -/
def State.beginStart (s : State) : State :=
  let s := if s.starting then s.failStart 7 else s
  if s.halter then s
  else
    let t := s.afresh
    { t with
      hubs := (List.range 64).map fun h => (h, bootHub s.tick h)
      bootstat := putBits s.bootstat 16 32 (bits s.bootstat 16 32 + 1)
      starting := true
      stage := 1
      tick := s.tick + 4 }

/-- `powerOn` event (R422): in halter mode the edge hubs stand at LINKED and nothing else starts. -/
def execPowerOn (s : State) : Result :=
  if s.mainPower then .next s
  else
    let s := { s with mainPower := true }
    if s.halter then
      .next { s with hubs := (List.range 64).map fun h =>
        (h, if edgeHub h then { bootHub s.tick h with st := .linked, linked := true } else Hub.reset), tick := s.tick + 4 }
    else .next s.beginStart

/-- BOOTCMD.START at an edge hub. -/
def State.cmdStart (s : State) : State := if s.mainPower && !s.halter then s.beginStart else s

/-- `bootcmdStart` event (R426). -/
def execBootcmdStart (hub : Nat) (s : State) : Result := .next (if edgeHub hub then s.cmdStart else s)

/-- `startFailure` event. -/
def execStartFailure (s : State) : Result := .next (if s.starting then s.failStart s.stage else s)

/-- `standbyPowerApplied` event. -/
def execStandbyPowerApplied (s : State) : Result :=
  if s.standby then .next s else .next { s with standby := true, bootstat := 0 }

/-- `standbyPowerRemoval` event: the standby store, and with it halter mode, is gone. -/
def execStandbyPowerRemoval (s : State) : Result := .next { s with standby := false, bootstat := 0 }

/-- `mainPowerLoss` event (R91): a start under way has failed when power returns. -/
def execMainPowerLoss (s : State) : Result :=
  let s := if s.starting then s.failStart s.stage else s
  .next { s.afresh with mainPower := false }

/-! ### The stitch wave (R413, R422, R424) -/

/-- Neighbours of a hub in the order north, east, south, west, with their PARENT codes. -/
def neighbours (h : Nat) : List (Nat × Nat) :=
  (if hubRow h = 0 then [] else [(1, h - 8)]) ++ (if hubCol h = 7 then [] else [(2, h + 1)]) ++
    (if hubRow h = 7 then [] else [(3, h + 8)]) ++ (if hubCol h = 0 then [] else [(4, h - 1)])

/-- A hub offers clock. -/
def HubState.offers : HubState → Bool
  | .off => false
  | .failed => false
  | _ => true

/-- A hub changes state. -/
def State.setHubSt (s : State) (h : Nat) (st : HubState) : State := s.modHub h fun u => { u with st := st }

/-- The PARENT code of the neighbour that lies opposite. -/
def oppositeCode (c : Nat) : Nat := (c + 1) % 4 + 1

/-- A hub that has CLOCKED offers clock to its neighbours, each of which keeps the first offer that it saw; of offers at one time
the first in the order of their codes (R422; log entry 74). -/
def State.offerClock (s : State) (hub : Nat) : State :=
  (neighbours hub).foldl (fun s n =>
    s.modHub n.2 fun u =>
      if u.st ≠ .off then u
      else
        match u.offer with
        | none => { u with offer := some (oppositeCode n.1, s.tick) }
        | some (c, t) => if t = s.tick ∧ oppositeCode n.1 < c then { u with offer := some (oppositeCode n.1, t) } else u) s

/-- The neighbour to whose clock a hub locks: the first that offered, or, where that one has FAILED since, the first in order of
those that offer. -/
def State.clockFrom (s : State) (hub : Nat) : Option Nat :=
  let l := (neighbours hub).filter fun n => (s.hub n.2).st.offers
  match (s.hub hub).offer with
  | some (c, _) => if l.any fun n => n.1 = c then some c else l.head?.map (·.1)
  | none => l.head?.map (·.1)

/-- `clockLock` event (R422). -/
def execClockLock (hub : Nat) (s : State) : Result :=
  let lock (s : State) (p : Nat) : State := (s.modHub hub fun u => { u with st := .clocked, parent := p }).offerClock hub
  if (s.hub hub).st ≠ .off ∨ !s.mainPower ∨ s.halter ∨ 64 ≤ hub then .next s
  else if edgeHub hub then .next ((lock s 0).reach_ 2)
  else
    match s.clockFrom hub with
    | some p => .next (lock s p)
    | none => .next s

/-- `linkTrain` event. -/
def execLinkTrain (hub : Nat) (s : State) : Result :=
  if (s.hub hub).st = .clocked then .next ((s.modHub hub fun u => { u with st := .linked, linked := true }).reach_ 3) else .next s

/-- TESTRES with its reserved bits 0: bit 0 of doubleword 13 is the hub logic's own result, the rest the others'. -/
def testres (logic : Bool) (res : List W64) : List (Nat × W64) :=
  (List.range 32).map fun i =>
    let v := res.getD i 0
    (0x200 + 8 * i, if i < 12 then v else if i = 12 then v &&& ones 0 40 
      else if i = 13 then putBits (v &&& ones 32 32) 0 1 logic.toNat else 0)

/-- A hub has reached LINKED in this start and is not FAILED. -/
def HubState.linkedOn : HubState → Bool
  | .off => false
  | .clocked => false
  | .failed => false
  | _ => true

/-- In each network a link of the pair to a neighbour works. -/
def pairGood (res : List W64) (dir : Nat) : Bool :=
  (List.range 2).all fun k => bits (res.getD 12 0) (24 + 8 * k + 2 * (dir - 1)) 2 != 0

/-- Neighbours of lower physical index that have reached LINKED and share no working link with the hub. -/
def State.badPairs (s : State) (hub : Nat) (res : List W64) : List Nat :=
  ((neighbours hub).filter fun n => decide (n.2 < hub) && (s.hub n.2).st.linkedOn && !pairGood res n.1).map (·.2)

/-- Hub logic, four memory controllers, both DRAM stacks and the keep chiplet passed (R422, R424). -/
def hubGood (logic : Bool) (res : List W64) : Bool := logic && bits (res.getD 12 0) 16 7 == 127

/-- `hubTestResult` event (R413, R422, R424): the raw results say whether the hub passes. A pair that fails counts against the hub
unless its lower neighbour is FAILED by its own test: while that one's test is not over, neither is this one's. -/
def execHubTestResult (hub : Nat) (logic : Bool) (res : List W64) (s : State) : Result :=
  if (s.hub hub).st ≠ .linked ∨ s.halter then .next s
  else
    let bad := s.badPairs hub res
    let t := (testres logic res).foldl (fun s e => s.setHreg hub e.1 e.2) s
    if !hubGood logic res then .next (t.setHubSt hub .failed)
    else if bad.isEmpty then .next ((t.setHubSt hub .tested).reach_ 4)
    else if bad.any fun n => (s.hub n).st = .linked then .next s
    else .next (t.setHubSt hub .failed)

/-- `clockedTimeout` event. -/
def execClockedTimeout (hub : Nat) (s : State) : Result :=
  .next (if (s.hub hub).st = .clocked then s.setHubSt hub .failed else s)

/-- `hubTestTimeout` event. -/
def execHubTestTimeout (hub : Nat) (s : State) : Result :=
  .next (if (s.hub hub).st = .linked ∧ !s.halter then s.setHubSt hub .failed else s)

/-! ### COMMIT (R425, R426) -/

/-- Doublewords of a hub's registers from an offset, as bytes. -/
def State.regBytes (s : State) (h off n : Nat) : List Byte :=
  (List.range n).flatMap fun i => toBytes 8 (s.hreg h (off + 8 * i)).toNat

/-- A hub's configuration hash. -/
def State.configHash (s : State) (h : Nat) : List Byte :=
  Config.sha256 (configOffs.flatMap fun off => toBytes 8 (s.hreg h off).toNat)

/-- A slice of a list of bytes. -/
def part (l : List Byte) (off n : Nat) : List Byte := (l.drop off).take n

/-- The manifest in a hub's buffer, its signature included. -/
def State.manifestBytes (s : State) (h : Nat) : List Byte := s.regBytes h 0x8000 2297

/-- The refusal of a manifest: CFGERR 1, 3 or 4, the lowest that applies; none when it is accepted. -/
def State.manifestErr (s : State) (h : Nat) (m : List Byte) : Option Nat :=
  let slot := (m.getD 0 0).toNat % 4
  let nonce := part m 24 32
  if !Config.verify192s (part m 56 48) (part m 0 2152) (part m 2152 16224) then some 1
  else if part m 8 16 ≠ Config.serial ∨ (nonce ≠ s.regBytes h 0x120 4 ∧ nonce ≠ List.replicate 32 0) then some 3
  else if Config.keyHash slot ≠ some (Config.sha256 (part m 56 48)) then some 4
  else none

/-- CFGERR of a hub. -/
def State.setCfgerr (s : State) (h n : Nat) : State := s.modHub h fun u => { u with cfgerr := n }

/-- COMMIT at an edge hub. A hub in TESTED whose hash is in the manifest and differs from its own leaves CFGERR 2 on the
committing hub; a start that ends then has REASON 5 (R427). -/
def State.commit (s : State) (h : Nat) : State :=
  let m := s.manifestBytes h
  match s.manifestErr h m with
  | some e => (s.setCfgerr h e).reach_ 5
  | none =>
    let s := { s with manifest := Config.sha256 (part m 0 2152) }
    if s.halter then
      if (m.getD 1 0).getLsbD 0 ∧ (m.getD 0 0).toNat % 4 = 0 ∧ part m 24 32 = s.regBytes h 0x120 4 then
        ({ s with bootstat := putBits s.bootstat 4 3 0 } : State).beginStart
      else s
    else
      let hash (k : Nat) : List Byte := part m (104 + 32 * k) 32
      let tested := (List.range 64).filter fun k => (s.hub k).st = .tested
      let good := tested.filter fun k => hash k = s.configHash k
      let bad := tested.filter fun k => hash k ≠ s.configHash k ∧ hash k ≠ List.replicate 32 0
      let s := good.foldl (fun s k => s.setHubSt k .configured) s
      if bad.isEmpty then s.reach_ 6 else (s.setCfgerr h 2).reach_ 5

/-- A hub that hears commands: an edge hub at LINKED or beyond. -/
def State.bootHears (s : State) (h : Nat) : Bool := s.edgeUp h && s.mainPower

/-- `commit` event. -/
def execCommit (hub : Nat) (s : State) : Result := .next (if s.bootHears hub then s.commit hub else s)

/-! ### SERVE (R17, R25, R418, R426, R429 to R431, R452) -/

/-- REMAP entry `i` of a hub's copy: valid, and its physical index. -/
def State.remapOf (s : State) (h i : Nat) : Bool × Nat :=
  let e := s.hreg h (0x1000 + 8 * i)
  (bit e 7, bits e 3 3 * 8 + bits e 0 3)

/-- Physical hubs that a hub's valid REMAP entries name. -/
def State.namedBy (s : State) (h : Nat) : List Nat :=
  (((List.range 64).map (s.remapOf h)).filter (·.1)).map (·.2)

/-- Two hubs hold one value in registers. -/
def State.sameRegs (s : State) (offs : List Nat) (a b : Nat) : Bool := offs.all fun o => s.hreg a o == s.hreg b o

/-- The module-wide registers whose difference is CFGERR 5, and those of CFGERR 8 (R452). -/
def wide5 : List Nat := ((List.range 64).map (0x1000 + 8 * ·)) ++ [0x1200, 0x1208, 0x1210, 0x1218, 0x3200, 0x3208]
def wide8 : List Nat := ((List.range 32).map (0x1A00 + 8 * ·)) ++ ((List.range 16).map (0x1B00 + 8 * ·)) ++
  ((List.range 32).map (0x1B80 + 8 * ·))

/-- A hub has passed its test: its site is in service for memory (R1). -/
def HubState.inService : HubState → Bool
  | .tested => true
  | .configured => true
  | .serving => true
  | _ => false

/-- The remap check of R17 on a hub's copy; every named site must be in service for memory. -/
def State.remapOk (s : State) (h : Nat) : Bool :=
  let n := bits (s.hreg h 0x1200) 0 7
  let es := (List.range 64).map (s.remapOf h)
  let named := s.namedBy h
  decide (1 ≤ n) && decide (n ≤ 64) && decide (bits (s.hreg h 0x1208) 0 7 ≤ 64) &&
    ((es.take n).all (·.1)) && ((es.drop n).all fun e => !e.1) && decide (named.eraseDups.length = named.length) &&
    named.all fun k => (s.hub k).st.inService

/-- The rectangle check of R25 on a hub's copy. -/
def State.rectsOk (s : State) (h : Nat) : Bool :=
  let es := ((List.range 16).map fun i => s.hreg h (0x1400 + 8 * i)).filter fun e => bit e 16
  let inside (e : W64) : Bool := decide (bits e 0 4 + bits e 8 4 < 16) && decide (bits e 4 4 + bits e 12 4 < 16)
  es.all inside &&
    (List.range 256).all fun c =>
      let n := (es.filter fun e => rectHas e c).length
      decide (n ≤ 1) && (n = 0 || bit (s.hreg h (0x200 + 8 * (c / 64))) (c % 64))

/-- The hubs of a path by an NST entry, and its relay. -/
def nstPath (e : W64) (a b relay : Nat) : List Nat :=
  match bits e 0 2 with
  | 1 => legHubs true a b
  | 2 => legHubs (bit e 8) a relay ++ legHubs (bit e 9) relay b
  | _ => legHubs false a b

/-- The NST check of R418 on a hub's copy. -/
def State.nstOk (s : State) (h : Nat) : Bool :=
  let n := bits (s.hreg h 0x1200) 0 7
  let named := s.namedBy h
  let phys (i : Nat) : Nat := (s.remapOf h i).2
  let self := (List.range 64).find? fun i => i < n ∧ phys i = h
  (List.range 64).all fun i =>
    let e := s.hreg h (0x1600 + 8 * i)
    let relay := bits e 2 6
    if n ≤ i then !bit e 10
    else
      bit e 10 && bits e 0 2 != 3 && (self != some i || bits e 0 2 == 0) &&
        (bits e 0 2 != 2 || (decide (relay < n) && phys relay != h && relay != i)) &&
        (nstPath e h (phys i) (phys relay)).all named.contains

/-- The decoder, window and module-link checks of R429 to R431 on a hub's copy. -/
def State.windowsOk (s : State) (h : Nat) : Bool :=
  let reg (o : Nat) : W64 := s.hreg h o
  let hap := (List.range 16).all fun i =>
    !bit (reg (0x1A00 + 16 * i)) 0 || decide (bits (reg (0x1A00 + 16 * i)) 12 39 < bits (reg (0x1A08 + 16 * i)) 12 39)
  let ws := ((List.range 8).map fun i => reg (0x1B00 + 16 * i)).filter fun e => bit e 0
  let base (e : W64) : Nat := bits e 30 18
  let top (e : W64) : Nat := bits e 30 18 + bits e 48 8
  let floor := bits (reg 0x1200) 0 7 * bits (reg 0x1208) 0 7
  let apart_ := (List.range ws.length).all fun i => (List.range ws.length).all fun j =>
    i = j || decide (top (ws.getD i 0) ≤ base (ws.getD j 0)) || decide (top (ws.getD j 0) ≤ base (ws.getD i 0))
  hap && (ws.all fun e => decide (floor ≤ base e)) && apart_ && !bit (reg (0x1B80 + 8 * bits (reg 0x1218) 0 5)) 7

/-- Refusal of a named hub at SERVE: the lowest code that applies. -/
def State.serveErr (s : State) (named : List Nat) (h : Nat) : Option Nat :=
  if (s.hub h).st ≠ .configured ∨ !s.remapOk h ∨ !(named.all fun k => s.sameRegs wide5 h k) then some 5
  else if !s.rectsOk h then some 6
  else if !s.nstOk h then some 7
  else if !s.windowsOk h ∨ !(named.all fun k => s.sameRegs wide8 h k) then some 8
  else none

/-- SERVE at an edge hub: its own tables name the hubs, so it must be in CONFIGURED itself. -/
def State.serve (s : State) (h : Nat) : State :=
  let named := s.namedBy h
  if (s.hub h).st ≠ .configured then (s.setCfgerr h 5).reach_ 6
  else
    let bad := (h :: named).eraseDups.filterMap fun k => (s.serveErr named k).map fun e => (k, e)
    let bad := if named.contains h then bad else bad.filter fun b => b.1 != h
    if named.isEmpty then (s.setCfgerr h 5).reach_ 6
    else if !bad.isEmpty then (bad.foldl (fun s b => s.setCfgerr b.1 b.2) s).reach_ 6
    else
      let n := bits (s.hreg h 0x1200) 0 7
      let s := { s with
        hubs := Table.mapVals (fun k (u : Hub) =>
          if u.st = HubState.configured then { u with st := if named.contains k then HubState.serving else HubState.off } else u) s.hubs
        sites := (List.range n).map fun i => (s.remapOf h i).2
        bootstat := if s.starting then putBits s.bootstat 4 2 0 else s.bootstat
        starting := false }
      s.regrade

/-- `serve` event. -/
def execServe (hub : Nat) (s : State) : Result :=
  .next (if s.bootHears hub && !s.halter then s.serve hub else s)

/-! ### Attestation (R436) -/

/-- The 232 bytes that a quote signs. -/
def State.quoteBody (s : State) (h : Nat) : List Byte :=
  toBytes 8 (1 + 17320 * 4294967296) ++ part (Config.serial ++ List.replicate 16 0) 0 16 ++ s.regBytes h 0x6010 4 ++
    toBytes 8 (putBits s.grade 33 1 (if s.halter then 1 else 0)).toNat ++ toBytes 8 s.bootstatNow.toNat ++
    part (Config.romHash ++ List.replicate 32 0) 0 32 ++ part (s.manifest ++ List.replicate 32 0) 0 32 ++
    part (Config.sha256 (part (Config.identityKey ++ List.replicate 32 0) 0 32) ++ List.replicate 32 0) 0 32 ++
    (List.range 64).map fun k => BitVec.ofNat 8 (bits (s.hubState k) 0 8)

/-- QCTL.GO at an edge hub: ignored while BUSY; the quote is over what stands now. -/
def State.quoteGo (s : State) (h : Nat) : State :=
  if !edgeHub h ∨ bit (s.hreg h 0x6030) 2 then s
  else
    let b := s.quoteBody h
    let l := b ++ part (Config.sign128f b ++ List.replicate 17088 0) 0 17088
    let s := (List.range 2165).foldl (fun s i =>
      s.setHreg h (0x10000 + 8 * i) (BitVec.ofNat 64 (ofBytes (part l (8 * i) 8)))) s
    s.setHreg h 0x6030 4

/-- `quote` event. -/
def execQuote (hub : Nat) (s : State) : Result := .next (s.quoteGo hub)

/-- `quoteDone` event. -/
def execQuoteDone (hub : Nat) (s : State) : Result :=
  .next (if edgeHub hub && bit (s.hreg hub 0x6030) 2 then s.setHreg hub 0x6030 2 else s)

/-! ### Sideband (R437) -/

/-- An MCTP endpoint on the standby rail. -/
def State.sideband (s : State) (h : Nat) : Bool := (h = 0 || h = 63) && s.standby

/-- A request over the sideband is answered. -/
def State.answer (s : State) (h : Nat) (l : List Byte) : State := if s.sideband h then s.emit (.reply l) else s

/-- `mctpControl` event: the content of the answer is the protocol's, a free value here. -/
def execMctpControl (hub _msg : Nat) (s : State) : Result :=
  .next (s.answer hub (toBytes 8 (Config.freeWord s.tick).toNat)).next

/-- `pldmSensorRead` event. -/
def execPldmSensorRead (hub : Nat) (sensor : Sensor) (s : State) : Result :=
  let v : W64 := match sensor with
    | .coolantIn v => v
    | .coolantOut v => v
    | .sitePower _ v => v
    | .melt site => s.sreg site 0x5000
    | .thrstat site => s.thrstat (s.phys site)
  .next (s.answer hub (toBytes 8 v.toNat))

/-- `coolantAlarmEffecter` event. -/
def execCoolantAlarmEffecter (hub : Nat) (on : Bool) (s : State) : Result :=
  .next (if s.sideband hub then { s with coolant := on } else s)

/-- `vendorMessage` event (R436, R437). -/
def execVendorMessage (hub : Nat) (msg : VendorMsg) (s : State) : Result :=
  let word (v : W64) : List Byte := toBytes 8 v.toNat
  .next (match msg with
    | .bootstat => s.answer hub (word s.bootstatNow)
    | .grade => s.answer hub (word (putBits s.grade 33 1 (if s.halter then 1 else 0)))
    | .hubstate h => s.answer hub (word (s.hubState h))
    | .testres h i => s.answer hub (word (s.hreg h (0x200 + 8 * (i % 32))))
    | .quote => if s.sideband hub then s.quoteGo hub else s
    | .certificate => s.answer hub Config.certificate
    | .identityKey => s.answer hub (part (Config.identityKey ++ List.replicate 32 0) 0 32))

/-! ### Hub registers written (R6, R15, R96, R367, R379, R384, R387, R395, R422, R425, R426, R432, R436, R453) -/

/-- A write to a register of the configuration set. -/
def State.configWrite (s : State) (h off : Nat) (v rw : W64) : State :=
  match (s.hub h).st with
  | .tested => s.setHreg h off (maskWrite (s.hreg h off) v rw)
  | .configured => (s.setHubSt h .tested).setHreg h off (maskWrite (s.hreg h off) v rw)
  | _ => s

/-- The result of a meaning that always goes on. -/
def goOn (s : State) : Result → State
  | .next t => t
  | _ => s

/-- A write of BOOTCMD. -/
def State.bootcmd (s : State) (h : Nat) (v : W64) : State :=
  if bit v 0 then s.cmdStart
  else
    let s := if bit v 1 ∧ s.bootHears h then s.commit h else s
    if bit v 2 ∧ s.bootHears h ∧ !s.halter then s.serve h else s

/-- A write of a host-queue register. -/
def State.hqWrite (s : State) (h off : Nat) (v rw : W64) : State :=
  let site := s.siteOf h
  let slot := (off - 0x3000) / 0x40
  match off % 0x40 with
  | 0x00 => if s.hqState site slot = 2 then s else s.setHreg h off (v &&& rw)
  | 0x08 => goOn s (execHqctlWrite site slot v s)
  | 0x10 => goOn s (execHqtailWrite site slot v s)
  | 0x20 => goOn s (execHqdescWrite site slot v s)
  | _ => s

/-- A write of HTCTL. -/
def State.htctlWrite (s : State) (h : Nat) (v : W64) : State :=
  let s := s.setHreg h 0x3608 (maskWrite (s.hreg h 0x3608) v 0xC)
  let s := if bit v 0 then goOn s (execHaltTreeStop (s.siteOf h) s) else s
  if bit v 1 then s.haltRelease h else s

/-- Every RETAINED region of a site's die becomes FREE: RETAINTO was set to 0 (R96). -/
def State.retainOver (s : State) (site : Nat) : State :=
  (List.range 4).foldl (fun s cl => s.mapRegions site cl fun _ e =>
    match e.state with
    | .retained _ => e.freed
    | _ => e) s

/-- A write of an 8-byte register of a hub. -/
def State.regWrite (s : State) (h off : Nat) (v : W64) : State :=
  match hubReg off with
  | none => s
  | some r =>
    let site := s.siteOf h
    if r.edge && !edgeHub h then s
    else if configOffs.contains off then s.configWrite h off v r.rw
    else if off = 0x118 then s.bootcmd h v
    else if off = 0x1800 then s.setHreg h off (s.hreg h off &&& ~~~(v &&& 1))
    else if off = 0x2020 then s.setHreg h off (s.hreg h off &&& ~~~(v &&& 1))
    else if 0x1D00 ≤ off ∧ off < 0x1D40 then
      if (s.die site).gidle ((off - 0x1D00) / 8) then s.setHreg h off (v &&& r.rw) else s
    else if 0x3000 ≤ off ∧ off < 0x3100 then s.hqWrite h off v r.rw
    else if off = 0x3600 then
      let s := s.setHreg h off (maskWrite (s.hreg h off) v r.rw)
      if bit v 14 then s.preemptOp site (bits v 0 8) (BitVec.ofNat 4 (bits v 8 4)) (bits v 12 2) else s
    else if off = 0x3608 then s.htctlWrite h v
    else if off = 0x3618 then
      let s := s.setHreg h off (maskWrite (s.hreg h off) v r.rw)
      if bit v 15 then (s.setHreg h off (v &&& ones 0 15)).ckOp site (bits v 0 12) (bits v 12 3) else s
    else if 0x4000 ≤ off ∧ off < 0x4200 then s.dieRegWrite site (0x140 + (off - 0x4000) / 8) v
    else if off = 0x5008 then s.leasecfg site v
    else if off = 0x2028 then
      let s := s.setHreg h off (maskWrite (s.hreg h off) v r.rw)
      if bits v 0 16 = 0 then s.retainOver site else s
    else if off = 0x6030 then (if bit v 0 then s.quoteGo h else s)
    else s.setHreg h off (maskWrite (s.hreg h off) v r.rw)

/-- `registerWrite` event. -/
def execRegisterWrite (hub off : Nat) (v : W64) (s : State) : Result := .next (s.regWrite hub off v)

/-- `configSetWrite` event (R422, R425). -/
def execConfigSetWrite (hub off : Nat) (v : W64) (s : State) : Result :=
  .next (if configOffs.contains off then s.regWrite hub off v else s)

/-- `huberrErrntClear` event. -/
def execHuberrErrntClear (hub : Nat) (s : State) : Result := .next (s.regWrite hub 0x1800 1)

/-- `poisonaddrValidClear` event. -/
def execPoisonaddrValidClear (hub : Nat) (s : State) : Result := .next (s.regWrite hub 0x2020 1)

/-! ### Host accesses (R14, R138, R420, R421, R453) -/

/-- The hub that logs an access without target. -/
def State.logHub (s : State) (port pa : Nat) : Nat :=
  let reg := paRegion pa
  if (reg = 0 ∨ reg = 1 ∨ reg = 3 ∨ reg = 4 ∨ reg = 5) ∧ paSite pa < s.nSites then s.phys (paSite pa) else cxlHub port

/-- A host access had no target: logged, and all-ones for a read. -/
def State.hostMiss (s : State) (port pa : Nat) (read : Option Nat) : State :=
  let h := s.logHub port pa
  let s := if bit (s.hreg h 0x1800) 0 then s
    else (s.setHreg h 0x1800 1).setHreg h 0x1808 (BitVec.ofNat 64 (pa % 4503599627370496))
  match read with
  | some n => s.emit (.reply (List.replicate n 0xFF))
  | none => s

/-- A trained port in a state in which the host may use it. -/
def State.portUp (s : State) (port : Nat) : Bool := decide (port < 16) && s.ports.getLsbD port

/-- The host takes a line into its caches, or gives it up. The copies in the L1 caches of the home's die go when it takes
one, and fills on their way are not kept (R138, R139). -/
def State.hostHold (s : State) (line : Nat) (on : Bool) : State :=
  let home := paSite (s.plain (line * 128))
  let s := if on then (s.l1Drop home line none).staleFills line fun q => q.who.site = home else s
  if s.l2.any fun l => l.line = line then
    { s with l2 := s.l2.map fun l => if l.line = line then { l with host := on, snooped := l.snooped && on } else l }
  else if on then { s with l2 := s.l2 ++ [⟨line, home, false, true, false⟩] }
  else s

/-- Requests and trap records that wait for the host's response go on. -/
def State.snoopOver (s : State) (line : Nat) : State :=
  ({ s with reqs := s.reqs.map fun q =>
      if q.stage = .snoop ∧ s.lineOf q.pa = line then { q with stage := .left } else q } : State).tqOn

/-- Bytes that the host writes at a line's home. -/
def State.hostWriteAt (s : State) (pa : Nat) (data : List Byte) : State :=
  (s.recallLine (s.lineOf pa) none).homeWrite (s.lineOf pa) (paSite (s.plain pa)) 0 none (runAt (pa % 128) data)

/-- The device address that a decoder gives a host address: the interleave's granules of this port follow one another (R428). -/
def hdmMap (d : HdmDec) (addr : Nat) : Option Nat :=
  let o := addr - d.base * 268435456
  let g := 2 ^ (8 + d.gran)
  if d.on ∧ d.base * 268435456 ≤ addr ∧ addr < (d.base + d.size) * 268435456 then
    some (d.dpa + o / (g * 2 ^ d.ways) * g + o % g)
  else none

/-- Ways of 1, 2, 4, 8 or 16, and a granularity from 256 bytes to 16 KiB (R428). -/
def hdmOk (d : HdmDec) : Bool := decide (d.ways ≤ 4) && decide (d.gran ≤ 6)

/-- The device address that a port's two decoders give a host address. -/
def State.hdmPa (s : State) (port addr : Nat) : Option Nat :=
  [2 * port, 2 * port + 1].findSome? fun k => hdmMap (Table.get ⟨false, 0, 0, 0, 0, 0⟩ s.hdm k) addr

/-- `hostMemAccess` event (R138, R428): a host access of memory through a port's HDM decoders, to a device address of region 0x0
or 0x2. What no decoder maps is not the module's; the host sets the decoders by CXL's own registers (log entry 87). -/
def execHostMemAccess (port addr : Nat) (op : HostMemOp) (s : State) : Result :=
  if !s.portUp port ∨ s.halter then .next s
  else
    match op, s.hdmPa port addr with
    | .decoder i d, _ => .next (if i < 2 ∧ hdmOk d then { s with hdm := Table.put s.hdm (2 * port + i) d } else s)
    | _, none => .next s
    | op, some pa =>
    let line := s.lineOf pa
    let there := (paRegion pa = 0 ∨ paRegion pa = 2) && s.hasTarget pa
    match op with
    | .decoder _ _ => .next s
    | .read n hold _ =>
      if !there then .next (s.hostMiss port pa (some n))
      else
        let s := s.recallLine line none
        let s := s.emit (.reply (s.bytes pa n))
        .next (if hold then s.hostHold line true else s)
    | .write data =>
      if !there then .next (s.hostMiss port pa none)
      else .next (s.hostWriteAt pa (data.take (128 - pa % 128)))
    | .evict data =>
      if !there then .next (s.hostMiss port pa none)
      else
        let s := match data with
          | some l => s.hostWriteAt (pa / 128 * 128) (l.take 128)
          | none => s
        .next ((s.hostHold line false).snoopOver line)

/-- `bisnpResponse` event (R138): the line's bytes come home when the host had modified it. -/
def execBisnpResponse (line : Nat) (data : Option (List (BitVec 8))) (s : State) : Result :=
  match s.l2.find? fun l => l.line = line ∧ l.snooped with
  | some e =>
    let s := match data with
      | some l => s.homeWrite line e.home 0 none (runAt 0 (l.take 128))
      | none => s
    .next ((s.hostHold line false).snoopOver line)
  | none => .next s

/-- BIConflict (R138): the host has met a back-invalidate snoop with a request of its own for the line; the home
acknowledges, and the host answers the snoop once that request is done. -/
def State.biConflict (s : State) (line : Nat) : State :=
  if s.l2.any fun l => l.line = line ∧ l.snooped then s.emit (.conflictAck line) else s

/-- A line of host memory leaves the device's home at the host's CXL.cache snoop (R138): its owner returns it, the copies
in L1 of the home's die go, a dirty line is given back. Copies in remote-data caches stay until a fence or acquire takes
them (R139). -/
def State.hostSnoops (s : State) (line : Nat) : State :=
  match s.l2.find? fun l => l.line = line ∧ 8 ≤ paRegion (line * 128) with
  | none => s
  | some e =>
    let s := ((s.recallLine line none).l1Drop e.home line none).staleFills line fun q => q.who.site = e.home
    let s := if e.dirty then s.emit (.cacheBack line (s.bytes (line * 128) 128)) else s
    { s with l2 := s.l2.filter fun l => l.line != line }

/-- The host writes its own memory: the device's copy at the line's home goes first (R138). -/
def State.hostStores (s : State) (pa : Nat) (data : List Byte) : State :=
  if paRegion pa < 8 then s else (s.hostSnoops (s.lineOf pa)).setBytes pa (data.take (128 - pa % 128))

/-- A hub answers through the stitch-wave tree: it has reached LINKED in this start and is not OFF since (R420). -/
def Hub.answers (u : Hub) : Bool := u.linked && u.st != .off

/-- A hub is reached from an edge hub down the tree of the PARENTs, through hubs that answer (R420; log entry 74). -/
def State.treeReach (s : State) : Nat → Nat → Bool
  | 0, _ => false
  | n + 1, h =>
    (s.hub h).answers && ((s.hub h).parent = 0 ||
      match (neighbours h).find? fun x => x.1 = (s.hub h).parent with
      | some x => State.treeReach s n x.2
      | none => false)

/-- An access through the bring-up aperture (R420): a hub below LINKED drops writes and returns all-ones. -/
def State.aperture8 (s : State) (h off : Nat) (wr : Option W64) : State :=
  let up := s.treeReach 64 h
  match wr with
  | some v => if up then s.regWrite h off v else s
  | none =>
    let v := if up then (s.hubRead h off).getD (ones 0 64) else ones 0 64
    s.emit (.reply (toBytes 8 v.toNat))

/-- `hostBar0Access` event (R420). -/
def execHostBar0Access (port off : Nat) (wr : Option (BitVec 64)) (s : State) : Result :=
  if !s.portUp port then .next s
  else if off / 2147483648 % 2 = 1 then .next (s.aperture8 (off / 16777216 % 64) (off % 16777216) wr)
  else
    let site := off / 16777216 % 64
    let pa := mkPa 5 site (off % 16777216)
    if !(s.hasTarget pa) ∨ (s.hubRead (s.phys site) (off % 16777216)).isNone then
      .next (s.hostMiss port pa (match wr with | some _ => none | none => some 8))
    else
      match wr with
      | some v => .next (s.regWrite (s.phys site) (off % 16777216) v)
      | none => .next (s.emit (.reply (toBytes 8 ((s.hubRead (s.phys site) (off % 16777216)).getD 0).toNat)))

/-- Address that an offset of BAR 2 names. -/
def bar2Pa (off : Nat) : Nat := mkPa (if off / 68719476736 % 2 = 0 then 3 else 4) (off / 1073741824 % 64) (off % 1073741824)

/-- A debug write to a dictionary entry (R233); other writes of region 0x4 are ignored. -/
def State.coreRegWrite (s : State) (site core off n : Nat) (v : W64) : State :=
  if 0xC000 ≤ off ∧ off < 0xE000 ∧ n = 8 ∧ off % 8 = 0 then
    let o := off - 0xC000
    s.debugDict ⟨site, core, o / 0x800⟩ (o % 0x800 / 0x200) (o % 0x200 / 8) v
  else s

/-- `hostBar2Access` event (R421). -/
def execHostBar2Access (port off size : Nat) (wr : Option (BitVec 64)) (s : State) : Result :=
  let pa := bar2Pa off
  let aligned := (size = 1 ∨ size = 2 ∨ size = 4 ∨ size = 8) ∧ off % size = 0 ∧ off < 137438953472
  if !s.portUp port ∨ !aligned then .next s
  else if !s.hasTarget pa ∨ (paRegion pa = 3 ∧ pa / 134217728 % 8 ≠ 0) ∨ debugBad pa size ∨ s.noReg pa then
    .next (s.hostMiss port pa (match wr with | some _ => none | none => some size))
  else
    let s := (s.ungateDie (paSite pa)).powerPa pa size
    match wr with
    | none => .next (s.emit (.reply ((s.targetRead pa size).getD [])))
    | some v =>
      if paRegion pa = 3 then .next (s.setBytes pa (toBytes size v.toNat))
      else .next (s.coreRegWrite (paSite pa) (pa / 524288 % 256) (pa % 65536) size v)

/-- `testPortAccess` event (R420). -/
def execTestPortAccess (hub off : Nat) (wr : Option (BitVec 64)) (s : State) : Result :=
  .next (if s.mainPower then s.aperture8 (hub % 64) (off % 16777216) wr else s)

/-- `hostPortTrain` event (R428): a port whose edge hub is FAILED does not train. -/
def execHostPortTrain (port : Nat) (up : Bool) (s : State) : Result :=
  let m : BitVec 16 := 1#16 <<< port
  if 16 ≤ port then .next s
  else if !up then .next { s with ports := s.ports &&& ~~~m }
  else if (s.hub (cxlHub port)).st = .failed ∨ !s.mainPower then .next s
  else .next { s with ports := s.ports ||| m }

end Sys2Proof.Machine
end

