-- ==== Sys2Proof/Machine/Flags.lean ====
section
/-! DEFINITION. Compare results (R247, R252, R307, R311): the machine has no flags (R239); its conditions are written to
predicates and masks. -/

namespace Sys2Proof.Machine

/-- An integer condition on n-bit values (R247). -/
def condHolds {n : Nat} (c : Cond) (a b : BitVec n) : Bool :=
  match c with
  | .eq => a == b
  | .ne => a != b
  | .lt => a.slt b
  | .ge => !a.slt b
  | .ltu => a.ult b
  | .geu => !a.ult b

/-- A floating condition on two codes of a format (R252, R311). -/
def fcmpHolds (f : Fmt) (c : FCmp) (a b : Nat) : Bool :=
  let x := f.decode a
  let y := f.decode b
  match c with
  | .eq => x.eq y
  | .lt => x.lt y
  | .le => x.le y
  | .un => x.un y

/-- Format of a scalar floating instruction: FP64 with the `.d` suffix, else FP32. -/
def fmtOf (t : Bool) : Fmt := if t then Fmt.fp64 else Fmt.fp32

/-- Operand code of a scalar floating instruction (R249). -/
def fpIn (t : Bool) (v : W64) : Nat := if t then v.toNat else v.toNat % 4294967296

/-- A result code as the value of a register: an FP32 result leaves the high half 0 (R249). -/
def fpOut (n : Nat) : W64 := BitVec.ofNat 64 n

end Sys2Proof.Machine
end

