-- ==== Sys2Proof/Machine/Integer.lean ====
section
/-! DEFINITION. Integer instructions of word B (R239 to R246). -/

namespace Sys2Proof.Machine

/-- Clamp to the signed 64-bit range. -/
def satS64 (v : Int) : W64 :=
  if v < -9223372036854775808 then 0x8000000000000000#64
  else if 9223372036854775807 < v then 0x7FFFFFFFFFFFFFFF#64
  else BitVec.ofInt 64 v

/-- Shift amount of a 64-bit and of a 32-bit shift. -/
def sh64 (v : W64) : Nat := v.toNat % 64
def sh32 (v : W64) : Nat := v.toNat % 32

/-- Quotients and remainders with the borderline cases of R244. -/
def divS {n : Nat} (a b : BitVec n) : BitVec n := if b = 0 then BitVec.allOnes n else a.sdiv b
def divU {n : Nat} (a b : BitVec n) : BitVec n := if b = 0 then BitVec.allOnes n else a / b
def remS {n : Nat} (a b : BitVec n) : BitVec n := if b = 0 then a else a.srem b
def remU {n : Nat} (a b : BitVec n) : BitVec n := if b = 0 then a else a % b

/-- Number of set bits. -/
def popCount (v : W64) : Nat := ((List.range 64).filter fun i => bit v i).length

/-- Leading and trailing zero bits; 64 for 0. -/
def leadZeros (v : W64) : Nat := if v = 0 then 64 else 63 - Nat.log2 v.toNat
def trailZeros (v : W64) : Nat := ((List.range 64).find? fun i => bit v i).getD 64

/-- Position and effective width of a field operand gb (R245), and the field of `a`. -/
def fieldPos (b : W64) : Nat := bits b 0 6
def fieldWid (b : W64) : Nat := min (bits b 8 7) (64 - fieldPos b)
def fieldOf (a b : W64) : Nat := bits a (fieldPos b) (fieldWid b)

/-- `add` (R241): ga + gb. -/
def execAdd (d : BitVec 5) (a : BitVec 5) (b : BitVec 5) (s : State) : Result :=
  .next (s.gw d (s.g a + s.g b))

/-- `sub` (R241): ga − gb. -/
def execSub (d : BitVec 5) (a : BitVec 5) (b : BitVec 5) (s : State) : Result :=
  .next (s.gw d (s.g a - s.g b))

/-- `neg` (R241): 0 − ga. -/
def execNeg (d : BitVec 5) (a : BitVec 5) (s : State) : Result :=
  .next (s.gw d (0 - s.g a))

/-- `abs` (R241): magnitude of ga; the least integer stays. -/
def execAbs (d : BitVec 5) (a : BitVec 5) (s : State) : Result :=
  .next (s.gw d (if (s.g a).msb then 0 - s.g a else s.g a))

/-- `addW` (R241): 32-bit sum. -/
def execAddW (d : BitVec 5) (a : BitVec 5) (b : BitVec 5) (s : State) : Result :=
  .next (s.gw d (sx32 (lo32 (s.g a) + lo32 (s.g b))))

/-- `subW` (R241): 32-bit difference. -/
def execSubW (d : BitVec 5) (a : BitVec 5) (b : BitVec 5) (s : State) : Result :=
  .next (s.gw d (sx32 (lo32 (s.g a) - lo32 (s.g b))))

/-- `addSat` (R241): clamped sum. -/
def execAddSat (d : BitVec 5) (a : BitVec 5) (b : BitVec 5) (s : State) : Result :=
  .next (s.gw d (satS64 ((s.g a).toInt + (s.g b).toInt)))

/-- `subSat` (R241): clamped difference. -/
def execSubSat (d : BitVec 5) (a : BitVec 5) (b : BitVec 5) (s : State) : Result :=
  .next (s.gw d (satS64 ((s.g a).toInt - (s.g b).toInt)))

/-- `and` (R242): AND. -/
def execAnd (d : BitVec 5) (a : BitVec 5) (b : BitVec 5) (s : State) : Result :=
  .next (s.gw d (s.g a &&& s.g b))

/-- `or` (R242): OR. -/
def execOr (d : BitVec 5) (a : BitVec 5) (b : BitVec 5) (s : State) : Result :=
  .next (s.gw d (s.g a ||| s.g b))

/-- `xor` (R242): XOR. -/
def execXor (d : BitVec 5) (a : BitVec 5) (b : BitVec 5) (s : State) : Result :=
  .next (s.gw d (s.g a ^^^ s.g b))

/-- `andn` (R242): AND NOT. -/
def execAndn (d : BitVec 5) (a : BitVec 5) (b : BitVec 5) (s : State) : Result :=
  .next (s.gw d (s.g a &&& ~~~(s.g b)))

/-- `orn` (R242): OR NOT. -/
def execOrn (d : BitVec 5) (a : BitVec 5) (b : BitVec 5) (s : State) : Result :=
  .next (s.gw d (s.g a ||| ~~~(s.g b)))

/-- `xnor` (R242): NOT XOR. -/
def execXnor (d : BitVec 5) (a : BitVec 5) (b : BitVec 5) (s : State) : Result :=
  .next (s.gw d (~~~(s.g a ^^^ s.g b)))

/-- `not` (R242): NOT. -/
def execNot (d : BitVec 5) (a : BitVec 5) (s : State) : Result :=
  .next (s.gw d (~~~(s.g a)))

/-- `shl` (R242): left by gb[5:0]. -/
def execShl (d : BitVec 5) (a : BitVec 5) (b : BitVec 5) (s : State) : Result :=
  .next (s.gw d (s.g a <<< sh64 (s.g b)))

/-- `shr` (R242): logical right by gb[5:0]. -/
def execShr (d : BitVec 5) (a : BitVec 5) (b : BitVec 5) (s : State) : Result :=
  .next (s.gw d (s.g a >>> sh64 (s.g b)))

/-- `sra` (R242): arithmetic right by gb[5:0]. -/
def execSra (d : BitVec 5) (a : BitVec 5) (b : BitVec 5) (s : State) : Result :=
  .next (s.gw d ((s.g a).sshiftRight (sh64 (s.g b))))

/-- `rol` (R242): rotate left. -/
def execRol (d : BitVec 5) (a : BitVec 5) (b : BitVec 5) (s : State) : Result :=
  .next (s.gw d ((s.g a).rotateLeft (sh64 (s.g b))))

/-- `ror` (R242): rotate right. -/
def execRor (d : BitVec 5) (a : BitVec 5) (b : BitVec 5) (s : State) : Result :=
  .next (s.gw d ((s.g a).rotateRight (sh64 (s.g b))))

/-- `shlW` (R242): 32-bit left by gb[4:0]. -/
def execShlW (d : BitVec 5) (a : BitVec 5) (b : BitVec 5) (s : State) : Result :=
  .next (s.gw d (sx32 (lo32 (s.g a) <<< sh32 (s.g b))))

/-- `shrW` (R242): 32-bit logical right. -/
def execShrW (d : BitVec 5) (a : BitVec 5) (b : BitVec 5) (s : State) : Result :=
  .next (s.gw d (sx32 (lo32 (s.g a) >>> sh32 (s.g b))))

/-- `sraW` (R242): 32-bit arithmetic right. -/
def execSraW (d : BitVec 5) (a : BitVec 5) (b : BitVec 5) (s : State) : Result :=
  .next (s.gw d (sx32 ((lo32 (s.g a)).sshiftRight (sh32 (s.g b)))))

/-- `mul` (R243): low 64 bits of the product. -/
def execMul (d : BitVec 5) (a : BitVec 5) (b : BitVec 5) (s : State) : Result :=
  .next (s.gw d (s.g a * s.g b))

/-- `mulh` (R243): high 64 bits of the signed product. -/
def execMulh (d : BitVec 5) (a : BitVec 5) (b : BitVec 5) (s : State) : Result :=
  .next (s.gw d (BitVec.ofInt 64 ((s.g a).toInt * (s.g b).toInt / 18446744073709551616)))

/-- `mulhu` (R243): high 64 bits of the unsigned product. -/
def execMulhu (d : BitVec 5) (a : BitVec 5) (b : BitVec 5) (s : State) : Result :=
  .next (s.gw d (BitVec.ofNat 64 ((s.g a).toNat * (s.g b).toNat / 18446744073709551616)))

/-- `mulW` (R243): low 32 bits of the product. -/
def execMulW (d : BitVec 5) (a : BitVec 5) (b : BitVec 5) (s : State) : Result :=
  .next (s.gw d (sx32 (lo32 (s.g a) * lo32 (s.g b))))

/-- `div` (R244): signed quotient. -/
def execDiv (d : BitVec 5) (a : BitVec 5) (b : BitVec 5) (s : State) : Result :=
  .next (s.gw d (divS (s.g a) (s.g b)))

/-- `divu` (R244): unsigned quotient. -/
def execDivu (d : BitVec 5) (a : BitVec 5) (b : BitVec 5) (s : State) : Result :=
  .next (s.gw d (divU (s.g a) (s.g b)))

/-- `rem` (R244): signed remainder. -/
def execRem (d : BitVec 5) (a : BitVec 5) (b : BitVec 5) (s : State) : Result :=
  .next (s.gw d (remS (s.g a) (s.g b)))

/-- `remu` (R244): unsigned remainder. -/
def execRemu (d : BitVec 5) (a : BitVec 5) (b : BitVec 5) (s : State) : Result :=
  .next (s.gw d (remU (s.g a) (s.g b)))

/-- `divW` (R244): 32-bit signed quotient. -/
def execDivW (d : BitVec 5) (a : BitVec 5) (b : BitVec 5) (s : State) : Result :=
  .next (s.gw d (sx32 (divS (lo32 (s.g a)) (lo32 (s.g b)))))

/-- `divuW` (R244): 32-bit unsigned quotient. -/
def execDivuW (d : BitVec 5) (a : BitVec 5) (b : BitVec 5) (s : State) : Result :=
  .next (s.gw d (sx32 (divU (lo32 (s.g a)) (lo32 (s.g b)))))

/-- `remW` (R244): 32-bit signed remainder. -/
def execRemW (d : BitVec 5) (a : BitVec 5) (b : BitVec 5) (s : State) : Result :=
  .next (s.gw d (sx32 (remS (lo32 (s.g a)) (lo32 (s.g b)))))

/-- `remuW` (R244): 32-bit unsigned remainder. -/
def execRemuW (d : BitVec 5) (a : BitVec 5) (b : BitVec 5) (s : State) : Result :=
  .next (s.gw d (sx32 (remU (lo32 (s.g a)) (lo32 (s.g b)))))

/-- `sel` (R245): ga when pN holds, else gb. -/
def execSel (d : BitVec 5) (a : BitVec 5) (b : BitVec 5) (n : BitVec 3) (s : State) : Result :=
  .next (s.gw d (if s.p n then s.g a else s.g b))

/-- `smin` (R245): signed minimum. -/
def execSmin (d : BitVec 5) (a : BitVec 5) (b : BitVec 5) (s : State) : Result :=
  .next (s.gw d (if (s.g a).slt (s.g b) then s.g a else s.g b))

/-- `smax` (R245): signed maximum. -/
def execSmax (d : BitVec 5) (a : BitVec 5) (b : BitVec 5) (s : State) : Result :=
  .next (s.gw d (if (s.g a).slt (s.g b) then s.g b else s.g a))

/-- `umin` (R245): unsigned minimum. -/
def execUmin (d : BitVec 5) (a : BitVec 5) (b : BitVec 5) (s : State) : Result :=
  .next (s.gw d (if (s.g a).ult (s.g b) then s.g a else s.g b))

/-- `umax` (R245): unsigned maximum. -/
def execUmax (d : BitVec 5) (a : BitVec 5) (b : BitVec 5) (s : State) : Result :=
  .next (s.gw d (if (s.g a).ult (s.g b) then s.g b else s.g a))

/-- `popc` (R245): number of set bits. -/
def execPopc (d : BitVec 5) (a : BitVec 5) (s : State) : Result :=
  .next (s.gw d (BitVec.ofNat 64 (popCount (s.g a))))

/-- `clz` (R245): leading zero bits. -/
def execClz (d : BitVec 5) (a : BitVec 5) (s : State) : Result :=
  .next (s.gw d (BitVec.ofNat 64 (leadZeros (s.g a))))

/-- `ctz` (R245): trailing zero bits. -/
def execCtz (d : BitVec 5) (a : BitVec 5) (s : State) : Result :=
  .next (s.gw d (BitVec.ofNat 64 (trailZeros (s.g a))))

/-- `ext` (R245): field of ga, zero-extended. -/
def execExt (d : BitVec 5) (a : BitVec 5) (b : BitVec 5) (s : State) : Result :=
  .next (s.gw d (BitVec.ofNat 64 (fieldOf (s.g a) (s.g b))))

/-- `exts` (R245): field of ga, sign-extended. -/
def execExts (d : BitVec 5) (a : BitVec 5) (b : BitVec 5) (s : State) : Result :=
  .next (s.gw d (sext (fieldWid (s.g b)) (fieldOf (s.g a) (s.g b))))

/-- `ins` (R245): ga into a field of gd. -/
def execIns (d : BitVec 5) (a : BitVec 5) (b : BitVec 5) (s : State) : Result :=
  .next (s.gw d (putBits (s.g d) (fieldPos (s.g b)) (fieldWid (s.g b)) (s.g a).toNat))

/-- `addi` (R246): plus an immediate. -/
def execAddi (d : BitVec 5) (a : BitVec 5) (i : BitVec 14) (s : State) : Result :=
  .next (s.gw d (s.g a + i.signExtend 64))

/-- `andi` (R246): AND with an immediate. -/
def execAndi (d : BitVec 5) (a : BitVec 5) (i : BitVec 11) (s : State) : Result :=
  .next (s.gw d (s.g a &&& i.signExtend 64))

/-- `ori` (R246): OR with an immediate. -/
def execOri (d : BitVec 5) (a : BitVec 5) (i : BitVec 11) (s : State) : Result :=
  .next (s.gw d (s.g a ||| i.signExtend 64))

/-- `xori` (R246): XOR with an immediate. -/
def execXori (d : BitVec 5) (a : BitVec 5) (i : BitVec 11) (s : State) : Result :=
  .next (s.gw d (s.g a ^^^ i.signExtend 64))

/-- `shli` (R246): left by an immediate. -/
def execShli (d : BitVec 5) (a : BitVec 5) (n : BitVec 6) (s : State) : Result :=
  .next (s.gw d (s.g a <<< n.toNat))

/-- `shri` (R246): logical right by an immediate. -/
def execShri (d : BitVec 5) (a : BitVec 5) (n : BitVec 6) (s : State) : Result :=
  .next (s.gw d (s.g a >>> n.toNat))

/-- `srai` (R246): arithmetic right by an immediate. -/
def execSrai (d : BitVec 5) (a : BitVec 5) (n : BitVec 6) (s : State) : Result :=
  .next (s.gw d ((s.g a).sshiftRight n.toNat))

/-- `rori` (R246): rotate right by an immediate. -/
def execRori (d : BitVec 5) (a : BitVec 5) (n : BitVec 6) (s : State) : Result :=
  .next (s.gw d ((s.g a).rotateRight n.toNat))

/-- `arithmeticNoOp` (R210): no effect. -/
def execArithmeticNoOp (s : State) : Result :=
  .next s

end Sys2Proof.Machine
end

