-- ==== Sys2Proof/Machine/Predicate.lean ====
section
/-! DEFINITION. Compares and predicate logic (R247, R248, R252). p0 reads 1 through `Ctx.rp`. -/

namespace Sys2Proof.Machine

/-- `cmp` (R247): pd := (ga C gb). -/
def execCmp (d : BitVec 3) (a : BitVec 5) (b : BitVec 5) (c : Cond) (s : State) : Result :=
  .next (s.pw d (condHolds c (s.g a) (s.g b)))

/-- `cmpi` (R247): pd := (ga C immediate). -/
def execCmpi (d : BitVec 3) (a : BitVec 5) (c : Cond) (i : BitVec 11) (s : State) : Result :=
  .next (s.pw d (condHolds c (s.g a) (i.signExtend 64)))

/-- `pand` (R248): pa AND pb. -/
def execPand (d : BitVec 3) (a : BitVec 3) (b : BitVec 3) (s : State) : Result :=
  .next (s.pw d (s.p a && s.p b))

/-- `por` (R248): pa OR pb. -/
def execPor (d : BitVec 3) (a : BitVec 3) (b : BitVec 3) (s : State) : Result :=
  .next (s.pw d (s.p a || s.p b))

/-- `pxor` (R248): pa XOR pb. -/
def execPxor (d : BitVec 3) (a : BitVec 3) (b : BitVec 3) (s : State) : Result :=
  .next (s.pw d (s.p a != s.p b))

/-- `pandn` (R248): pa AND NOT pb. -/
def execPandn (d : BitVec 3) (a : BitVec 3) (b : BitVec 3) (s : State) : Result :=
  .next (s.pw d (s.p a && !s.p b))

/-- `pnot` (R248): NOT pa. -/
def execPnot (d : BitVec 3) (a : BitVec 3) (s : State) : Result :=
  .next (s.pw d (!s.p a))

/-- `pread` (R248): gd := the predicates, bit 0 = 1. -/
def execPread (d : BitVec 5) (s : State) : Result :=
  .next (s.gw d ((s.c.p ||| 1#8).setWidth 64))

/-- `pwrite` (R248): p1 to p7 := ga[7:1]. -/
def execPwrite (a : BitVec 5) (s : State) : Result :=
  .next (s.modC fun c => { c with p := (c.rg a).setWidth 8 ||| 1#8 })

/-- `ptest` (R248): pd := (ga ≠ 0). -/
def execPtest (d : BitVec 3) (a : BitVec 5) (s : State) : Result :=
  .next (s.pw d (s.g a != 0))

/-- `feq` (R252): equal. -/
def execFeq (d : BitVec 3) (a : BitVec 5) (b : BitVec 5) (t : Bool) (s : State) : Result :=
  .next (s.pw d (fcmpHolds (fmtOf t) .eq (fpIn t (s.g a)) (fpIn t (s.g b))))

/-- `flt` (R252): less. -/
def execFlt (d : BitVec 3) (a : BitVec 5) (b : BitVec 5) (t : Bool) (s : State) : Result :=
  .next (s.pw d (fcmpHolds (fmtOf t) .lt (fpIn t (s.g a)) (fpIn t (s.g b))))

/-- `fle` (R252): less or equal. -/
def execFle (d : BitVec 3) (a : BitVec 5) (b : BitVec 5) (t : Bool) (s : State) : Result :=
  .next (s.pw d (fcmpHolds (fmtOf t) .le (fpIn t (s.g a)) (fpIn t (s.g b))))

/-- `fun` (R252): unordered. -/
def execFun (d : BitVec 3) (a : BitVec 5) (b : BitVec 5) (t : Bool) (s : State) : Result :=
  .next (s.pw d (fcmpHolds (fmtOf t) .un (fpIn t (s.g a)) (fpIn t (s.g b))))

end Sys2Proof.Machine
end

