-- ==== Sys2Proof/Machine/ScalarFp.lean ====
section
/-! DEFINITION. Scalar floating point (R249 to R253). An FP32 instruction reads bits [31:0] and writes a zero-extended
result; every rounding instruction rounds its exact result once. -/

namespace Sys2Proof.Machine

/-- `fadd` (R250): sum rounded once. -/
def execFadd (t : Bool) (d : BitVec 5) (a : BitVec 5) (b : BitVec 5) (r : Rm) (s : State) : Result :=
  .next ((s.gw d (fpOut ((fmtOf t).round r s.rnd (Fp.add r ((fmtOf t).decode (fpIn t (s.g a))) ((fmtOf t).decode (fpIn t (s.g b))))))).drew r 1)

/-- `fsub` (R250): difference rounded once. -/
def execFsub (t : Bool) (d : BitVec 5) (a : BitVec 5) (b : BitVec 5) (r : Rm) (s : State) : Result :=
  .next ((s.gw d (fpOut ((fmtOf t).round r s.rnd (Fp.add r ((fmtOf t).decode (fpIn t (s.g a))) (((fmtOf t).decode (fpIn t (s.g b))).neg))))).drew r 1)

/-- `fmul` (R250): product rounded once. -/
def execFmul (t : Bool) (d : BitVec 5) (a : BitVec 5) (b : BitVec 5) (r : Rm) (s : State) : Result :=
  .next ((s.gw d (fpOut ((fmtOf t).round r s.rnd (Fp.mul ((fmtOf t).decode (fpIn t (s.g a))) ((fmtOf t).decode (fpIn t (s.g b))))))).drew r 1)

/-- `fdiv` (R250): quotient rounded once. -/
def execFdiv (t : Bool) (d : BitVec 5) (a : BitVec 5) (b : BitVec 5) (r : Rm) (s : State) : Result :=
  .next ((s.gw d (fpOut ((fmtOf t).round r s.rnd (Fp.div ((fmtOf t).decode (fpIn t (s.g a))) ((fmtOf t).decode (fpIn t (s.g b))))))).drew r 1)

/-- `fsqrt` (R250): square root rounded once. -/
def execFsqrt (t : Bool) (d : BitVec 5) (a : BitVec 5) (r : Rm) (s : State) : Result :=
  .next ((s.gw d (fpOut ((fmtOf t).round r s.rnd (Fp.sqrt ((fmtOf t).decode (fpIn t (s.g a))))))).drew r 1)

/-- `fmin` (R250): minimum by R140. -/
def execFmin (t : Bool) (d : BitVec 5) (a : BitVec 5) (b : BitVec 5) (s : State) : Result :=
  .next (s.gw d (fpOut ((fmtOf t).fmin (fpIn t (s.g a)) (fpIn t (s.g b)))))

/-- `fmax` (R250): maximum by R140. -/
def execFmax (t : Bool) (d : BitVec 5) (a : BitVec 5) (b : BitVec 5) (s : State) : Result :=
  .next (s.gw d (fpOut ((fmtOf t).fmax (fpIn t (s.g a)) (fpIn t (s.g b)))))

/-- `fabs` (R250): sign bit cleared. -/
def execFabs (t : Bool) (d : BitVec 5) (a : BitVec 5) (s : State) : Result :=
  .next (s.gw d (fpOut (fpIn t (s.g a) % 2 ^ (fmtOf t).mw)))

/-- `fneg` (R250): sign bit inverted. -/
def execFneg (t : Bool) (d : BitVec 5) (a : BitVec 5) (s : State) : Result :=
  .next (s.gw d (fpOut ((fpIn t (s.g a) + 2 ^ (fmtOf t).mw) % 2 ^ ((fmtOf t).mw + 1))))

/-- `fma` (R251): ga × gb + gc. -/
def execFma (t : Bool) (d : BitVec 5) (a : BitVec 5) (b : BitVec 5) (c : BitVec 5) (r : Rm) (s : State) : Result :=
  .next (s.gw d (fpOut ((fmtOf t).fma r false false (fpIn t (s.g a)) (fpIn t (s.g b)) (fpIn t (s.g c)))))

/-- `fms` (R251): ga × gb − gc. -/
def execFms (t : Bool) (d : BitVec 5) (a : BitVec 5) (b : BitVec 5) (c : BitVec 5) (r : Rm) (s : State) : Result :=
  .next (s.gw d (fpOut ((fmtOf t).fma r false true (fpIn t (s.g a)) (fpIn t (s.g b)) (fpIn t (s.g c)))))

/-- `fnma` (R251): −(ga × gb) + gc. -/
def execFnma (t : Bool) (d : BitVec 5) (a : BitVec 5) (b : BitVec 5) (c : BitVec 5) (r : Rm) (s : State) : Result :=
  .next (s.gw d (fpOut ((fmtOf t).fma r true false (fpIn t (s.g a)) (fpIn t (s.g b)) (fpIn t (s.g c)))))

/-- `fnms` (R251): −(ga × gb) − gc. -/
def execFnms (t : Bool) (d : BitVec 5) (a : BitVec 5) (b : BitVec 5) (c : BitVec 5) (r : Rm) (s : State) : Result :=
  .next (s.gw d (fpOut ((fmtOf t).fma r true true (fpIn t (s.g a)) (fpIn t (s.g b)) (fpIn t (s.g c)))))

/-- `fclass` (R252): class mask. -/
def execFclass (d : BitVec 5) (a : BitVec 5) (t : Bool) (s : State) : Result :=
  .next (s.gw d (fpOut (2 ^ (fmtOf t).fclass (fpIn t (s.g a)))))

/-- `cvtSD` (R253): FP64 to FP32. -/
def execCvtSD (d : BitVec 5) (a : BitVec 5) (r : Rm) (s : State) : Result :=
  .next ((s.gw d (fpOut (Fmt.fp32.round r s.rnd (Fmt.fp64.decode (s.g a).toNat)))).drew r 1)

/-- `cvtDS` (R253): FP32 to FP64. -/
def execCvtDS (d : BitVec 5) (a : BitVec 5) (s : State) : Result :=
  .next (s.gw d (fpOut (widen Fmt.fp32 Fmt.fp64 ((s.g a).toNat % 4294967296))))

/-- `cvtSL` (R253): signed integer to floating. -/
def execCvtSL (d : BitVec 5) (a : BitVec 5) (r : Rm) (t : Bool) (s : State) : Result :=
  .next ((s.gw d (fpOut ((fmtOf t).round r s.rnd (Fp.ofInt (s.g a).toInt)))).drew r 1)

/-- `cvtLS` (R253): floating to signed integer. -/
def execCvtLS (d : BitVec 5) (a : BitVec 5) (r : Rm) (t : Bool) (s : State) : Result :=
  .next ((s.gw d (BitVec.ofInt 64 (toInt64 r s.rnd ((fmtOf t).decode (fpIn t (s.g a)))))).drew r 1)

/-- `cvtSLu` (R253): unsigned integer to floating. -/
def execCvtSLu (d : BitVec 5) (a : BitVec 5) (r : Rm) (t : Bool) (s : State) : Result :=
  .next ((s.gw d (fpOut ((fmtOf t).round r s.rnd (Fp.ofInt (s.g a).toNat)))).drew r 1)

/-- `cvtLuS` (R253): floating to unsigned integer. -/
def execCvtLuS (d : BitVec 5) (a : BitVec 5) (r : Rm) (t : Bool) (s : State) : Result :=
  .next ((s.gw d (BitVec.ofInt 64 (toUInt64 r s.rnd ((fmtOf t).decode (fpIn t (s.g a)))))).drew r 1)

/-- `cvtBfS` (R253): FP32 to BF16 or FP16. -/
def execCvtBfS (d : BitVec 5) (a : BitVec 5) (r : Rm) (h : Bool) (s : State) : Result :=
  .next ((s.gw d (fpOut ((if h then Fmt.fp16 else Fmt.bf16).round r s.rnd (Fmt.fp32.decode ((s.g a).toNat % 4294967296))))).drew r 1)

/-- `cvtE4S` (R253): FP32 to E4M3 or E5M2. -/
def execCvtE4S (d : BitVec 5) (a : BitVec 5) (r : Rm) (e : Bool) (s : State) : Result :=
  .next ((s.gw d (fpOut ((if e then Fmt.e5m2 else Fmt.e4m3).round r s.rnd (Fmt.fp32.decode ((s.g a).toNat % 4294967296))))).drew r 1)

/-- `cvtSBf` (R253): BF16 or FP16 to FP32. -/
def execCvtSBf (d : BitVec 5) (a : BitVec 5) (h : Bool) (s : State) : Result :=
  .next (s.gw d (fpOut (widen (if h then Fmt.fp16 else Fmt.bf16) Fmt.fp32 ((s.g a).toNat % 65536))))

/-- `cvtSE4` (R253): E4M3 or E5M2 to FP32. -/
def execCvtSE4 (d : BitVec 5) (a : BitVec 5) (e : Bool) (s : State) : Result :=
  .next (s.gw d (fpOut (widen (if e then Fmt.e5m2 else Fmt.e4m3) Fmt.fp32 ((s.g a).toNat % 256))))

end Sys2Proof.Machine
end

