-- ==== Sys2Proof/Machine/Slice.lean ====
section
/-! DEFINITION. The home side of requests and their return: L2 slices with their input queues, miss entries and refusals,
far atomics and reductions at the home, replies and acknowledgements, page walks, the replay queue's retries, and the
SIGNAL entries of host queues (R36 to R41, R78 to R91, R99, R128 to R132, R144, R145, R152 to R155, R276, R368). -/

namespace Sys2Proof.Machine

/-! ### Targets that are no memory (R11, R12, R412, R421) -/

/-- Served at its target without a cache: regions 0x3 to 0x5, device memory, and host memory reached uncached (R82, R138). -/
def Req.direct (q : Req) : Bool := q.device || q.uncached || (decide (3 ≤ paRegion q.pa) && decide (paRegion q.pa ≤ 5))

/-- Bytes stored to hub registers: each 8-byte register touched takes one write, whose other RW bits keep their value. -/
def State.hubStore (s : State) (h off : Nat) (bs : List (Nat × Byte)) : State :=
  (List.range 16).foldl (fun s i =>
    let mine := bs.filter fun b => b.1 / 8 = i
    if mine.isEmpty then s
    else
      let o := off + 8 * i
      let rw := match hubReg o with | some r => r.rw | none => 0
      let keep := toBytes 8 ((s.hubRead h o).getD 0 &&& rw).toNat
      let v := mine.foldl (fun (l : List Byte) b => l.set (b.1 % 8) b.2) keep
      s.regWrite h o (BitVec.ofNat 64 (ofBytes v))) s

/-- Bytes of a line written at its target: registers of regions 0x4 and 0x5, host memory reached uncached, or memory. -/
def State.targetWrite (s : State) (line home : Nat) (asid : BitVec 16) (by_ : Option (Nat × Nat)) (uncached : Bool)
    (bs : List (Nat × Byte)) : State :=
  let pa := line * 128
  match paRegion pa with
  | 3 => bs.foldl (fun s b => (s.powerPa (pa + b.1) 1).setByte (pa + b.1) b.2) (s.ungateDie (paSite pa))
  | 4 =>
    let s := s.ungateDie (paSite pa)
    (match bs with
      | [] => s
      | b :: _ =>
        s.coreRegWrite (paSite pa) (pa / 524288 % 256) (pa % 65536 + b.1) bs.length (BitVec.ofNat 64 (ofBytes (bs.map (·.2)))))
  | 5 => s.hubStore (s.phys (paSite pa)) (pa % 16777216) bs
  | _ =>
    let s := (if uncached then s.hostSnoops line else s).homeWrite line home asid by_ bs
    if uncached ∧ 8 ≤ paRegion pa then
      (match bs with
        | [] => s
        | b :: _ => s.emit (.hostWrite ((s.hapClaim pa).getD 0) ((pa + b.1) % 2251799813685248) (bs.map (·.2))))
    else s

/-! ### Service at the home (R82, R84, R88, R94) -/

/-- A request that reads a line and joins a miss (R84). -/
def ReqKind.reads : ReqKind → Bool
  | .load _ => true
  | .acq _ _ => true
  | _ => false

/-- A prefetch, of the program or ahead of it. -/
def ReqKind.prefetch : ReqKind → Bool
  | .load (.prefetch _) => true
  | .load .ahead => true
  | _ => false

/-- A request meets poison: a peer's answer says so, a prefetch is dropped, any other read gives its context cause 0x30; a copy's
chunk that waits for it goes. -/
def State.meetPoison (s : State) (q : Req) : State :=
  let s := s.dropReq q.id
  match q.ext with
  | some (port, id) => s.peerAnswer port (.copyPoisoned id)
  | none =>
    let s := if (s.core q.who.site q.who.core).chunks.any fun c => c.id = q.id then
        s.setChunks q.who.site q.who.core fun l => l.filter fun c => c.id != q.id
      else s
    if q.orphan || q.kind.prefetch then s
    else s.modCtx q.who fun c => { c with fatal := some (0x30, BitVec.ofNat 64 (s.lineOf q.pa * 128)) }

/-- Bytes of a store or write-back. -/
def ReqKind.bytes : ReqKind → List (Nat × Byte)
  | .store bs _ => bs
  | .writeback bs _ => bs
  | _ => []

/-- A request to host memory that no decoder entry claims at the moment at which its home decodes it has no target (R14, R429): it
changes nothing, a read gives all-ones, its context takes cause 0x09 at its next bundle boundary, an engine's command ends with
reason 3 (log entry 86). -/
def State.unclaimed (s : State) (q : Req) : State :=
  let r := q.who
  let k := s.core r.site r.core
  let job := match q.kind with | .store _ j => j | .load (.engine j) => j | _ => 0
  let s := s.modReq q.id fun x => { x with stage := .done, data := List.replicate 128 0xFF, value := ones 0 64 }
  if q.orphan || q.kind.prefetch || q.ext.isSome || q.kind.back then s
  else if job = 0 then (s.modCtx r fun c => { c with pendStore := c.pendStore ++ [(0x09, q.va)] }).rouse r
  else
    match k.chunks.find? fun c => c.id = q.id with
    | some c => s.chunkFault r.site r.core c 3 q.va
    | none => s.mxFault r job (((k.mxq.find? fun m => m.job = job).map (·.tag)).getD 0) 3 q.va

/-- A request is served: a read's value is fixed, a write is accepted, an atomic or reduction waits in the slice. -/
def State.serveReq (s : State) (q : Req) : State :=
  let line := s.lineOf q.pa
  let done (s : State) (f : Req → Req) : State := s.modReq q.id fun x => f { x with stage := .done }
  if s.hostHolds line && !q.kind.exch then (s.snoop line).modReq q.id fun x => { x with stage := .snoop }
  else if 8 ≤ paRegion q.pa && (s.hapClaim q.pa).isNone then s.unclaimed q
  else
    match q.kind with
    | .load _ =>
      if s.poison.contains line then s.meetPoison q
      else
        let s := if 3 ≤ paRegion q.pa ∧ paRegion q.pa ≤ 4 then (s.ungateDie (paSite q.pa)).powerPa (line * 128) 128 else s
        let l := s.targetLine (s.plain q.pa)
        let s := if q.uncached then
            (s.hostSnoops line).emit (.hostRead ((s.hapClaim q.pa).getD 0) (line * 128 % 2251799813685248) 128)
          else s
        done s fun x => { x with data := l }
    | .acq _ _ =>
      if s.poison.contains line then s.meetPoison q
      else
        let v := s.dword (s.plain q.pa)
        done s fun x => { x with value := v }
    | .store bs job =>
      let by_ := if job = 0 then some (q.who.site, q.who.core) else none
      done (s.targetWrite line q.home q.asid by_ q.uncached bs) id
    | .writeback bs _ => done (s.targetWrite line q.home q.asid none false bs) id
    | _ => s.modReq q.id fun x => { x with stage := .queued }

/-- A slice of a site. -/
def State.slice (s : State) (home k : Nat) : Slice := Table.get (⟨[], [], []⟩ : Slice) s.slices (home * 16 + k)

/-- Change a slice. -/
def State.modSlice (s : State) (home k : Nat) (f : Slice → Slice) : State :=
  { s with slices := Table.put s.slices (home * 16 + k) (f (s.slice home k)) }

/-- Slice of a request's line (R83). -/
def State.sliceOfReq (s : State) (q : Req) : Nat := sliceOf (s.lineOf q.pa)

/-! ### Slices (R84, R85) -/

/-- Bounds of a retry hint. -/
def clampHint (n : Nat) : Nat := min 255 (max 4 n)

/-- Younger requests of the core to the slice that may have left behind a request before its refusal came back: the order in
which such requests are performed can be another than that of the program (R86). How many had is a free choice. -/
def State.behind (s : State) (q : Req) : List Nat :=
  let l := s.reqs.filter fun x =>
    x.stage == .sent && decide (q.id < x.id) && s.sameSlice q x && !q.kind.back && !x.kind.back &&
      !(s.reqs.any fun y => decide (y.id < x.id) && y.id != q.id && s.holdsBack y x && !(y.stage == .sent && s.sameSlice y x)) &&
      s.lineOf q.pa != s.lineOf x.pa
  (l.take (Config.choice s.tick % (l.length + 1))).map (·.id)

/-- A request is refused: `queueFull` and `other` say which rows of R84 apply; the fill time is free (log entry 6). -/
def State.refuseReq (s : State) (q : Req) (len : Nat) (queueFull other : Bool) : State :=
  let hint := clampHint (max (if queueFull then 2 * len else 0) (if other then Config.choice s.tick % 256 else 0))
  let gone := s.behind q
  { s.next with reqs := s.reqs.map fun x =>
      if x.id = q.id then { x with stage := .refused hint, refusals := x.refusals + 1 }
      else if gone.contains x.id then { x with stage := .left } else x }

/-- Requests in the 14 queue slots that are open to all. -/
def Slice.open_ (l : Slice) : Nat := (l.queue.filter fun i => !l.kept.contains i).length

/-- A request that has been refused four times. -/
def Req.aged (q : Req) : Bool := 4 ≤ q.refusals

/-- The queue slots open to a request are all taken: the 14 open ones, and for an aged one the 2 kept ones too. -/
def Slice.full (l : Slice) (q : Req) : Bool := 14 ≤ l.open_ && (!q.aged || 2 ≤ l.kept.length)

/-- A request takes a queue slot: an open one, else a kept one. -/
def Slice.enter (l : Slice) (q : Req) : Slice :=
  { l with queue := l.queue ++ [q.id], kept := if l.open_ < 14 then l.kept else l.kept ++ [q.id] }

/-- A request leaves the queue. -/
def Slice.leave (l : Slice) (id : Nat) : Slice := { l with queue := l.queue.filter (· != id), kept := l.kept.filter (· != id) }

/-- A request that misses takes a miss entry, joins one, or is queued where it may be; none where it can do none of these. -/
def State.takeMiss (s : State) (q : Req) (mayQueue : Bool) : Option State :=
  let k := s.sliceOfReq q
  let line := s.lineOf q.pa
  let l := s.slice q.home k
  let wait (st : ReqStage) (s : State) : State := s.modReq q.id fun x => { x with stage := st }
  match l.miss.find? fun m => m.line = line with
  | some m =>
    if q.kind.reads ∧ m.joiners.length < 8 then
      some (wait .missing (s.modSlice q.home k fun l =>
        { l with miss := l.miss.map fun m => if m.line = line then { m with joiners := m.joiners ++ [q.id] } else m }))
    else none
  | none =>
    if l.miss.length < 32 then some (wait .missing (s.modSlice q.home k fun l => { l with miss := l.miss ++ [⟨line, []⟩] }))
    else if mayQueue ∧ !l.full q then some (wait .queued (s.modSlice q.home k fun l => l.enter q))
    else none

/-- A reduction. -/
def ReqKind.isReduce : ReqKind → Bool
  | .reduce _ _ _ _ => true
  | _ => false

/-- A request reaches its slice. A reduction to a line that is present waits in the queue, where others may join it (R153). -/
def State.sliceTake (s : State) (q : Req) : State :=
  let k := s.sliceOfReq q
  let l := s.slice q.home k
  let line := s.lineOf q.pa
  if q.direct then s.serveReq q
  else if l.full q then
    let other := match l.miss.find? fun m => m.line = line with
      | some m => !q.kind.reads || decide (8 ≤ m.joiners.length)
      | none => decide (32 ≤ l.miss.length)
    s.refuseReq q l.queue.length true (!s.inL2 line && other)
  else if s.inL2 line then
    if q.kind.isReduce && !s.hostHolds line then
      (s.modReq q.id fun x => { x with stage := .queued }).modSlice q.home k fun l => l.enter q
    else s.serveReq q
  else (s.takeMiss q true).getD (s.refuseReq q l.queue.length false true)

/-- `sliceRequest` event (R84): an owned line has to be recalled first. -/
def execSliceRequest (id : Nat) (s : State) : Result :=
  match s.req id with
  | none => .next s
  | some q =>
    if !s.mayLeave q || q.kind.isReduce || q.kind.exch || (s.ownerOf (s.lineOf q.pa)).isSome then .next s
    else .next ((s.overtake q).sliceTake q)

/-- `retryTimerExpiry` event (R85). -/
def execRetryTimerExpiry (id : Nat) (s : State) : Result :=
  match s.req id with
  | none => .next s
  | some q =>
    match q.stage with
    | .refused _ => .next (s.modReq id fun x => { x with stage := .sent })
    | _ => .next s

/-- A queued request moves into the miss entry that was freed: the first of the queue that can. One whose line has come in
meanwhile is served; a reduction then waits for its application. -/
def State.moveQueued (s : State) (home k : Nat) : List Nat → State
  | [] => s
  | id :: l =>
    match s.req id with
    | none => State.moveQueued s home k l
    | some q =>
      let gone (s : State) : State := s.modSlice home k fun x => x.leave id
      if s.inL2 (s.lineOf q.pa) then
        -- an owner gives the line back first (R146)
        (if q.kind.isReduce then State.moveQueued s home k l else gone ((s.recallLine (s.lineOf q.pa) q.agent).serveReq q))
      else
        match s.takeMiss q false with
        | some s' => gone s'
        | none => State.moveQueued s home k l

/-- `missFill` event (R84): the line comes in, its request and joiners are served, one queued request moves up. -/
def execMissFill (id : Nat) (s : State) : Result :=
  match s.req id with
  | none => .next s
  | some q =>
    let k := s.sliceOfReq q
    let line := s.lineOf q.pa
    match (s.slice q.home k).miss.find? fun m => m.line = line with
    | none => .next s
    | some m =>
      if q.stage ≠ .missing ∨ m.joiners.contains id ∨ (s.ownerOf line).isSome then .next s
      else
        let s := (s.fillL2 line q.home).modSlice q.home k fun l => { l with miss := l.miss.filter fun x => x.line != line }
        let s := (id :: m.joiners).foldl (fun s i => match s.req i with | some x => s.serveReq x | none => s) s
        .next (s.moveQueued q.home k (s.slice q.home k).queue)

/-! ### Far atomics (R144, R145, R148) -/

/-- The predictor's eighth far atomic of its die that found no other request for its line (R148). -/
def State.farAlone (s : State) (q : Req) : State :=
  let line := s.lineOf q.pa
  let other := s.reqs.any fun x =>
    x.id != q.id && s.lineOf x.pa == line && (match x.stage with | .queued => true | .missing => true | _ => false)
  if other then s
  else
    let n := Table.get 0 (s.die q.who.site).farRun (predIdx line) + 1
    if n = 8 then s.predMove q.who.site line false
    else s.modDie q.who.site fun d => { d with farRun := Table.put d.farRun (predIdx line) n }

/-- An atomic's word at its target: old value, and the write of a new one. -/
def State.atomicAt (s : State) (q : Req) (o : AtomOp) (dbl : Bool) (v : W64) : State × Nat :=
  let n := atomSize dbl
  let pa := s.plain q.pa
  let old := ofBytes ((s.targetRead pa n).getD [])
  match atomNew o dbl old v.toNat with
  | none => (s, old)
  | some x =>
    (s.targetWrite (s.lineOf pa) q.home q.asid none false (runAt (pa % 128) (toBytes n x)), old)

/-- `farAtomic` event. -/
def execFarAtomic (id : Nat) (s : State) : Result :=
  match s.req id with
  | none => .next s
  | some q =>
    match q.stage, q.kind with
    | .queued, .atomic o dbl v _ _ _ =>
      let line := s.lineOf q.pa
      if (s.slice q.home (s.sliceOfReq q)).queue.contains id ∨ (s.ownerOf line).isSome then .next s
      else if s.hostHolds line then .next ((s.snoop line).modReq id fun x => { x with stage := .snoop })
      else if s.poison.contains line then .next (s.meetPoison q)
      else
        let (s, old) := (s.farAlone q).atomicAt q o dbl v
        .next (s.modReq id fun x => { x with stage := .done, value := BitVec.ofNat 64 old })
    | _, _ => .next s

/-! ### Reductions (R152 to R155) -/

/-- Same word, operation and size, and the waiting packet has fewer than 64 contributors; the two addresses of a word of the
interleaved window are one (log entry 61). -/
def State.sameWord (s : State) (w q : Req) : Bool :=
  match w.kind, q.kind with
  | .reduce o d _ c, .reduce o' d' _ c' =>
    w.id != q.id && s.plain w.pa == s.plain q.pa && o == o' && d == d' && !c.isEmpty && !c'.isEmpty && decide (c.length < 64)
  | _, _ => false

/-- The output queue at a place of a reduction's route: the switch, the network, and the next switch; none past the last
switch, whose way is to the home's slice. -/
def State.outQueue (s : State) (q : Req) (step : Nat) : Option (Nat × Bool × Nat) :=
  let l := s.route q.who.site q.home
  match l[step]?, l[step + 1]? with
  | some (h, n), some (h', _) => some (h, n, h')
  | _, _ => none

/-- Where a reduction packet waits: in a switch's output queue, or in the home slice's input queue. -/
def State.waitsAt (s : State) (w : Req) : Option (Option (Nat × Bool × Nat)) :=
  match w.stage with
  | .onPath k _ => some (s.outQueue w k)
  | .queued => if (s.slice w.home (s.sliceOfReq w)).queue.contains w.id then some none else none
  | _ => none

/-- A waiting packet takes up one that arrives at its queue: an output queue, or (`none`) the home slice's. -/
def State.mergesWith (s : State) (place : Option (Nat × Bool × Nat)) (w q : Req) : Bool :=
  s.sameWord w q && s.waitsAt w == some place

/-- Combined operand (R153). -/
def combine (o : AmoOp) (dbl : Bool) (a b : W64) : W64 :=
  BitVec.ofNat 64 ((atomNew (.op o) dbl (a.toNat % 2 ^ (8 * atomSize dbl)) b.toNat).getD 0)

/-- A packet that entered a queue earlier is still there, from the same site to the same home on the same link of each pair: links
keep their order (R413, R415). A packet that has merged into another is no packet of its own any more. -/
def State.reduceBehind (s : State) (q : Req) (step age : Nat) : Bool :=
  s.reqs.any fun x =>
    match x.stage, x.kind with
    | .onPath k a, .reduce _ _ _ c =>
      k = step && decide (a < age) && !c.isEmpty && s.sameLinks x q
    | _, _ => false

/-- The queue that a reduction packet reaches next, with its number on the route; none while the packet may not move. -/
def State.nextQueue (s : State) (q : Req) : Option (Nat × Option (Nat × Bool × Nat)) :=
  match q.stage with
  | .onPath k age => if s.reduceBehind q k age then none else some (k + 1, s.outQueue q (k + 1))
  | .sent => if s.mayLeave q then some (0, s.outQueue q 0) else none
  | .left => if s.mayLeave q then some (0, s.outQueue q 0) else none
  | _ => none

/-- `reductionPacketArrival` event (R153): a packet reaches the next queue on its way, merges into one that waits there, or
waits itself; at the home its slice takes or refuses it. A packet that has merged keeps no contributors of its own. -/
def execReductionPacketArrival (id : Nat) (s : State) : Result :=
  match s.req id with
  | none => .next s
  | some q =>
    match q.kind, s.nextQueue q with
    | .reduce o dbl v c, some (step, place) =>
      if c.isEmpty then .next s
      else
        let s := s.overtake q
        let setKind (s : State) (i : Nat) (v : W64) (c : List (Nat × CtxRef)) : State :=
          s.modReq i fun x => { x with kind := .reduce o dbl v c }
        match s.reqs.find? fun w => s.mergesWith place w q with
        | some w =>
          (match w.kind with
            | .reduce _ _ a ws =>
              .next (setKind ((setKind s w.id (combine o dbl a v) (ws ++ c)).modReq id fun x => { x with stage := .queued }) id v [])
            | _ => .next s)
        | none =>
          match place with
          | some _ => .next { s.modReq id fun x => { x with stage := .onPath step s.nextId } with nextId := s.nextId + 1 }
          | none => if (s.ownerOf (s.lineOf q.pa)).isSome then .next s else .next (s.sliceTake q)
    | _, _ => .next s

/-- `reductionApply` event (R153 to R155): one application; every contributor is then acknowledged. The line has to be present,
or its fill to have come for this packet. -/
def execReductionApply (id : Nat) (s : State) : Result :=
  match s.req id with
  | none => .next s
  | some q =>
    match q.stage, q.kind with
    | .queued, .reduce o dbl v c =>
      let line := s.lineOf q.pa
      let queue := (s.slice q.home (s.sliceOfReq q)).queue
      if c.isEmpty ∨ (s.ownerOf line).isSome ∨ (!s.inL2 line && queue.contains id) then .next s
      else if s.hostHolds line then .next (s.snoop line)
      else
        let out (s : State) : State := s.modSlice q.home (s.sliceOfReq q) fun l => l.leave id
        if s.poison.contains line then
          .next (c.foldl (fun s i => match s.req i.1 with | some x => s.meetPoison x | none => s) (out s)).rollbacksOn
        else
          let s := c.foldl (fun s i => match s.req i.1 with | some x => s.logUndo line q.home x.asid | none => s) s
          let (s, _) := (out s).atomicAt q (.op o) dbl v
          .next (c.foldl (fun s i => s.modReq i.1 fun x => { x with stage := .done }) s).rollbacksOn
    | _, _ => .next s

/-! ### Pushes and pops at their home's slice (R84, R161) -/

/-- An application once each line that it touches is back at its home (R99, R146). -/
def State.exchNow (s : State) (q : Req) : State :=
  match s.claimLines q.agent (s.exchLines q) with
  | (s, false) => s
  | (s, true) => s.exchApply q

/-- `exchangeApply` event (R161): a packet reaches its home's slice, which takes or refuses it as any request (R84), and is applied
there with its line present, one at a time per object, in order of arrival. -/
def execExchangeApply (id : Nat) (s : State) : Result :=
  match s.req id with
  | none => .next s
  | some q =>
    let l := s.slice q.home (s.sliceOfReq q)
    match q.stage with
    | .atSwitch step age =>
      if !s.exchHere q step age then .next s
      else if l.full q || !s.inL2 (s.lineOf q.pa) then .next (s.sliceTake q)
      else .next (s.exchNow q)
    | .queued => if !q.kind.exch || l.queue.contains id then .next s else .next (s.exchNow q)
    | _ => .next s

/-! ### Replies (R78, R88, R105, R144, R160, R166, R178, R276) -/

/-- A message came back to a core. -/
def State.received (s : State) (r : CtxRef) : State :=
  s.modCore r.site r.core fun k => { k with msgRecv := k.msgRecv + 1 }

/-- A write of the die to a line is still on its way: a fill of the line may not stay. -/
def State.dieStores (s : State) (site line : Nat) : Bool :=
  s.reqs.any fun q => q.who.site == site && s.lineOf q.pa == line &&
    (match q.kind with
      | .load _ => false
      | .acq _ _ => false
      | _ => true)

/-- The bytes that a load of a die receives: those dirty in the die's cache stand (R88). -/
def State.mergeRdc (s : State) (site line : Nat) (data : List Byte) : List Byte :=
  match s.rdcFind site line with
  | some l => (List.range 128).map fun i => if l.dirty.getD i false then l.data.getD i 0 else data.getD i 0
  | none => data

/-- A line that came back is kept: in the die's cache when it is remote, in L1 unless it was only prefetched to L2 or for
a remote line. -/
def State.keepFill (s : State) (q : Req) (dst : LoadDst) (data : List Byte) : State :=
  let line := s.lineOf q.pa
  let remote := q.home != q.who.site
  let s := if remote then s.rdcFill q.who.site line q.home q.asid q.va data else s
  match dst with
  | .fetch _ => s
  | .prefetch l1 => if l1 && !remote then s.l1Put q.who.site q.who.core line data else s
  | _ => s.l1Put q.who.site q.who.core line data

/-- Put a line into a core's instruction cache: 256 lines (R81). -/
def State.icPut (s : State) (site core line : Nat) (data : List Byte) : State :=
  (s.modCore site core fun k =>
    { k with ic := insertCap 256 (Config.choice s.tick) (k.ic.filter fun l => l.line != line) ⟨line, data⟩ }).next

/-- A vector load of the context has other lines under way. -/
def State.lanesLeft (s : State) (q : Req) : Bool :=
  s.reqs.any fun x => x.id != q.id && x.who == q.who && !x.orphan && (match x.kind with | .load (.lanes _ _) => true | _ => false)

/-- A line that an engine asked for is there: for the chunk of a copy that carries the request's number, also when its context
has ended (R345), or for a command that is still in progress. -/
def State.engLands (s : State) (q : Req) (job : Nat) (data : List Byte) : State :=
  s.modCore q.who.site q.who.core fun k =>
    if k.chunks.any fun c => c.id = q.id then
      { k with chunks := k.chunks.map fun c =>
          if c.id = q.id then { c with stage := .bytes ((data.drop (c.src.toNat % 128)).take c.n) } else c }
    else if !q.orphan && k.mxq.any fun m => m.job = job then { k with ebuf := k.ebuf ++ [⟨job, s.lineOf q.pa, data⟩] }
    else k

/-- A load's bytes land in its context. -/
def State.loadLands (s : State) (q : Req) (dst : LoadDst) : State :=
  let r := q.who
  let line := s.lineOf q.pa
  let data := s.mergeRdc r.site line (patch q.data q.fwd)
  let s := if q.install && !s.dieStores r.site line then s.keepFill q dst data else s
  let s := match dst with
    | .engine job => s.engLands q job data
    | _ => s
  let s := if q.orphan then s
    else
      match dst with
      | .prefetch _ => s
      | .engine _ => s
      | .ahead => s
      | .fetch stale => if stale then s else s.icPut r.site r.core line data
      | .lanes _ _ =>
        let last := !s.lanesLeft q
        s.modCtx r fun c =>
          let c := c.deliver dst data
          if last then { c with ocl := c.ocl - 1, pend := c.pend.sub dst.pend } else c
      | _ => s.modCtx r fun c => { c.deliver dst data with ocl := c.ocl - 1, pend := c.pend.sub dst.pend }
  s

/-- An atomic that its context waits for. -/
def atomParks (d : BitVec 5) (ord : AmoOrd) : Bool := d ≠ 0 || (AmoOrd.acquires ord).isSome

/-- The end of a reply: the request is gone, the context's waits are looked at again. -/
def State.replied (s : State) (q : Req) (regs : RegSet) : State :=
  let s := (s.dropReq q.id).received q.who
  if q.orphan then s else ((s.answered q.who q.id).wake q.who).spill q.who regs

/-- A register write of a reply, the register no longer pending. -/
def State.replyG (s : State) (q : Req) (regs : RegSet) (f : Ctx → Ctx) : State :=
  (if q.orphan then s else s.modCtx q.who fun c => { f c with pend := c.pend.sub regs }).replied q regs

/-- The acquire part of an ordered atomic: on its object, where its word is one (R143); false while it has to wait. -/
def State.atomAcquire (s : State) (r : CtxRef) (va : W64) (ord : AmoOrd) : State × Bool :=
  match AmoOrd.acquires ord, objectOf va with
  | some e, some _ => s.acquirePart r va e
  | _, _ => (s, true)

/-- `replyArrival` event. A push's or pop's reply waits at a stopped core (R168); the answer to a peer's read goes back over
its link. -/
def execReplyArrival (id : Nat) (s : State) : Result :=
  match s.req id with
  | none => .next s
  | some q =>
    let r := q.who
    let held := !q.orphan && (s.ctx r).st == .stopped
    if q.stage ≠ .done then .next s
    else
      match q.ext with
      | some (port, i) =>
        (match q.kind with
          | .load _ => .next ((s.dropReq id).peerAnswer port (.copyReadReply i ((q.data.drop (q.pa % 128)).take q.page)))
          | _ => .next s)
      | none =>
      match q.kind with
      | .load dst => .next ((s.loadLands q dst).replied q dst.pend)
      | .atomic _ _ _ d ord _ =>
        if !atomParks d ord then .next s
        else
          (match if q.orphan then (s, true) else s.atomAcquire r q.va ord with
            | (s, false) => .next s
            | (s, true) => .next (s.replyG q (rG [d]) fun c => c.wg d q.value))
      | .acq d e =>
        (match if q.orphan then (s, true) else s.acquirePart r q.va e with
          | (s, false) => .next s
          | (s, true) => .next (s.replyG q (rG [d]) fun c => c.wg d q.value))
      | .answer d =>
        -- `bind` is complete once every die has written back what it held under the binding (R109)
        if s.objBusy q.asid q.va then .next s else .next (s.replyG q (rG [d]) fun c => c.wg d q.value)
      | .push _ _ d _ =>
        if held then .next s
        else .next (s.replyG q (rG [d]) fun c => { c.wg d (BitVec.ofNat 64 q.status) with ocs := c.ocs - 1 })
      | .pop _ d p e =>
        if held then .next s
        else
          let v := if q.status = 0 then q.value else BitVec.ofNat 64 q.status
          let s := if q.orphan then s else s.fenceAct r.site e
          .next (s.replyG q ((rG [d]).union (rP [p])) fun c => (c.wg d v).wp p (q.status == 0))
      | _ => .next s

/-- `writeAcknowledged` event (R99, R276): the write counts as performed and ocs decrements; a vector store's when the
last of its lines is acknowledged. -/
def execWriteAcknowledged (id : Nat) (s : State) : Result :=
  match s.req id with
  | none => .next s
  | some q =>
    let down (s : State) : State :=
      if q.orphan then s else ((s.modCtx q.who fun c => { c with ocs := c.ocs - 1 }).wake q.who).spill q.who RegSet.empty
    let gone := s.dropReq id
    if q.stage ≠ .done then .next s
    else
      match q.kind with
      | .writeback _ t =>
        (match q.ext with
          | some (port, i) => .next (gone.peerAnswer port (.copyWriteAck i))
          | none => .next (if t < 64 ∧ !gone.slotBusy q.who.site t then gone.slotFreed q.who.site else gone))
      | .store _ job =>
        let s := gone.received q.who
        let more (x : Req) : Bool :=
          x.who == q.who && x.grp == q.grp && (match x.kind with | .store _ _ => true | _ => false)
        if job ≠ 0 ∨ s.reqs.any more then .next s else .next (down s)
      | .atomic _ _ _ d ord _ => if atomParks d ord then .next s else .next (down (gone.received q.who))
      | .reduce _ _ _ _ => .next (down (gone.received q.who))
      | _ => .next s

/-! ### Walks (R36, R39 to R41) -/

/-- The entry of a walk: the older ones of its page go from the TLBs of the die, which takes it up. -/
def State.walkPut (s : State) (site : Nat) (e : TlbEntry) : State :=
  ({ s with cores := Table.mapVals (fun k (c : Core) =>
      if k / 256 = site then { c with tlb := c.tlb.filter fun x => !e.same x } else c) s.cores } : State).dieTlbInsert site e

/-- Places of the miss entries that hold one of the 64 walkers: first in, first out, an ASID at most 48 while a request of
another waits (R40). -/
def walkersOf (l : List Miss) : List Nat :=
  let capped := ((l.mapIdx fun i m => (i, m)).foldl (fun (a : List (Nat × BitVec 16)) (x : Nat × Miss) =>
    if (a.filter fun y => y.2 == x.2.asid).length < 48 then a ++ [(x.1, x.2.asid)] else a) []).map (·.1)
  (capped ++ (List.range l.length).filter fun i => !capped.contains i).take 64

/-- ocs counts one store less. -/
def State.ocsDown (s : State) (r : CtxRef) : State :=
  ((s.modCtx r fun c => { c with ocs := c.ocs - 1 }).wake r).spill r RegSet.empty

/-- A store that its window turns away: discarded, with cause 0x0E at the context's next bundle boundary (R130). -/
def State.dropStore (s : State) (r : CtxRef) (e : ReplayEntry) : State :=
  ((s.modCtx r fun x => { x with pendStore := x.pendStore ++ [(0x0E, e.va)] }).rouse r).ocsDown r

/-- A plain store whose checks passed is performed, under the number it was given. -/
def State.storeGo (s : State) (r : CtxRef) (e : ReplayEntry) (pa : Nat) (leaf : W64) : State :=
  let id := s.nextId
  let (s, req) := s.storeMem r e.asid e.va pa leaf e.bytes
  if req then s.modReq id fun q => { q with id := e.id, grp := e.id } else s.ocsDown r

/-- A store whose checks passed may leave: a device store only after the accesses of its context before it (R103), any store
while the injection queue has room (R86). -/
def State.storeRoom (s : State) (r : CtxRef) (e : ReplayEntry) (pa : Nat) (leaf : W64) : Bool :=
  !(leafMT leaf = 2 && s.deviceBusyTo r e.id) && !s.injFull r (s.homeOf pa leaf)

/-- A store whose translation came: performed, parked, or discarded; false where it has to wait for another walk. One that finds
no target parks: its bundle is over (log entry 79). -/
def State.storeTry (s : State) (r : CtxRef) (e : ReplayEntry) (t : TlbEntry) : State × Bool :=
  let pa := t.pa e.va.toNat
  let park (code : Nat) : State × Bool :=
    if s.rqRoom r then (s.parkStore r e (if s.pageParked r e.va then none else some code), true) else (s, false)
  let a := Access.plain e.data.length true
  match leafCheck e.sys a t.leaf pa e.va with
  | some (.refused c) => park c
  | some _ => (s.dropStore r e, true)
  | none =>
    if needsD a t.leaf then (s, false)
    else if s.pageParked r e.va then park 0x09
    else if !s.hasTarget pa || s.noReg pa then park 0x09
    else if !s.storeRoom r e pa t.leaf then (s, false)
    else (s.storeGo r e pa t.leaf, true)

/-- Stores of a core that wait for the walk of a page, in order: what becomes of them. -/
def State.storesWalked (s : State) (site core vpn : Nat) (t : Option TlbEntry) (code : Nat) : List ReplayEntry → State
  | [] => s
  | e :: l =>
    let r : CtxRef := ⟨site, core, e.ctx⟩
    let keep (s : State) : State :=
      (s.modCore site core fun k => { k with stw := k.stw ++ [e] }).askWalk r e.asid e.va true false
    let s := match t with
      | some t =>
        (match s.storeTry r e t with
          | (s, true) => s
          | (s, false) => keep s)
      | none =>
        if code = 0x0E then s.dropStore r e
        else if s.rqRoom r then s.parkStore r e (if s.pageParked r e.va then none else some code)
        else keep s
    State.storesWalked s site core vpn t code l

/-- A context that waits for a walk goes on; a cause is kept for its bundle. -/
def State.walkEnds (s : State) (r : CtxRef) (asid : BitVec 16) (vpn : Nat) (fault : Option Nat) : State :=
  let c := s.ctx r
  if c.asid ≠ asid ∨ c.wait ≠ .walk vpn then s
  else
    (s.modCtx r fun c =>
      { c with
        wait := .replies []
        walkFault := match fault with | some x => some (vpn, x) | none => c.walkFault }).unpark r

/-- The stores of a core that wait for the walk of a pair go on. -/
def State.storesOn (s : State) (site core : Nat) (asid : BitVec 16) (vpn : Nat) (t : Option TlbEntry) (code : Nat) : State :=
  let mine (e : ReplayEntry) : Bool := e.asid == asid && pageOf e.va == vpn
  let l := (s.core site core).stw.filter mine
  if l.isEmpty then s
  else (s.modCore site core fun k => { k with stw := k.stw.filter fun e => !mine e }).storesWalked site core vpn t code l

/-- A walk of a pair has ended in an entry or a cause: what waited for it goes on. -/
def State.walked (s : State) (site : Nat) (m : Miss) (t : Option TlbEntry) (code : Nat) : State :=
  let s := match t with
    | some e => s.walkPut site e
    | none => s
  let cs := (s.cores.filter fun k => k.1 / 256 == site && !k.2.stw.isEmpty).map fun k => k.1 % 256
  let s := cs.foldl (fun (s : State) c => s.storesOn site c m.asid m.vpn t code) s
  m.waiters.foldl (fun s r => s.walkEnds r m.asid m.vpn (if t.isNone then some code else none)) s

/-- `walk` event: a walker ends the walk of a miss entry, once the host has given back the lines of the tables (R99). -/
def execWalk (site idx : Nat) (s : State) : Result :=
  let d := s.die site
  match d.miss[idx]? with
  | none => .next s
  | some m =>
    if !(walkersOf d.miss).contains idx then .next s
    else
      let out (s : State) : State := s.modDie site fun d => { d with miss := d.miss.eraseIdx idx }
      match s.walkSet site m.asid (m.vpn * 4096) m.setD with
      | (s, .wait) => .next s
      | (s, .entry e) => .next ((out s).walked site m (some e) 0)
      | (s, .cause c) => .next ((out s).walked site m none c)

/-- `missRetry` event (R40): a miss that found every entry busy is presented again. A context that waits for a slot of the
binding cache tries again too once one may be taken (R110). -/
def execMissRetry (r : CtxRef) (s : State) : Result :=
  match (s.die r.site).missWait.find? fun w => w.who = r with
  | none =>
    if (s.ctx r).wait = .slotFill ∧ (s.victimSlot r.site).isSome then
      .next ((s.modCtx r fun c => { c with wait := .replies [] }).unpark r)
    else .next s
  | some w =>
    let s := s.modDie r.site fun d => { d with missWait := d.missWait.erase w }
    let again : State := s.askWalk r w.asid (BitVec.ofNat 64 (w.vpn * 4096)) w.setD w.parked
    match s.tlbFind r.site r.core w.asid (w.vpn * 4096) with
    | none => .next again
    | some e =>
      if w.setD ∧ leafW e.leaf ∧ !leafD e.leaf then .next again
      else
        let s := s.storesOn r.site r.core w.asid w.vpn (some e) 0
        .next (if w.parked then s.walkEnds r w.asid w.vpn none else s)

/-! ### The replay queue (R130) -/

/-- The entry at a place of the queue may be taken up: the first of its page, to be tried again or behind one that is
gone, with no store of the page on its way. -/
def State.replayReady (s : State) (r : CtxRef) (before : List ReplayEntry) (e : ReplayEntry) : Bool :=
  (!e.faulted || e.retry) && !(before.any fun x => x.ctx == e.ctx && pageOf x.va == pageOf e.va) &&
    !(s.reqs.any fun q => q.who == r && !q.orphan && pageOf q.va == pageOf e.va &&
      (match q.kind with | .store _ _ => true | _ => false))

/-- The access of a store's entry: its data may have been formed for a window (R130). -/
def ReplayEntry.access (e : ReplayEntry) : Access := { Access.plain e.data.length true with window := e.win ≠ 0 }

/-- An engine store's entry fails for good. -/
def State.replayFault (s : State) (r : CtxRef) (e : ReplayEntry) (reason : Nat) : State :=
  match e.src with
  | .copy => s.cpFault r e.job e.tag reason e.va
  | _ => s.mxFault r e.job e.tag reason e.va

/-- `replayEntryIssue` event (R130); D is set once nothing else stops the entry (R36). -/
def execReplayEntryIssue (site core idx : Nat) (s : State) : Result :=
  let rq := (s.core site core).rq
  match rq[idx]? with
  | none => .next s
  | some e =>
    let r : CtxRef := ⟨site, core, e.ctx⟩
    if !s.replayReady r (rq.take idx) e then .next s
    else
      let out (s : State) : State := s.modCore site core fun k => { k with rq := k.rq.eraseIdx idx }
      let again (s : State) (code : Nat) : State :=
        let s := s.modCore site core fun k => { k with rq := k.rq.set idx { e with faulted := true, retry := false } }
        (s.modCtx r fun x => { x with pendStore := x.pendStore ++ [(code, e.va)] }).rouse r
      let fail (s : State) (reason : Nat) : State :=
        if e.src = .store then (out s).dropStore r e else (out s).replayFault r e reason
      let sent (s : State) (t : TlbEntry) : State :=
        let pa := t.pa e.va.toNat
        let s :=
          if e.src = .store then (out s).storeGo r e pa t.leaf
          else
            let id := s.nextId
            ((out s).engStore r e.asid e.va pa t.leaf e.job e.bytes).modReq id fun q => { q with id := e.id, grp := e.id }
        s.modReq e.id fun q => { q with replayed := true }
      let stopped (s : State) (t : TlbEntry) : Option State :=
        let pa := t.pa e.va.toNat
        if e.src = .store then
          match leafCheck e.sys e.access t.leaf pa e.va with
          | some (.refused _) => some (again s 0x09)
          | some _ => some (fail s 3)
          | none =>
            if leafFmt t.leaf ≠ e.win then some (fail s 3)
            else if !s.hasTarget pa || s.noReg pa then some (again s 0x09)
            else if s.storeRoom r e pa t.leaf then none
            else some s
        else
          match s.engLeaf e.sys e.va e.win true t with
          | .ok pa leaf => if s.injFull r (s.homeOf pa leaf) then some s else none
          | .reason x => some (fail s x)
          | _ => some (again s 0x09)
      match s.engEntry r e.asid e.va false with
      | (s, .wait) => .next s
      | (s, .cause code) => .next (if code = 0x0E then fail s 3 else again s code)
      | (s, .entry t) =>
        match stopped s t with
        | some s => .next s
        | none =>
          if leafD t.leaf then .next (sent s t)
          else
            match s.engEntry r e.asid e.va true with
            | (s, .wait) => .next s
            | (s, .cause code) => .next (again s code)
            | (s, .entry t) => .next (sent s t)

/-! ### SIGNAL entries (R368) -/

/-- `signalEntry` event: waits until every earlier entry has retired; a target that does not exist takes nothing. -/
def execSignalEntry (site slot : Nat) (s : State) : Result :=
  .next (s.hqEntry site slot 2 fun s pa =>
    if !(s.hqRun site slot).items.isEmpty then s
    else
      let a := (s.dword (pa + 8)).toNat / 8 * 8 % 4503599627370496
      let v := toBytes 8 (s.dword (pa + 16)).toNat
      let line := s.lineOf a
      if !s.hasTarget a then s.consume site slot (.signal true)
      else
        match s.claimLine line none with
        | (s, false) => s
        | (s, true) =>
          (s.targetWrite line (if 8 ≤ paRegion a then site else paSite (s.plain a)) 0 none true (runAt (a % 128) v)).consume site slot
            (.signal true))

end Sys2Proof.Machine
end

