-- ==== Sys2Proof/Machine/Vector.lean ====
section
/-! DEFINITION. Vector instructions of word B (R303 to R317): per active lane, under a mask, VT through gang offset and
lane pattern; every one but `vlen` needs a claim. -/

namespace Sys2Proof.Machine

/-- A two-source lane instruction. -/
def State.v2 (s : State) (v x t : BitVec 4) (l : Lp) (g k : BitVec 2) (f : W32 → W32 → W32) : Result :=
  s.vguard g (s.vw v k fun i => f (lane (s.c.rv x) i) (lane (s.vt t l g) i))

/-- A one-source lane instruction. -/
def State.v1 (s : State) (v x : BitVec 4) (k : BitVec 2) (f : W32 → W32) : Result :=
  s.vguard 0 (s.vw v k fun i => f (lane (s.c.rv x) i))

/-- Signed and unsigned saturation of a lane (R306). -/
def satS32 (v : Int) : W32 := BitVec.ofInt 32 (max (-2147483648) (min v 2147483647))
def satU32 (v : Int) : W32 := BitVec.ofNat 32 (max 0 (min v 4294967295)).toNat

/-- High 32 bits of the signed and unsigned products. -/
def mulHiS (a b : W32) : W32 := BitVec.ofInt 32 (a.toInt * b.toInt / 4294967296)
def mulHiU (a b : W32) : W32 := BitVec.ofNat 32 (a.toNat * b.toNat / 4294967296)

/-- A floating function on codes applied per FP32 lane or per BF16 half. -/
def vfpLane (y : VTy) (f : Fmt → Nat → Nat → Nat → Nat) (a b c : W32) : W32 :=
  match y with
  | .bf =>
    BitVec.ofNat 32 (f Fmt.bf16 (a.toNat % 65536) (b.toNat % 65536) (c.toNat % 65536) +
      65536 * f Fmt.bf16 (a.toNat / 65536) (b.toNat / 65536) (c.toNat / 65536))
  | _ => BitVec.ofNat 32 (f Fmt.fp32 a.toNat b.toNat c.toNat)

/-- A floating instruction on up to three sources: lanes, halves, or FP64 elements over lane pairs (R308). -/
def State.vfp (s : State) (y : VTy) (v : BitVec 4) (x b c : List W32) (g k : BitVec 2)
    (f : Fmt → Nat → Nat → Nat → Nat) : Result :=
  match y with
  | .d => s.vguard g (s.vwd v k fun j => f Fmt.fp64 (delem x j) (delem b j) (delem c j))
  | _ => s.vguard g (s.vw v k fun i => vfpLane y f (lane x i) (lane b i) (lane c i))

/-- Sum of two codes, difference, product, each rounded once. -/
def vAdd (r : Rm) (f : Fmt) (a b : Nat) : Nat := f.round r 0 (Fp.add r (f.decode a) (f.decode b))
def vSub (r : Rm) (f : Fmt) (a b : Nat) : Nat := f.round r 0 (Fp.add r (f.decode a) (f.decode b).neg)
def vMul (r : Rm) (f : Fmt) (a b : Nat) : Nat := f.round r 0 (Fp.mul (f.decode a) (f.decode b))

/-- Every mask bit below VL. -/
def State.mall (s : State) (d : BitVec 2) (f : Nat → Bool) : Result :=
  s.vguard 0 (s.modC fun c => c.wm d ((List.range c.vl).map f))

/-- Bits [lo + n − 1 : lo] of a lane replaced. -/
def laneIns (x : W32) (lo n y : Nat) : W32 :=
  BitVec.ofNat 32 (x.toNat - x.toNat / 2 ^ lo % 2 ^ n * 2 ^ lo + y % 2 ^ n * 2 ^ lo)

/-- Field of a lane. -/
def laneField (x : W32) (lo n : Nat) : Nat := x.toNat / 2 ^ lo % 2 ^ n

/-- A conversion that may round: lane `i` gets its own random word (R51). -/
def State.vcvt (s : State) (v x : BitVec 4) (k : BitVec 2) (r : Rm) (f : BitVec 16 → W32 → W32 → W32) : Result :=
  s.vguard 0 ((s.vw v k fun i =>
    f (Config.randomWord (s.tick + i)) (lane (s.c.rv v) i) (lane (s.c.rv x) i)).drew r s.c.vl)

/-- FP32 into a narrower format within a lane. -/
def narrowInto (f : Fmt) (r : Rm) (lo : Nat) (w : BitVec 16) (old x : W32) : W32 :=
  laneIns old lo (f.mw + 1) (f.round r w (Fmt.fp32.decode x.toNat))

/-- One level of the tree of R316 over possibly absent elements. -/
def treeStep (f : Fmt) : List (Option Nat) → List (Option Nat)
  | a :: b :: t =>
    (match a, b with
      | a, none => a
      | none, b => b
      | some x, some y => some (f.fadd .ne 0 x y)) :: treeStep f t
  | l => l

/-- The tree, at most eight levels deep. -/
def treeSum (f : Fmt) : Nat → List (Option Nat) → Option Nat
  | 0, l => (l.head?).getD none
  | n + 1, l => treeSum f n (treeStep f l)

/-- Active lanes of a register, absent ones as none. -/
def State.activeLanes (s : State) (x : BitVec 4) (k : BitVec 2) : List (Option Nat) :=
  (List.range s.c.vl).map fun i => if s.c.active k i then some (lane (s.c.rv x) i).toNat else none

/-- Active FP64 elements. -/
def State.activeElems (s : State) (x : BitVec 4) (k : BitVec 2) : List (Option Nat) :=
  (List.range (s.c.vl / 2)).map fun j => if s.c.active k (2 * j) then some (delem (s.c.rv x) j) else none

/-- Result of a reduction (R316). -/
def State.reduce (s : State) (o : VRedOp) (x : BitVec 4) (k : BitVec 2) : Nat :=
  let ls := (s.activeLanes x k).filterMap id
  let w (n : Nat) : W32 := BitVec.ofNat 32 n
  let fold (f : W32 → W32 → W32) (e : W32) : Nat := (ls.foldl (fun a b => f a (w b)) e).toNat
  match o with
  | .add => fold (· + ·) 0
  | .smin => fold (fun a b => if a.slt b then a else b) 0x7FFFFFFF#32
  | .smax => fold (fun a b => if a.slt b then b else a) 0x80000000#32
  | .umin => fold (fun a b => if a.ult b then a else b) 0xFFFFFFFF#32
  | .umax => fold (fun a b => if a.ult b then b else a) 0
  | .and => fold (· &&& ·) 0xFFFFFFFF#32
  | .or => fold (· ||| ·) 0
  | .xor => fold (· ^^^ ·) 0
  | .fadd => (treeSum Fmt.fp32 8 (s.activeLanes x k)).getD 0
  | .fmin => ls.foldl (fun a b => Fmt.fp32.fmin a b) 0x7FC00000
  | .fmax => ls.foldl (fun a b => Fmt.fp32.fmax a b) 0x7FC00000
  | .faddD => (treeSum Fmt.fp64 8 (s.activeElems x k)).getD 0

/-- The values of active lanes in ascending order (R317). -/
def State.packed (s : State) (x : BitVec 4) (k : BitVec 2) : List W32 :=
  ((List.range s.c.vl).filter fun i => s.c.active k i).map fun i => lane (s.c.rv x) i

/-- `vadd` (R306): sum. -/
def execVadd (v : BitVec 4) (s : BitVec 4) (t : BitVec 4) (l : Lp) (g : BitVec 2) (k : BitVec 2) (st : State) : Result :=
  st.v2 v s t l g k fun x y => x + y

/-- `vsub` (R306): difference. -/
def execVsub (v : BitVec 4) (s : BitVec 4) (t : BitVec 4) (l : Lp) (g : BitVec 2) (k : BitVec 2) (st : State) : Result :=
  st.v2 v s t l g k fun x y => x - y

/-- `vaddSat` (R306): signed saturating sum. -/
def execVaddSat (v : BitVec 4) (s : BitVec 4) (t : BitVec 4) (l : Lp) (g : BitVec 2) (k : BitVec 2) (st : State) : Result :=
  st.v2 v s t l g k fun x y => satS32 (x.toInt + y.toInt)

/-- `vsubSat` (R306): signed saturating difference. -/
def execVsubSat (v : BitVec 4) (s : BitVec 4) (t : BitVec 4) (l : Lp) (g : BitVec 2) (k : BitVec 2) (st : State) : Result :=
  st.v2 v s t l g k fun x y => satS32 (x.toInt - y.toInt)

/-- `vadduSat` (R306): unsigned saturating sum. -/
def execVadduSat (v : BitVec 4) (s : BitVec 4) (t : BitVec 4) (l : Lp) (g : BitVec 2) (k : BitVec 2) (st : State) : Result :=
  st.v2 v s t l g k fun x y => satU32 ((x.toNat : Int) + y.toNat)

/-- `vsubuSat` (R306): unsigned saturating difference. -/
def execVsubuSat (v : BitVec 4) (s : BitVec 4) (t : BitVec 4) (l : Lp) (g : BitVec 2) (k : BitVec 2) (st : State) : Result :=
  st.v2 v s t l g k fun x y => satU32 ((x.toNat : Int) - y.toNat)

/-- `vneg` (R306): 0 − vs. -/
def execVneg (v : BitVec 4) (s : BitVec 4) (k : BitVec 2) (st : State) : Result :=
  st.v1 v s k fun x => 0 - x

/-- `vand` (R306): AND. -/
def execVand (v : BitVec 4) (s : BitVec 4) (t : BitVec 4) (l : Lp) (g : BitVec 2) (k : BitVec 2) (st : State) : Result :=
  st.v2 v s t l g k fun x y => x &&& y

/-- `vor` (R306): OR. -/
def execVor (v : BitVec 4) (s : BitVec 4) (t : BitVec 4) (l : Lp) (g : BitVec 2) (k : BitVec 2) (st : State) : Result :=
  st.v2 v s t l g k fun x y => x ||| y

/-- `vxor` (R306): XOR. -/
def execVxor (v : BitVec 4) (s : BitVec 4) (t : BitVec 4) (l : Lp) (g : BitVec 2) (k : BitVec 2) (st : State) : Result :=
  st.v2 v s t l g k fun x y => x ^^^ y

/-- `vandn` (R306): AND NOT. -/
def execVandn (v : BitVec 4) (s : BitVec 4) (t : BitVec 4) (l : Lp) (g : BitVec 2) (k : BitVec 2) (st : State) : Result :=
  st.v2 v s t l g k fun x y => x &&& ~~~y

/-- `vnot` (R306): NOT. -/
def execVnot (v : BitVec 4) (s : BitVec 4) (k : BitVec 2) (st : State) : Result :=
  st.v1 v s k fun x => ~~~x

/-- `vshl` (R306): left. -/
def execVshl (v : BitVec 4) (s : BitVec 4) (t : BitVec 4) (l : Lp) (g : BitVec 2) (k : BitVec 2) (st : State) : Result :=
  st.v2 v s t l g k fun x y => x <<< (y.toNat % 32)

/-- `vshr` (R306): logical right. -/
def execVshr (v : BitVec 4) (s : BitVec 4) (t : BitVec 4) (l : Lp) (g : BitVec 2) (k : BitVec 2) (st : State) : Result :=
  st.v2 v s t l g k fun x y => x >>> (y.toNat % 32)

/-- `vsra` (R306): arithmetic right. -/
def execVsra (v : BitVec 4) (s : BitVec 4) (t : BitVec 4) (l : Lp) (g : BitVec 2) (k : BitVec 2) (st : State) : Result :=
  st.v2 v s t l g k fun x y => x.sshiftRight (y.toNat % 32)

/-- `vmul` (R306): low product. -/
def execVmul (v : BitVec 4) (s : BitVec 4) (t : BitVec 4) (l : Lp) (g : BitVec 2) (k : BitVec 2) (st : State) : Result :=
  st.v2 v s t l g k fun x y => x * y

/-- `vmulh` (R306): high signed product. -/
def execVmulh (v : BitVec 4) (s : BitVec 4) (t : BitVec 4) (l : Lp) (g : BitVec 2) (k : BitVec 2) (st : State) : Result :=
  st.v2 v s t l g k fun x y => mulHiS x y

/-- `vmulhu` (R306): high unsigned product. -/
def execVmulhu (v : BitVec 4) (s : BitVec 4) (t : BitVec 4) (l : Lp) (g : BitVec 2) (k : BitVec 2) (st : State) : Result :=
  st.v2 v s t l g k fun x y => mulHiU x y

/-- `vmla` (R306): vd plus the low product. -/
def execVmla (v : BitVec 4) (s : BitVec 4) (t : BitVec 4) (l : Lp) (g : BitVec 2) (k : BitVec 2) (st : State) : Result :=
  st.vguard g (st.vw v k fun i => lane (st.c.rv v) i + lane (st.c.rv s) i * lane (st.vt t l g) i)

/-- `vsmin` (R306): signed minimum. -/
def execVsmin (v : BitVec 4) (s : BitVec 4) (t : BitVec 4) (l : Lp) (g : BitVec 2) (k : BitVec 2) (st : State) : Result :=
  st.v2 v s t l g k fun x y => if x.slt y then x else y

/-- `vsmax` (R306): signed maximum. -/
def execVsmax (v : BitVec 4) (s : BitVec 4) (t : BitVec 4) (l : Lp) (g : BitVec 2) (k : BitVec 2) (st : State) : Result :=
  st.v2 v s t l g k fun x y => if x.slt y then y else x

/-- `vumin` (R306): unsigned minimum. -/
def execVumin (v : BitVec 4) (s : BitVec 4) (t : BitVec 4) (l : Lp) (g : BitVec 2) (k : BitVec 2) (st : State) : Result :=
  st.v2 v s t l g k fun x y => if x.ult y then x else y

/-- `vumax` (R306): unsigned maximum. -/
def execVumax (v : BitVec 4) (s : BitVec 4) (t : BitVec 4) (l : Lp) (g : BitVec 2) (k : BitVec 2) (st : State) : Result :=
  st.v2 v s t l g k fun x y => if x.ult y then y else x

/-- `vabs` (R306): magnitude. -/
def execVabs (v : BitVec 4) (s : BitVec 4) (k : BitVec 2) (st : State) : Result :=
  st.v1 v s k fun x => if x.msb then 0 - x else x

/-- `vcmp` (R307): compare into a mask; every bit is read before any is written. -/
def execVcmp (d : BitVec 2) (s : BitVec 4) (t : BitVec 4) (l : Lp) (g : BitVec 2) (k : BitVec 2) (c : Cond) (st : State) : Result :=
  st.vguard g (st.mw d k fun i => condHolds c (lane (st.c.rv s) i) (lane (st.vt t l g) i))

/-- `vfadd` (R309): sum. -/
def execVfadd (y : VTy) (v : BitVec 4) (s : BitVec 4) (t : BitVec 4) (l : Lp) (g : BitVec 2) (k : BitVec 2) (r : Rm) (st : State) : Result :=
  st.vfp y v (st.c.rv s) (st.vt t l g) [] g k fun f a b _ => vAdd r f a b

/-- `vfsub` (R309): difference. -/
def execVfsub (y : VTy) (v : BitVec 4) (s : BitVec 4) (t : BitVec 4) (l : Lp) (g : BitVec 2) (k : BitVec 2) (r : Rm) (st : State) : Result :=
  st.vfp y v (st.c.rv s) (st.vt t l g) [] g k fun f a b _ => vSub r f a b

/-- `vfmul` (R309): product. -/
def execVfmul (y : VTy) (v : BitVec 4) (s : BitVec 4) (t : BitVec 4) (l : Lp) (g : BitVec 2) (k : BitVec 2) (r : Rm) (st : State) : Result :=
  st.vfp y v (st.c.rv s) (st.vt t l g) [] g k fun f a b _ => vMul r f a b

/-- `vfmin` (R309): minimum by R140. -/
def execVfmin (y : VTy) (v : BitVec 4) (s : BitVec 4) (t : BitVec 4) (l : Lp) (g : BitVec 2) (k : BitVec 2) (st : State) : Result :=
  st.vfp y v (st.c.rv s) (st.vt t l g) [] g k fun f a b _ => f.fmin a b

/-- `vfmax` (R309): maximum by R140. -/
def execVfmax (y : VTy) (v : BitVec 4) (s : BitVec 4) (t : BitVec 4) (l : Lp) (g : BitVec 2) (k : BitVec 2) (st : State) : Result :=
  st.vfp y v (st.c.rv s) (st.vt t l g) [] g k fun f a b _ => f.fmax a b

/-- `vfma` (R310): vs × vt + vc. -/
def execVfma (y : VTy) (v : BitVec 4) (s : BitVec 4) (t : BitVec 4) (c : BitVec 4) (l : Lp) (g : BitVec 2) (k : BitVec 2) (st : State) : Result :=
  st.vfp y v (st.c.rv s) (st.vt t l g) (st.c.rv c) g k fun f a b z => f.fma .ne false false a b z

/-- `vfms` (R310): vs × vt − vc. -/
def execVfms (y : VTy) (v : BitVec 4) (s : BitVec 4) (t : BitVec 4) (c : BitVec 4) (l : Lp) (g : BitVec 2) (k : BitVec 2) (st : State) : Result :=
  st.vfp y v (st.c.rv s) (st.vt t l g) (st.c.rv c) g k fun f a b z => f.fma .ne false true a b z

/-- `vfcmp` (R311): floating compare into a mask; an FP64 compare writes both bits of its pair. -/
def execVfcmp (d : BitVec 2) (s : BitVec 4) (t : BitVec 4) (l : Lp) (g : BitVec 2) (k : BitVec 2) (y : VTy) (c : FCmp) (st : State) : Result :=
  match y with
  | .d =>
    let x := st.c.rv s
    let z := st.vt t l g
    st.vguard g (st.modC fun w => w.wm d ((List.range w.vl).map fun i =>
      if w.active k (i / 2 * 2) then fcmpHolds Fmt.fp64 c (delem x (i / 2)) (delem z (i / 2)) else mbit (w.rm d) i))
  | _ => st.vguard g (st.mw d k fun i => fcmpHolds Fmt.fp32 c (lane (st.c.rv s) i).toNat (lane (st.vt t l g) i).toNat)

/-- `vsel` (R312): vs or vt by mask mN in every lane; MK = 0 names m0. -/
def execVsel (v : BitVec 4) (s : BitVec 4) (t : BitVec 4) (l : Lp) (g : BitVec 2) (k : BitVec 2) (st : State) : Result :=
  st.vguard g (st.vw v 0 fun i => if mbit (st.c.rm k) i then lane (st.c.rv s) i else lane (st.vt t l g) i)

/-- `vmov` (R312): vt in active lanes. -/
def execVmov (v : BitVec 4) (t : BitVec 4) (l : Lp) (g : BitVec 2) (k : BitVec 2) (st : State) : Result :=
  st.vguard g (st.vw v k fun i => lane (st.vt t l g) i)

/-- `mand` (R313): every bit below VL. -/
def execMand (d : BitVec 2) (s : BitVec 2) (t : BitVec 2) (st : State) : Result :=
  st.mall d fun i => mbit (st.c.rm s) i && mbit (st.c.rm t) i

/-- `mor` (R313): every bit below VL. -/
def execMor (d : BitVec 2) (s : BitVec 2) (t : BitVec 2) (st : State) : Result :=
  st.mall d fun i => mbit (st.c.rm s) i || mbit (st.c.rm t) i

/-- `mxor` (R313): every bit below VL. -/
def execMxor (d : BitVec 2) (s : BitVec 2) (t : BitVec 2) (st : State) : Result :=
  st.mall d fun i => mbit (st.c.rm s) i != mbit (st.c.rm t) i

/-- `mandn` (R313): every bit below VL. -/
def execMandn (d : BitVec 2) (s : BitVec 2) (t : BitVec 2) (st : State) : Result :=
  st.mall d fun i => mbit (st.c.rm s) i && !mbit (st.c.rm t) i

/-- `mnot` (R313): every bit below VL. -/
def execMnot (d : BitVec 2) (s : BitVec 2) (st : State) : Result :=
  st.mall d fun i => !mbit (st.c.rm s) i

/-- `mmov` (R313): every bit below VL. -/
def execMmov (d : BitVec 2) (s : BitVec 2) (st : State) : Result :=
  st.mall d fun i => mbit (st.c.rm s) i

/-- `mall` (R313): all bits 1. -/
def execMall (d : BitVec 2) (st : State) : Result :=
  st.mall d fun _ => true

/-- `mnone` (R313): all bits 0. -/
def execMnone (d : BitVec 2) (st : State) : Result :=
  st.mall d fun _ => false

/-- `vbcast` (R314): active lanes := gs[31:0]. -/
def execVbcast (v : BitVec 4) (s : BitVec 4) (k : BitVec 2) (h : BitVec 1) (st : State) : Result :=
  st.vguard 0 (st.vw v k fun _ => lo32 (st.g (gnum h s)))

/-- `vins` (R314): lane gs[39:32] := gs[31:0]; 0x0D at or above VL. -/
def execVins (v : BitVec 4) (s : BitVec 4) (h : BitVec 1) (st : State) : Result :=
  let x := st.g (gnum h s)
  let n := bits x 32 8
  if st.c.claim ≠ 0 ∧ st.c.vl ≤ n then .next (st.trap 0x0D 0)
  else st.vguard 0 (st.modC fun c => c.wv v ((List.range c.vl).map fun i => if i = n then lo32 x else lane (c.rv v) i))

/-- `vext` (R314): lane 0 of the transformed vt. -/
def execVext (d : BitVec 4) (t : BitVec 4) (l : Lp) (g : BitVec 2) (h : BitVec 1) (st : State) : Result :=
  st.vguard g (st.gw (gnum h d) ((lane (st.vt t l g) 0).setWidth 64))

/-- `mrd` (R314): 64 bits of a mask. -/
def execMrd (d : BitVec 4) (n : BitVec 2) (w : BitVec 2) (h : BitVec 1) (st : State) : Result :=
  st.vguard 0 (st.gw (gnum h d) (BitVec.ofNat 64
    ((List.range 64).foldl (fun a i => if 64 * w.toNat + i < st.c.vl ∧ mbit (st.c.rm n) (64 * w.toNat + i) then a + 2 ^ i else a) 0)))

/-- `mwr` (R314): 64 bits of a mask from gs; bits at or above VL are ignored. -/
def execMwr (n : BitVec 2) (s : BitVec 4) (w : BitVec 2) (h : BitVec 1) (st : State) : Result :=
  let x := st.g (gnum h s)
  st.vguard 0 (st.modC fun c => c.wm n ((List.range c.vl).map fun i => if i / 64 = w.toNat then bit x (i % 64) else mbit (c.rm n) i))

/-- `mpopc` (R314): set bits of a mask below VL. -/
def execMpopc (d : BitVec 4) (n : BitVec 2) (h : BitVec 1) (st : State) : Result :=
  st.vguard 0 (st.gw (gnum h d) (BitVec.ofNat 64 ((List.range st.c.vl).filter fun i => mbit (st.c.rm n) i).length))

/-- `vlen` (R314): VL, at any claim. -/
def execVlen (d : BitVec 4) (h : BitVec 1) (st : State) : Result :=
  .next (st.gw (gnum h d) (BitVec.ofNat 64 st.c.vl))

/-- `vcvtSW` (R315): INT32 to FP32. -/
def execVcvtSW (v : BitVec 4) (s : BitVec 4) (r : Rm) (k : BitVec 2) (st : State) : Result :=
  st.vcvt v s k r fun w _ x => BitVec.ofNat 32 (Fmt.fp32.round r w (Fp.ofInt x.toInt))

/-- `vcvtWS` (R315): FP32 to INT32. -/
def execVcvtWS (v : BitVec 4) (s : BitVec 4) (r : Rm) (k : BitVec 2) (st : State) : Result :=
  st.vcvt v s k r fun w _ x => BitVec.ofInt 32 (toInt32 r w (Fmt.fp32.decode x.toNat))

/-- `vcvtBfS` (R315): FP32 to BF16 in a half. -/
def execVcvtBfS (v : BitVec 4) (s : BitVec 4) (r : Rm) (k : BitVec 2) (h : Bool) (st : State) : Result :=
  st.vcvt v s k r fun w o x => narrowInto Fmt.bf16 r (if h then 16 else 0) w o x

/-- `vcvtSBf` (R315): BF16 half to FP32. -/
def execVcvtSBf (v : BitVec 4) (s : BitVec 4) (k : BitVec 2) (h : Bool) (st : State) : Result :=
  st.vcvt v s k .ne fun _ _ x => BitVec.ofNat 32 (widen Fmt.bf16 Fmt.fp32 (laneField x (if h then 16 else 0) 16))

/-- `vcvtHS` (R315): FP32 to FP16 in a half. -/
def execVcvtHS (v : BitVec 4) (s : BitVec 4) (r : Rm) (k : BitVec 2) (h : Bool) (st : State) : Result :=
  st.vcvt v s k r fun w o x => narrowInto Fmt.fp16 r (if h then 16 else 0) w o x

/-- `vcvtSH` (R315): FP16 half to FP32. -/
def execVcvtSH (v : BitVec 4) (s : BitVec 4) (k : BitVec 2) (h : Bool) (st : State) : Result :=
  st.vcvt v s k .ne fun _ _ x => BitVec.ofNat 32 (widen Fmt.fp16 Fmt.fp32 (laneField x (if h then 16 else 0) 16))

/-- `vcvtES` (R315): FP32 to E4M3 or E5M2 in byte p. -/
def execVcvtES (v : BitVec 4) (s : BitVec 4) (r : Rm) (p : BitVec 2) (k : BitVec 2) (e : Bool) (st : State) : Result :=
  st.vcvt v s k r fun w o x => narrowInto (if e then Fmt.e5m2 else Fmt.e4m3) r (8 * p.toNat) w o x

/-- `vcvtSE` (R315): byte p to FP32. -/
def execVcvtSE (v : BitVec 4) (s : BitVec 4) (p : BitVec 2) (k : BitVec 2) (e : Bool) (st : State) : Result :=
  st.vcvt v s k .ne fun _ _ x => BitVec.ofNat 32 (widen (if e then Fmt.e5m2 else Fmt.e4m3) Fmt.fp32 (laneField x (8 * p.toNat) 8))

/-- `vcvtBW` (R315): INT32 to INT8 in byte p. -/
def execVcvtBW (v : BitVec 4) (s : BitVec 4) (p : BitVec 2) (k : BitVec 2) (st : State) : Result :=
  st.vcvt v s k .ne fun _ o x => laneIns o (8 * p.toNat) 8 (BitVec.ofInt 8 (toInt8 .ne 0 (Fp.ofInt x.toInt))).toNat

/-- `vcvtWB` (R315): INT8 byte p to INT32. -/
def execVcvtWB (v : BitVec 4) (s : BitVec 4) (p : BitVec 2) (k : BitVec 2) (st : State) : Result :=
  st.vcvt v s k .ne fun _ _ x => (BitVec.ofNat 8 (laneField x (8 * p.toNat) 8)).signExtend 32

/-- `vcvtDS` (R315): FP32 in lane 2j to FP64 element j. -/
def execVcvtDS (v : BitVec 4) (s : BitVec 4) (k : BitVec 2) (st : State) : Result :=
  st.vguard 0 (st.vwd v k fun j => widen Fmt.fp32 Fmt.fp64 (lane (st.c.rv s) (2 * j)).toNat)

/-- `vcvtSD` (R315): FP64 element j to FP32 in lane 2j; lane 2j + 1 := 0. -/
def execVcvtSD (v : BitVec 4) (s : BitVec 4) (r : Rm) (k : BitVec 2) (st : State) : Result :=
  st.vguard 0 ((st.vwd v k fun j => Fmt.fp32.round r (Config.randomWord (st.tick + j)) (Fmt.fp64.decode (delem (st.c.rv s) j))).drew r st.c.vl)

/-- `vred` (R316): reduction of the active lanes into lane 0, or lanes 0 and 1 for `fadd.d`. -/
def execVred (v : BitVec 4) (s : BitVec 4) (k : BitVec 2) (o : VRedOp) (st : State) : Result :=
  let n := st.reduce o s k
  st.vguard 0 (st.modC fun c => c.wv v ((List.range c.vl).map fun i =>
    if i = 0 then BitVec.ofNat 32 n else if i = 1 ∧ o = .faddD then BitVec.ofNat 32 (n / 4294967296) else lane (c.rv v) i))

/-- `vperm` (R317): lanes of vs by indices in vt, across blocks. -/
def execVperm (v : BitVec 4) (s : BitVec 4) (t : BitVec 4) (l : Lp) (g : BitVec 2) (k : BitVec 2) (st : State) : Result :=
  st.vguard g (st.vw v k fun i => lane (st.c.rv s) ((lane (st.vt t l g) i).toNat % 256 % st.c.vl))

/-- `vpermB` (R317): lanes of vs by indices in vt, within each block. -/
def execVpermB (v : BitVec 4) (s : BitVec 4) (t : BitVec 4) (l : Lp) (g : BitVec 2) (k : BitVec 2) (st : State) : Result :=
  st.vguard g (st.vw v k fun i => lane (st.c.rv s) (32 * (i / 32) + (lane (st.vt t l g) i).toNat % 32))

/-- `vcompress` (R317): active lanes of vs packed into the low lanes of vd. -/
def execVcompress (v : BitVec 4) (s : BitVec 4) (k : BitVec 2) (st : State) : Result :=
  let q := st.packed s k
  st.vguard 0 (st.modC fun c => c.wv v ((List.range c.vl).map fun i => if i < q.length then lane q i else lane (c.rv v) i))

end Sys2Proof.Machine
end

