-- ==== Sys2Proof/Machine/Dispatch.lean ====
section
/-! DEFINITION. The dispatch: one arm per constructor of `Instr`, one direct call of its meaning. -/

namespace Sys2Proof.Machine

/-- The meaning of an instruction or event for the state (each arm's own definition cites its rule). -/
def exec (i : Instr) (s : State) : Host.Outcome State Fault Refusal :=
  match i with
  | .ld d a m o => Sys2Proof.Machine.execLd d a m o s
  | .ldIndexed d a b m => Sys2Proof.Machine.execLdIndexed d a b m s
  | .ldxB d a o => Sys2Proof.Machine.execLdxB d a o s
  | .ldxH d a o => Sys2Proof.Machine.execLdxH d a o s
  | .ldk d k => Sys2Proof.Machine.execLdk d k s
  | .pfL1 a o => Sys2Proof.Machine.execPfL1 a o s
  | .pfL2 a o => Sys2Proof.Machine.execPfL2 a o s
  | .st s1 a m o => Sys2Proof.Machine.execSt s1 a m o s
  | .stIndexed s1 a b m => Sys2Proof.Machine.execStIndexed s1 a b m s
  | .stxB s1 a o => Sys2Proof.Machine.execStxB s1 a o s
  | .stxH s1 a o => Sys2Proof.Machine.execStxH s1 a o s
  | .amo d a s1 r z o => Sys2Proof.Machine.execAmo d a s1 r z o s
  | .amoCas d a c r z => Sys2Proof.Machine.execAmoCas d a c r z s
  | .red a s1 z o => Sys2Proof.Machine.execRed a s1 z o s
  | .push d a s1 w e => Sys2Proof.Machine.execPush d a s1 w e s
  | .pop d a p w e => Sys2Proof.Machine.execPop d a p w e s
  | .fence e => Sys2Proof.Machine.execFence e s
  | .xfi d => Sys2Proof.Machine.execXfi d s
  | .xfw a => Sys2Proof.Machine.execXfw a s
  | .bind d a b => Sys2Proof.Machine.execBind d a b s
  | .acq d a e => Sys2Proof.Machine.execAcq d a e s
  | .rel a b e => Sys2Proof.Machine.execRel a b e s
  | .waitc l s1 c t => Sys2Proof.Machine.execWaitc l s1 c t s
  | .waita d a b t n => Sys2Proof.Machine.execWaita d a b t n s
  | .arrive g => Sys2Proof.Machine.execArrive g s
  | .arriveSs g => Sys2Proof.Machine.execArriveSs g s
  | .waitb g => Sys2Proof.Machine.execWaitb g s
  | .br p n d => Sys2Proof.Machine.execBr p n d s
  | .call p n d => Sys2Proof.Machine.execCall p n d s
  | .jr a => Sys2Proof.Machine.execJr a s
  | .callr a => Sys2Proof.Machine.execCallr a s
  | .movJa0FromG a => Sys2Proof.Machine.execMovJa0FromG a s
  | .movJa1FromG a => Sys2Proof.Machine.execMovJa1FromG a s
  | .movLrFromG a => Sys2Proof.Machine.execMovLrFromG a s
  | .movGFromJa0 d => Sys2Proof.Machine.execMovGFromJa0 d s
  | .movGFromJa1 d => Sys2Proof.Machine.execMovGFromJa1 d s
  | .movGFromLr d => Sys2Proof.Machine.execMovGFromLr d s
  | .rdpc d => Sys2Proof.Machine.execRdpc d s
  | .movGFromLs d n => Sys2Proof.Machine.execMovGFromLs d n s
  | .movGFromLe d n => Sys2Proof.Machine.execMovGFromLe d n s
  | .movGFromLc d n => Sys2Proof.Machine.execMovGFromLc d n s
  | .movLsFromG a n => Sys2Proof.Machine.execMovLsFromG a n s
  | .movLeFromG a n => Sys2Proof.Machine.execMovLeFromG a n s
  | .movLcFromG a n => Sys2Proof.Machine.execMovLcFromG a n s
  | .loop l a imm => Sys2Proof.Machine.execLoop l a imm s
  | .haltRet a => Sys2Proof.Machine.execHaltRet a s
  | .gang d => Sys2Proof.Machine.execGang d s
  | .adda d a imm => Sys2Proof.Machine.execAdda d a imm s
  | .movi d imm => Sys2Proof.Machine.execMovi d imm s
  | .movk d c v => Sys2Proof.Machine.execMovk d c v s
  | .cstep d a b => Sys2Proof.Machine.execCstep d a b s
  | .cwrap d a b => Sys2Proof.Machine.execCwrap d a b s
  | .cdiff d a b => Sys2Proof.Machine.execCdiff d a b s
  | .crect d a => Sys2Proof.Machine.execCrect d a s
  | .cidx d a => Sys2Proof.Machine.execCidx d a s
  | .cclus d a => Sys2Proof.Machine.execCclus d a s
  | .hgrant d a b => Sys2Proof.Machine.execHgrant d a b s
  | .hpassX d a b => Sys2Proof.Machine.execHpassX d a b s
  | .hpassS d a b => Sys2Proof.Machine.execHpassS d a b s
  | .htake d a => Sys2Proof.Machine.execHtake d a s
  | .hrecall a => Sys2Proof.Machine.execHrecall a s
  | .hrel a => Sys2Proof.Machine.execHrel a s
  | .vclaim d w => Sys2Proof.Machine.execVclaim d w s
  | .vrenew d w => Sys2Proof.Machine.execVrenew d w s
  | .vld v a k o => Sys2Proof.Machine.execVld v a k o s
  | .vldS v a k o => Sys2Proof.Machine.execVldS v a k o s
  | .vldBc v a k o => Sys2Proof.Machine.execVldBc v a k o s
  | .vldG v a k imm => Sys2Proof.Machine.execVldG v a k imm s
  | .vst v a k o => Sys2Proof.Machine.execVst v a k o s
  | .vstS v a k o => Sys2Proof.Machine.execVstS v a k o s
  | .vstG v a k imm => Sys2Proof.Machine.execVstG v a k imm s
  | .sfucmd d a b e l q u => Sys2Proof.Machine.execSfucmd d a b e l q u s
  | .srd d n => Sys2Proof.Machine.execSrd d n s
  | .swr a n => Sys2Proof.Machine.execSwr a n s
  | .srset d a n => Sys2Proof.Machine.execSrset d a n s
  | .srclr d a n => Sys2Proof.Machine.execSrclr d a n s
  | .lease d a => Sys2Proof.Machine.execLease d a s
  | .leaseq d => Sys2Proof.Machine.execLeaseq d s
  | .leaseend d => Sys2Proof.Machine.execLeaseend d s
  | .dictld a b => Sys2Proof.Machine.execDictld a b s
  | .dictsel b => Sys2Proof.Machine.execDictsel b s
  | .dictrd d a b => Sys2Proof.Machine.execDictrd d a b s
  | .trap n => Sys2Proof.Machine.execTrap n s
  | .tlbinvVa a b => Sys2Proof.Machine.execTlbinvVa a b s
  | .tlbinvAsid a => Sys2Proof.Machine.execTlbinvAsid a s
  | .larm d a => Sys2Proof.Machine.execLarm d a s
  | .add d a b => Sys2Proof.Machine.execAdd d a b s
  | .sub d a b => Sys2Proof.Machine.execSub d a b s
  | .neg d a => Sys2Proof.Machine.execNeg d a s
  | .abs d a => Sys2Proof.Machine.execAbs d a s
  | .addW d a b => Sys2Proof.Machine.execAddW d a b s
  | .subW d a b => Sys2Proof.Machine.execSubW d a b s
  | .addSat d a b => Sys2Proof.Machine.execAddSat d a b s
  | .subSat d a b => Sys2Proof.Machine.execSubSat d a b s
  | .and d a b => Sys2Proof.Machine.execAnd d a b s
  | .or d a b => Sys2Proof.Machine.execOr d a b s
  | .xor d a b => Sys2Proof.Machine.execXor d a b s
  | .andn d a b => Sys2Proof.Machine.execAndn d a b s
  | .orn d a b => Sys2Proof.Machine.execOrn d a b s
  | .xnor d a b => Sys2Proof.Machine.execXnor d a b s
  | .not d a => Sys2Proof.Machine.execNot d a s
  | .shl d a b => Sys2Proof.Machine.execShl d a b s
  | .shr d a b => Sys2Proof.Machine.execShr d a b s
  | .sra d a b => Sys2Proof.Machine.execSra d a b s
  | .rol d a b => Sys2Proof.Machine.execRol d a b s
  | .ror d a b => Sys2Proof.Machine.execRor d a b s
  | .shlW d a b => Sys2Proof.Machine.execShlW d a b s
  | .shrW d a b => Sys2Proof.Machine.execShrW d a b s
  | .sraW d a b => Sys2Proof.Machine.execSraW d a b s
  | .mul d a b => Sys2Proof.Machine.execMul d a b s
  | .mulh d a b => Sys2Proof.Machine.execMulh d a b s
  | .mulhu d a b => Sys2Proof.Machine.execMulhu d a b s
  | .mulW d a b => Sys2Proof.Machine.execMulW d a b s
  | .div d a b => Sys2Proof.Machine.execDiv d a b s
  | .divu d a b => Sys2Proof.Machine.execDivu d a b s
  | .rem d a b => Sys2Proof.Machine.execRem d a b s
  | .remu d a b => Sys2Proof.Machine.execRemu d a b s
  | .divW d a b => Sys2Proof.Machine.execDivW d a b s
  | .divuW d a b => Sys2Proof.Machine.execDivuW d a b s
  | .remW d a b => Sys2Proof.Machine.execRemW d a b s
  | .remuW d a b => Sys2Proof.Machine.execRemuW d a b s
  | .cmp d a b c => Sys2Proof.Machine.execCmp d a b c s
  | .pand d a b => Sys2Proof.Machine.execPand d a b s
  | .por d a b => Sys2Proof.Machine.execPor d a b s
  | .pxor d a b => Sys2Proof.Machine.execPxor d a b s
  | .pandn d a b => Sys2Proof.Machine.execPandn d a b s
  | .pnot d a => Sys2Proof.Machine.execPnot d a s
  | .pread d => Sys2Proof.Machine.execPread d s
  | .pwrite a => Sys2Proof.Machine.execPwrite a s
  | .ptest d a => Sys2Proof.Machine.execPtest d a s
  | .sel d a b n => Sys2Proof.Machine.execSel d a b n s
  | .smin d a b => Sys2Proof.Machine.execSmin d a b s
  | .smax d a b => Sys2Proof.Machine.execSmax d a b s
  | .umin d a b => Sys2Proof.Machine.execUmin d a b s
  | .umax d a b => Sys2Proof.Machine.execUmax d a b s
  | .popc d a => Sys2Proof.Machine.execPopc d a s
  | .clz d a => Sys2Proof.Machine.execClz d a s
  | .ctz d a => Sys2Proof.Machine.execCtz d a s
  | .ext d a b => Sys2Proof.Machine.execExt d a b s
  | .exts d a b => Sys2Proof.Machine.execExts d a b s
  | .ins d a b => Sys2Proof.Machine.execIns d a b s
  | .addi d a imm => Sys2Proof.Machine.execAddi d a imm s
  | .andi d a imm => Sys2Proof.Machine.execAndi d a imm s
  | .ori d a imm => Sys2Proof.Machine.execOri d a imm s
  | .xori d a imm => Sys2Proof.Machine.execXori d a imm s
  | .shli d a n => Sys2Proof.Machine.execShli d a n s
  | .shri d a n => Sys2Proof.Machine.execShri d a n s
  | .srai d a n => Sys2Proof.Machine.execSrai d a n s
  | .rori d a n => Sys2Proof.Machine.execRori d a n s
  | .cmpi d a c imm => Sys2Proof.Machine.execCmpi d a c imm s
  | .fadd t d a b r => Sys2Proof.Machine.execFadd t d a b r s
  | .fsub t d a b r => Sys2Proof.Machine.execFsub t d a b r s
  | .fmul t d a b r => Sys2Proof.Machine.execFmul t d a b r s
  | .fdiv t d a b r => Sys2Proof.Machine.execFdiv t d a b r s
  | .fsqrt t d a r => Sys2Proof.Machine.execFsqrt t d a r s
  | .fmin t d a b => Sys2Proof.Machine.execFmin t d a b s
  | .fmax t d a b => Sys2Proof.Machine.execFmax t d a b s
  | .fabs t d a => Sys2Proof.Machine.execFabs t d a s
  | .fneg t d a => Sys2Proof.Machine.execFneg t d a s
  | .fma t d a b c r => Sys2Proof.Machine.execFma t d a b c r s
  | .fms t d a b c r => Sys2Proof.Machine.execFms t d a b c r s
  | .fnma t d a b c r => Sys2Proof.Machine.execFnma t d a b c r s
  | .fnms t d a b c r => Sys2Proof.Machine.execFnms t d a b c r s
  | .feq d a b t => Sys2Proof.Machine.execFeq d a b t s
  | .flt d a b t => Sys2Proof.Machine.execFlt d a b t s
  | .fle d a b t => Sys2Proof.Machine.execFle d a b t s
  | .fun d a b t => Sys2Proof.Machine.execFun d a b t s
  | .fclass d a t => Sys2Proof.Machine.execFclass d a t s
  | .cvtSD d a r => Sys2Proof.Machine.execCvtSD d a r s
  | .cvtDS d a => Sys2Proof.Machine.execCvtDS d a s
  | .cvtSL d a r t => Sys2Proof.Machine.execCvtSL d a r t s
  | .cvtLS d a r t => Sys2Proof.Machine.execCvtLS d a r t s
  | .cvtSLu d a r t => Sys2Proof.Machine.execCvtSLu d a r t s
  | .cvtLuS d a r t => Sys2Proof.Machine.execCvtLuS d a r t s
  | .cvtBfS d a r h => Sys2Proof.Machine.execCvtBfS d a r h s
  | .cvtE4S d a r e => Sys2Proof.Machine.execCvtE4S d a r e s
  | .cvtSBf d a h => Sys2Proof.Machine.execCvtSBf d a h s
  | .cvtSE4 d a e => Sys2Proof.Machine.execCvtSE4 d a e s
  | .vadd v s1 t l g k => Sys2Proof.Machine.execVadd v s1 t l g k s
  | .vsub v s1 t l g k => Sys2Proof.Machine.execVsub v s1 t l g k s
  | .vaddSat v s1 t l g k => Sys2Proof.Machine.execVaddSat v s1 t l g k s
  | .vsubSat v s1 t l g k => Sys2Proof.Machine.execVsubSat v s1 t l g k s
  | .vadduSat v s1 t l g k => Sys2Proof.Machine.execVadduSat v s1 t l g k s
  | .vsubuSat v s1 t l g k => Sys2Proof.Machine.execVsubuSat v s1 t l g k s
  | .vneg v s1 k => Sys2Proof.Machine.execVneg v s1 k s
  | .vand v s1 t l g k => Sys2Proof.Machine.execVand v s1 t l g k s
  | .vor v s1 t l g k => Sys2Proof.Machine.execVor v s1 t l g k s
  | .vxor v s1 t l g k => Sys2Proof.Machine.execVxor v s1 t l g k s
  | .vandn v s1 t l g k => Sys2Proof.Machine.execVandn v s1 t l g k s
  | .vnot v s1 k => Sys2Proof.Machine.execVnot v s1 k s
  | .vshl v s1 t l g k => Sys2Proof.Machine.execVshl v s1 t l g k s
  | .vshr v s1 t l g k => Sys2Proof.Machine.execVshr v s1 t l g k s
  | .vsra v s1 t l g k => Sys2Proof.Machine.execVsra v s1 t l g k s
  | .vmul v s1 t l g k => Sys2Proof.Machine.execVmul v s1 t l g k s
  | .vmulh v s1 t l g k => Sys2Proof.Machine.execVmulh v s1 t l g k s
  | .vmulhu v s1 t l g k => Sys2Proof.Machine.execVmulhu v s1 t l g k s
  | .vmla v s1 t l g k => Sys2Proof.Machine.execVmla v s1 t l g k s
  | .vsmin v s1 t l g k => Sys2Proof.Machine.execVsmin v s1 t l g k s
  | .vsmax v s1 t l g k => Sys2Proof.Machine.execVsmax v s1 t l g k s
  | .vumin v s1 t l g k => Sys2Proof.Machine.execVumin v s1 t l g k s
  | .vumax v s1 t l g k => Sys2Proof.Machine.execVumax v s1 t l g k s
  | .vabs v s1 k => Sys2Proof.Machine.execVabs v s1 k s
  | .vcmp d s1 t l g k c => Sys2Proof.Machine.execVcmp d s1 t l g k c s
  | .vfadd y v s1 t l g k r => Sys2Proof.Machine.execVfadd y v s1 t l g k r s
  | .vfsub y v s1 t l g k r => Sys2Proof.Machine.execVfsub y v s1 t l g k r s
  | .vfmul y v s1 t l g k r => Sys2Proof.Machine.execVfmul y v s1 t l g k r s
  | .vfmin y v s1 t l g k => Sys2Proof.Machine.execVfmin y v s1 t l g k s
  | .vfmax y v s1 t l g k => Sys2Proof.Machine.execVfmax y v s1 t l g k s
  | .vfma y v s1 t c l g k => Sys2Proof.Machine.execVfma y v s1 t c l g k s
  | .vfms y v s1 t c l g k => Sys2Proof.Machine.execVfms y v s1 t c l g k s
  | .vfcmp d s1 t l g k y c => Sys2Proof.Machine.execVfcmp d s1 t l g k y c s
  | .vsel v s1 t l g k => Sys2Proof.Machine.execVsel v s1 t l g k s
  | .vmov v t l g k => Sys2Proof.Machine.execVmov v t l g k s
  | .mand d s1 t => Sys2Proof.Machine.execMand d s1 t s
  | .mor d s1 t => Sys2Proof.Machine.execMor d s1 t s
  | .mxor d s1 t => Sys2Proof.Machine.execMxor d s1 t s
  | .mandn d s1 t => Sys2Proof.Machine.execMandn d s1 t s
  | .mnot d s1 => Sys2Proof.Machine.execMnot d s1 s
  | .mall d => Sys2Proof.Machine.execMall d s
  | .mnone d => Sys2Proof.Machine.execMnone d s
  | .mmov d s1 => Sys2Proof.Machine.execMmov d s1 s
  | .vbcast v s1 k h => Sys2Proof.Machine.execVbcast v s1 k h s
  | .vins v s1 h => Sys2Proof.Machine.execVins v s1 h s
  | .vext d t l g h => Sys2Proof.Machine.execVext d t l g h s
  | .mrd d n w h => Sys2Proof.Machine.execMrd d n w h s
  | .mwr n s1 w h => Sys2Proof.Machine.execMwr n s1 w h s
  | .mpopc d n h => Sys2Proof.Machine.execMpopc d n h s
  | .vlen d h => Sys2Proof.Machine.execVlen d h s
  | .vcvtSW v s1 r k => Sys2Proof.Machine.execVcvtSW v s1 r k s
  | .vcvtWS v s1 r k => Sys2Proof.Machine.execVcvtWS v s1 r k s
  | .vcvtBfS v s1 r k h => Sys2Proof.Machine.execVcvtBfS v s1 r k h s
  | .vcvtSBf v s1 k h => Sys2Proof.Machine.execVcvtSBf v s1 k h s
  | .vcvtHS v s1 r k h => Sys2Proof.Machine.execVcvtHS v s1 r k h s
  | .vcvtSH v s1 k h => Sys2Proof.Machine.execVcvtSH v s1 k h s
  | .vcvtES v s1 r p k e => Sys2Proof.Machine.execVcvtES v s1 r p k e s
  | .vcvtSE v s1 p k e => Sys2Proof.Machine.execVcvtSE v s1 p k e s
  | .vcvtBW v s1 p k => Sys2Proof.Machine.execVcvtBW v s1 p k s
  | .vcvtWB v s1 p k => Sys2Proof.Machine.execVcvtWB v s1 p k s
  | .vcvtDS v s1 k => Sys2Proof.Machine.execVcvtDS v s1 k s
  | .vcvtSD v s1 r k => Sys2Proof.Machine.execVcvtSD v s1 r k s
  | .vred v s1 k o => Sys2Proof.Machine.execVred v s1 k o s
  | .vperm v s1 t l g k => Sys2Proof.Machine.execVperm v s1 t l g k s
  | .vpermB v s1 t l g k => Sys2Proof.Machine.execVpermB v s1 t l g k s
  | .vcompress v s1 k => Sys2Proof.Machine.execVcompress v s1 k s
  | .sfufence => Sys2Proof.Machine.execSfufence s
  | .nop => Sys2Proof.Machine.execNop s
  | .yield => Sys2Proof.Machine.execYield s
  | .ret => Sys2Proof.Machine.execRet s
  | .halt => Sys2Proof.Machine.execHalt s
  | .split => Sys2Proof.Machine.execSplit s
  | .vrel => Sys2Proof.Machine.execVrel s
  | .dictfence => Sys2Proof.Machine.execDictfence s
  | .rft => Sys2Proof.Machine.execRft s
  | .tlbinvAll => Sys2Proof.Machine.execTlbinvAll s
  | .icsync => Sys2Proof.Machine.execIcsync s
  | .arithmeticNoOp => Sys2Proof.Machine.execArithmeticNoOp s
  | .mma site core steps => Sys2Proof.Machine.execMma site core steps s
  | .mdist site core steps => Sys2Proof.Machine.execMdist site core steps s
  | .topk site core steps => Sys2Proof.Machine.execTopk site core steps s
  | .acz site core => Sys2Proof.Machine.execAcz site core s
  | .acl site core => Sys2Proof.Machine.execAcl site core s
  | .epi site core steps => Sys2Proof.Machine.execEpi site core steps s
  | .outputBufferDrain site core => Sys2Proof.Machine.execOutputBufferDrain site core s
  | .engineCountDown r => Sys2Proof.Machine.execEngineCountDown r s
  | .cpctlGo r v => Sys2Proof.Machine.execCpctlGo r v s
  | .shadowSwapIn site core steps => Sys2Proof.Machine.execShadowSwapIn site core steps s
  | .faultRecordClear r copy => Sys2Proof.Machine.execFaultRecordClear r copy s
  | .sfuRequestStart site octet => Sys2Proof.Machine.execSfuRequestStart site octet s
  | .sfuResult site octet => Sys2Proof.Machine.execSfuResult site octet s
  | .missRetry r => Sys2Proof.Machine.execMissRetry r s
  | .walk site idx => Sys2Proof.Machine.execWalk site idx s
  | .sliceRequest id => Sys2Proof.Machine.execSliceRequest id s
  | .retryTimerExpiry id => Sys2Proof.Machine.execRetryTimerExpiry id s
  | .missFill id => Sys2Proof.Machine.execMissFill id s
  | .recall site core line => Sys2Proof.Machine.execRecall site core line s
  | .ownedLineTimeout site core line => Sys2Proof.Machine.execOwnedLineTimeout site core line s
  | .farAtomic id => Sys2Proof.Machine.execFarAtomic id s
  | .reductionPacketArrival id => Sys2Proof.Machine.execReductionPacketArrival id s
  | .reductionApply id => Sys2Proof.Machine.execReductionApply id s
  | .buckleArrival id => Sys2Proof.Machine.execBuckleArrival id s
  | .windowExpiry id => Sys2Proof.Machine.execWindowExpiry id s
  | .exchangeApply id => Sys2Proof.Machine.execExchangeApply id s
  | .watchNotify r => Sys2Proof.Machine.execWatchNotify r s
  | .watchPoll r => Sys2Proof.Machine.execWatchPoll r s
  | .waitaTimeout r => Sys2Proof.Machine.execWaitaTimeout r s
  | .replyArrival id => Sys2Proof.Machine.execReplyArrival id s
  | .floorIssue r => Sys2Proof.Machine.execFloorIssue r s
  | .trapEntry r => Sys2Proof.Machine.execTrapEntry r s
  | .endContext r => Sys2Proof.Machine.execEndContext r s
  | .preemptionAccept r => Sys2Proof.Machine.execPreemptionAccept r s
  | .resumption r => Sys2Proof.Machine.execResumption r s
  | .haltSequence r => Sys2Proof.Machine.execHaltSequence r s
  | .gangTimeout r => Sys2Proof.Machine.execGangTimeout r s
  | .phaseComplete site group => Sys2Proof.Machine.execPhaseComplete site group s
  | .girthTimeout r => Sys2Proof.Machine.execGirthTimeout r s
  | .barrierPacket site group src => Sys2Proof.Machine.execBarrierPacket site group src s
  | .npcountLimit r => Sys2Proof.Machine.execNpcountLimit r s
  | .dictionaryLoadComplete r => Sys2Proof.Machine.execDictionaryLoadComplete r s
  | .replayEntryIssue site core idx => Sys2Proof.Machine.execReplayEntryIssue site core idx s
  | .bankPowerGate site core bank => Sys2Proof.Machine.execBankPowerGate site core bank s
  | .retainTimeout site core slot => Sys2Proof.Machine.execRetainTimeout site core slot s
  | .uncorrectableError e => Sys2Proof.Machine.execUncorrectableError e s
  | .patrolScrub site find => Sys2Proof.Machine.execPatrolScrub site find s
  | .arm rec => Sys2Proof.Machine.execArm rec s
  | .complete rec => Sys2Proof.Machine.execComplete rec s
  | .blockDeal rec => Sys2Proof.Machine.execBlockDeal rec s
  | .dispatch site => Sys2Proof.Machine.execDispatch site s
  | .hqtailWrite site slot v => Sys2Proof.Machine.execHqtailWrite site slot v s
  | .nopEntry site slot => Sys2Proof.Machine.execNopEntry site slot s
  | .launchEntry site slot => Sys2Proof.Machine.execLaunchEntry site slot s
  | .signalEntry site slot => Sys2Proof.Machine.execSignalEntry site slot s
  | .hqctlWrite site slot v => Sys2Proof.Machine.execHqctlWrite site slot v s
  | .hqdescWrite site slot v => Sys2Proof.Machine.execHqdescWrite site slot v s
  | .rowWithhold site row temp power => Sys2Proof.Machine.execRowWithhold site row temp power s
  | .tqconsWrite site v => Sys2Proof.Machine.execTqconsWrite site v s
  | .preEmpt site core ctxm => Sys2Proof.Machine.execPreEmpt site core ctxm s
  | .preEmptAndHold site core ctxm => Sys2Proof.Machine.execPreEmptAndHold site core ctxm s
  | .resumeHeldContexts site core ctxm => Sys2Proof.Machine.execResumeHeldContexts site core ctxm s
  | .haltTreeStop site => Sys2Proof.Machine.execHaltTreeStop site s
  | .haltTreeRelease site => Sys2Proof.Machine.execHaltTreeRelease site s
  | .selfTestStart site => Sys2Proof.Machine.execSelfTestStart site s
  | .selfTestWithdraw site => Sys2Proof.Machine.execSelfTestWithdraw site s
  | .selfTestResult site pass => Sys2Proof.Machine.execSelfTestResult site pass s
  | .openInterval site group => Sys2Proof.Machine.execOpenInterval site group s
  | .closeInterval site group => Sys2Proof.Machine.execCloseInterval site group s
  | .rollBack site group => Sys2Proof.Machine.execRollBack site group s
  | .copyDramToKeep site => Sys2Proof.Machine.execCopyDramToKeep site s
  | .copyKeepToDram site => Sys2Proof.Machine.execCopyKeepToDram site s
  | .stallSample site core idle cycles energy => Sys2Proof.Machine.execStallSample site core idle cycles energy s
  | .meltEstimate site frac => Sys2Proof.Machine.execMeltEstimate site frac s
  | .leaseTimerExpiry site cluster => Sys2Proof.Machine.execLeaseTimerExpiry site cluster s
  | .rampupComplete site cluster => Sys2Proof.Machine.execRampupComplete site cluster s
  | .rampdownComplete site cluster => Sys2Proof.Machine.execRampdownComplete site cluster s
  | .voltageStep site row => Sys2Proof.Machine.execVoltageStep site row s
  | .throttleStart site sense => Sys2Proof.Machine.execThrottleStart site sense s
  | .throttleEnd site => Sys2Proof.Machine.execThrottleEnd site s
  | .leasecfgKill site v => Sys2Proof.Machine.execLeasecfgKill site v s
  | .energyFlush site => Sys2Proof.Machine.execEnergyFlush site s
  | .dieGate site => Sys2Proof.Machine.execDieGate site s
  | .dieWake site => Sys2Proof.Machine.execDieWake site s
  | .debugDictionaryWrite r bank idx v => Sys2Proof.Machine.execDebugDictionaryWrite r bank idx v s
  | .huberrErrntClear hub => Sys2Proof.Machine.execHuberrErrntClear hub s
  | .poisonaddrValidClear hub => Sys2Proof.Machine.execPoisonaddrValidClear hub s
  | .hostMemAccess port addr op => Sys2Proof.Machine.execHostMemAccess port addr op s
  | .bisnpResponse line data => Sys2Proof.Machine.execBisnpResponse line data s
  | .hostBar0Access port off wr => Sys2Proof.Machine.execHostBar0Access port off wr s
  | .hostBar2Access port off size wr => Sys2Proof.Machine.execHostBar2Access port off size wr s
  | .powerOn => Sys2Proof.Machine.execPowerOn s
  | .bootcmdStart hub => Sys2Proof.Machine.execBootcmdStart hub s
  | .clockLock hub => Sys2Proof.Machine.execClockLock hub s
  | .linkTrain hub => Sys2Proof.Machine.execLinkTrain hub s
  | .hubTestResult hub logic res => Sys2Proof.Machine.execHubTestResult hub logic res s
  | .clockedTimeout hub => Sys2Proof.Machine.execClockedTimeout hub s
  | .hubTestTimeout hub => Sys2Proof.Machine.execHubTestTimeout hub s
  | .commit hub => Sys2Proof.Machine.execCommit hub s
  | .serve hub => Sys2Proof.Machine.execServe hub s
  | .configSetWrite hub off v => Sys2Proof.Machine.execConfigSetWrite hub off v s
  | .startFailure => Sys2Proof.Machine.execStartFailure s
  | .standbyPowerRemoval => Sys2Proof.Machine.execStandbyPowerRemoval s
  | .quote hub => Sys2Proof.Machine.execQuote hub s
  | .mctpControl hub msg => Sys2Proof.Machine.execMctpControl hub msg s
  | .pldmSensorRead hub sensor => Sys2Proof.Machine.execPldmSensorRead hub sensor s
  | .coolantAlarmEffecter hub on => Sys2Proof.Machine.execCoolantAlarmEffecter hub on s
  | .vendorMessage hub msg => Sys2Proof.Machine.execVendorMessage hub msg s
  | .moduleLinkFlit port crcOk flit => Sys2Proof.Machine.execModuleLinkFlit port crcOk flit s
  | .moduleLinkDown port => Sys2Proof.Machine.execModuleLinkDown port s
  | .moduleLinkRetrain port peer => Sys2Proof.Machine.execModuleLinkRetrain port peer s
  | .peerReplyTimeout id => Sys2Proof.Machine.execPeerReplyTimeout id s
  | .multicastBranch b => Sys2Proof.Machine.execMulticastBranch b s
  | .registerWrite hub off v => Sys2Proof.Machine.execRegisterWrite hub off v s
  | .writeAcknowledged id => Sys2Proof.Machine.execWriteAcknowledged id s
  | .mainPowerLoss => Sys2Proof.Machine.execMainPowerLoss s
  | .standbyPowerApplied => Sys2Proof.Machine.execStandbyPowerApplied s
  | .hostPortTrain port up => Sys2Proof.Machine.execHostPortTrain port up s
  | .testPortAccess hub off wr => Sys2Proof.Machine.execTestPortAccess hub off wr s
  | .queueSwitchComplete site slot => Sys2Proof.Machine.execQueueSwitchComplete site slot s
  | .quoteDone hub => Sys2Proof.Machine.execQuoteDone hub s
  | .checkpointOpDone site => Sys2Proof.Machine.execCheckpointOpDone site s

end Sys2Proof.Machine
end

