-- ==== Sys2Proof/Machine/Regs.lean ====
section
/-! DEFINITION. The registers that each word names as destinations and as sources: what R203 compares and what R240
interlocks. -/

namespace Sys2Proof.Machine

/-- Destination registers; a word not listed has none. -/
def dests : Instr → RegSet
  | .ld d _ _ _ => rG [d]
  | .ldIndexed d _ _ _ => rG [d]
  | .ldxB d _ _ => rG [d]
  | .ldxH d _ _ => rG [d]
  | .ldk d _ => rG [d]
  | .amo d _ _ _ _ _ => rG [d]
  | .amoCas d _ _ _ _ => rG [d]
  | .push d _ _ _ _ => rG [d]
  | .pop d _ p _ _ => (rG [d]).union (rP [(p.setWidth 3)])
  | .xfi d => rG [d]
  | .bind d _ _ => rG [d]
  | .acq d _ _ => rG [d]
  | .waita d _ _ _ _ => rG [d]
  | .call _ _ _ => rJ 4
  | .callr _ => rJ 4
  | .movJa0FromG _ => rJ 1
  | .movJa1FromG _ => rJ 2
  | .movLrFromG _ => rJ 4
  | .movGFromJa0 d => rG [d]
  | .movGFromJa1 d => rG [d]
  | .movGFromLr d => rG [d]
  | .rdpc d => rG [d]
  | .movGFromLs d _ => rG [d]
  | .movGFromLe d _ => rG [d]
  | .movGFromLc d _ => rG [d]
  | .gang d => rG [d]
  | .adda d _ _ => rG [d]
  | .movi d _ => rG [d]
  | .movk d _ _ => rG [d]
  | .cstep d _ _ => rG [d]
  | .cwrap d _ _ => rG [d]
  | .cdiff d _ _ => rG [d]
  | .crect d _ => rG [d]
  | .cidx d _ => rG [d]
  | .cclus d _ => rG [d]
  | .hgrant d _ _ => rG [d]
  | .hpassX d _ _ => rG [d]
  | .hpassS d _ _ => rG [d]
  | .htake d _ => rG [d]
  | .vclaim d _ => rG [d]
  | .vrenew d _ => rG [d]
  | .vld v _ _ _ => rV [v]
  | .vldS v _ _ _ => rV [v]
  | .vldBc v _ _ _ => rV [v]
  | .vldG v _ _ _ => rV [v]
  | .sfucmd d _ _ _ _ _ _ => rG [d]
  | .srd d _ => rG [d]
  | .srset d _ _ => rG [d]
  | .srclr d _ _ => rG [d]
  | .lease d _ => rG [d]
  | .leaseq d => rG [d]
  | .leaseend d => rG [d]
  | .dictrd d _ _ => rG [d]
  | .larm d _ => rG [d]
  | .add d _ _ => rG [d]
  | .sub d _ _ => rG [d]
  | .neg d _ => rG [d]
  | .abs d _ => rG [d]
  | .addW d _ _ => rG [d]
  | .subW d _ _ => rG [d]
  | .addSat d _ _ => rG [d]
  | .subSat d _ _ => rG [d]
  | .and d _ _ => rG [d]
  | .or d _ _ => rG [d]
  | .xor d _ _ => rG [d]
  | .andn d _ _ => rG [d]
  | .orn d _ _ => rG [d]
  | .xnor d _ _ => rG [d]
  | .not d _ => rG [d]
  | .shl d _ _ => rG [d]
  | .shr d _ _ => rG [d]
  | .sra d _ _ => rG [d]
  | .rol d _ _ => rG [d]
  | .ror d _ _ => rG [d]
  | .shlW d _ _ => rG [d]
  | .shrW d _ _ => rG [d]
  | .sraW d _ _ => rG [d]
  | .mul d _ _ => rG [d]
  | .mulh d _ _ => rG [d]
  | .mulhu d _ _ => rG [d]
  | .mulW d _ _ => rG [d]
  | .div d _ _ => rG [d]
  | .divu d _ _ => rG [d]
  | .rem d _ _ => rG [d]
  | .remu d _ _ => rG [d]
  | .divW d _ _ => rG [d]
  | .divuW d _ _ => rG [d]
  | .remW d _ _ => rG [d]
  | .remuW d _ _ => rG [d]
  | .cmp d _ _ _ => rP [d]
  | .pand d _ _ => rP [d]
  | .por d _ _ => rP [d]
  | .pxor d _ _ => rP [d]
  | .pandn d _ _ => rP [d]
  | .pnot d _ => rP [d]
  | .pread d => rG [d]
  | .pwrite _ => rP [1, 2, 3, 4, 5, 6, 7]
  | .ptest d _ => rP [d]
  | .sel d _ _ _ => rG [d]
  | .smin d _ _ => rG [d]
  | .smax d _ _ => rG [d]
  | .umin d _ _ => rG [d]
  | .umax d _ _ => rG [d]
  | .popc d _ => rG [d]
  | .clz d _ => rG [d]
  | .ctz d _ => rG [d]
  | .ext d _ _ => rG [d]
  | .exts d _ _ => rG [d]
  | .ins d _ _ => rG [d]
  | .addi d _ _ => rG [d]
  | .andi d _ _ => rG [d]
  | .ori d _ _ => rG [d]
  | .xori d _ _ => rG [d]
  | .shli d _ _ => rG [d]
  | .shri d _ _ => rG [d]
  | .srai d _ _ => rG [d]
  | .rori d _ _ => rG [d]
  | .cmpi d _ _ _ => rP [d]
  | .fadd _ d _ _ _ => rG [d]
  | .fsub _ d _ _ _ => rG [d]
  | .fmul _ d _ _ _ => rG [d]
  | .fdiv _ d _ _ _ => rG [d]
  | .fsqrt _ d _ _ => rG [d]
  | .fmin _ d _ _ => rG [d]
  | .fmax _ d _ _ => rG [d]
  | .fabs _ d _ => rG [d]
  | .fneg _ d _ => rG [d]
  | .fma _ d _ _ _ _ => rG [d]
  | .fms _ d _ _ _ _ => rG [d]
  | .fnma _ d _ _ _ _ => rG [d]
  | .fnms _ d _ _ _ _ => rG [d]
  | .feq d _ _ _ => rP [d]
  | .flt d _ _ _ => rP [d]
  | .fle d _ _ _ => rP [d]
  | .fun d _ _ _ => rP [d]
  | .fclass d _ _ => rG [d]
  | .cvtSD d _ _ => rG [d]
  | .cvtDS d _ => rG [d]
  | .cvtSL d _ _ _ => rG [d]
  | .cvtLS d _ _ _ => rG [d]
  | .cvtSLu d _ _ _ => rG [d]
  | .cvtLuS d _ _ _ => rG [d]
  | .cvtBfS d _ _ _ => rG [d]
  | .cvtE4S d _ _ _ => rG [d]
  | .cvtSBf d _ _ => rG [d]
  | .cvtSE4 d _ _ => rG [d]
  | .vadd v _ _ _ _ _ => rV [v]
  | .vsub v _ _ _ _ _ => rV [v]
  | .vaddSat v _ _ _ _ _ => rV [v]
  | .vsubSat v _ _ _ _ _ => rV [v]
  | .vadduSat v _ _ _ _ _ => rV [v]
  | .vsubuSat v _ _ _ _ _ => rV [v]
  | .vneg v _ _ => rV [v]
  | .vand v _ _ _ _ _ => rV [v]
  | .vor v _ _ _ _ _ => rV [v]
  | .vxor v _ _ _ _ _ => rV [v]
  | .vandn v _ _ _ _ _ => rV [v]
  | .vnot v _ _ => rV [v]
  | .vshl v _ _ _ _ _ => rV [v]
  | .vshr v _ _ _ _ _ => rV [v]
  | .vsra v _ _ _ _ _ => rV [v]
  | .vmul v _ _ _ _ _ => rV [v]
  | .vmulh v _ _ _ _ _ => rV [v]
  | .vmulhu v _ _ _ _ _ => rV [v]
  | .vmla v _ _ _ _ _ => rV [v]
  | .vsmin v _ _ _ _ _ => rV [v]
  | .vsmax v _ _ _ _ _ => rV [v]
  | .vumin v _ _ _ _ _ => rV [v]
  | .vumax v _ _ _ _ _ => rV [v]
  | .vabs v _ _ => rV [v]
  | .vcmp d _ _ _ _ _ _ => rM [d]
  | .vfadd _ v _ _ _ _ _ _ => rV [v]
  | .vfsub _ v _ _ _ _ _ _ => rV [v]
  | .vfmul _ v _ _ _ _ _ _ => rV [v]
  | .vfmin _ v _ _ _ _ _ => rV [v]
  | .vfmax _ v _ _ _ _ _ => rV [v]
  | .vfma _ v _ _ _ _ _ _ => rV [v]
  | .vfms _ v _ _ _ _ _ _ => rV [v]
  | .vfcmp d _ _ _ _ _ _ _ => rM [d]
  | .vsel v _ _ _ _ _ => rV [v]
  | .vmov v _ _ _ _ => rV [v]
  | .mand d _ _ => rM [d]
  | .mor d _ _ => rM [d]
  | .mxor d _ _ => rM [d]
  | .mandn d _ _ => rM [d]
  | .mnot d _ => rM [d]
  | .mall d => rM [d]
  | .mnone d => rM [d]
  | .mmov d _ => rM [d]
  | .vbcast v _ _ _ => rV [v]
  | .vins v _ _ => rV [v]
  | .vext d _ _ _ h => rG [(gnum h d)]
  | .mrd d _ _ h => rG [(gnum h d)]
  | .mwr n _ _ _ => rM [n]
  | .mpopc d _ h => rG [(gnum h d)]
  | .vlen d h => rG [(gnum h d)]
  | .vcvtSW v _ _ _ => rV [v]
  | .vcvtWS v _ _ _ => rV [v]
  | .vcvtBfS v _ _ _ _ => rV [v]
  | .vcvtSBf v _ _ _ => rV [v]
  | .vcvtHS v _ _ _ _ => rV [v]
  | .vcvtSH v _ _ _ => rV [v]
  | .vcvtES v _ _ _ _ _ => rV [v]
  | .vcvtSE v _ _ _ _ => rV [v]
  | .vcvtBW v _ _ _ => rV [v]
  | .vcvtWB v _ _ _ => rV [v]
  | .vcvtDS v _ _ => rV [v]
  | .vcvtSD v _ _ _ => rV [v]
  | .vred v _ _ _ => rV [v]
  | .vperm v _ _ _ _ _ => rV [v]
  | .vpermB v _ _ _ _ _ => rV [v]
  | .vcompress v _ _ => rV [v]
  | _ => RegSet.empty

/-- Source registers; a word not listed has none. -/
def sources : Instr → RegSet
  | .ld _ a _ _ => rG [a]
  | .ldIndexed _ a b _ => rG [a, b]
  | .ldxB _ a _ => rG [a]
  | .ldxH _ a _ => rG [a]
  | .pfL1 a _ => rG [a]
  | .pfL2 a _ => rG [a]
  | .st s a _ _ => rG [s, a]
  | .stIndexed s a b _ => rG [s, a, b]
  | .stxB s a _ => rG [s, a]
  | .stxH s a _ => rG [s, a]
  | .amo _ a s _ _ _ => rG [a, s]
  | .amoCas _ a c _ _ => rG [a, (c ++ 0#1), (c ++ 1#1)]
  | .red a s _ _ => rG [a, s]
  | .push _ a s _ _ => rG [a, s]
  | .pop _ a _ _ _ => rG [a]
  | .xfw a => rG [a]
  | .bind _ a b => rG [a, b, (b + 1)]
  | .acq _ a _ => rG [a]
  | .rel a b _ => rG [a, b]
  | .waita _ a b _ n => (rG ((List.range (n.toNat + 1)).flatMap fun i => [a + BitVec.ofNat 5 i, b + BitVec.ofNat 5 i]))
  | .br p _ _ => rP [p]
  | .call p _ _ => rP [p]
  | .jr a => rG [a]
  | .callr a => rG [a]
  | .movJa0FromG a => rG [a]
  | .movJa1FromG a => rG [a]
  | .movLrFromG a => rG [a]
  | .movGFromJa0 _ => rJ 1
  | .movGFromJa1 _ => rJ 2
  | .movGFromLr _ => rJ 4
  | .movLsFromG a _ => rG [a]
  | .movLeFromG a _ => rG [a]
  | .movLcFromG a _ => rG [a]
  | .loop _ a _ => rG [a]
  | .haltRet a => rG [a]
  | .adda _ a _ => rG [a]
  | .movk d _ _ => rG [d]
  | .cstep _ a b => rG [a, b]
  | .cwrap _ a b => rG [a, b]
  | .cdiff _ a b => rG [a, b]
  | .crect _ a => rG [a]
  | .cidx _ a => rG [a]
  | .cclus _ a => rG [a]
  | .hgrant _ a b => rG [a, b]
  | .hpassX _ a b => rG [a, b]
  | .hpassS _ a b => rG [a, b]
  | .htake _ a => rG [a]
  | .hrecall a => rG [a]
  | .hrel a => rG [a]
  | .vld _ a k _ => (rG [a]).union (rK k)
  | .vldS _ a k _ => (rG [a, (a + 1)]).union (rK k)
  | .vldBc _ a k _ => (rG [a]).union (rK k)
  | .vldG _ a k i => ((rG [a]).union (rV [i])).union (rK k)
  | .vst v a k _ => ((rG [a]).union (rV [v])).union (rK k)
  | .vstS v a k _ => ((rG [a, (a + 1)]).union (rV [v])).union (rK k)
  | .vstG v a k i => ((rG [a]).union (rV [v, i])).union (rK k)
  | .sfucmd _ a b _ _ _ _ => rG [a, b]
  | .swr a _ => rG [a]
  | .srset _ a _ => rG [a]
  | .srclr _ a _ => rG [a]
  | .lease _ a => rG [a]
  | .dictld a _ => rG [a]
  | .dictrd _ a _ => rG [a]
  | .tlbinvVa a b => rG [a, b]
  | .tlbinvAsid a => rG [a]
  | .larm _ a => rG [a]
  | .add _ a b => rG [a, b]
  | .sub _ a b => rG [a, b]
  | .neg _ a => rG [a]
  | .abs _ a => rG [a]
  | .addW _ a b => rG [a, b]
  | .subW _ a b => rG [a, b]
  | .addSat _ a b => rG [a, b]
  | .subSat _ a b => rG [a, b]
  | .and _ a b => rG [a, b]
  | .or _ a b => rG [a, b]
  | .xor _ a b => rG [a, b]
  | .andn _ a b => rG [a, b]
  | .orn _ a b => rG [a, b]
  | .xnor _ a b => rG [a, b]
  | .not _ a => rG [a]
  | .shl _ a b => rG [a, b]
  | .shr _ a b => rG [a, b]
  | .sra _ a b => rG [a, b]
  | .rol _ a b => rG [a, b]
  | .ror _ a b => rG [a, b]
  | .shlW _ a b => rG [a, b]
  | .shrW _ a b => rG [a, b]
  | .sraW _ a b => rG [a, b]
  | .mul _ a b => rG [a, b]
  | .mulh _ a b => rG [a, b]
  | .mulhu _ a b => rG [a, b]
  | .mulW _ a b => rG [a, b]
  | .div _ a b => rG [a, b]
  | .divu _ a b => rG [a, b]
  | .rem _ a b => rG [a, b]
  | .remu _ a b => rG [a, b]
  | .divW _ a b => rG [a, b]
  | .divuW _ a b => rG [a, b]
  | .remW _ a b => rG [a, b]
  | .remuW _ a b => rG [a, b]
  | .cmp _ a b _ => rG [a, b]
  | .pand _ a b => rP [a, b]
  | .por _ a b => rP [a, b]
  | .pxor _ a b => rP [a, b]
  | .pandn _ a b => rP [a, b]
  | .pnot _ a => rP [a]
  | .pread _ => rP [1, 2, 3, 4, 5, 6, 7]
  | .pwrite a => rG [a]
  | .ptest _ a => rG [a]
  | .sel _ a b n => (rG [a, b]).union (rP [n])
  | .smin _ a b => rG [a, b]
  | .smax _ a b => rG [a, b]
  | .umin _ a b => rG [a, b]
  | .umax _ a b => rG [a, b]
  | .popc _ a => rG [a]
  | .clz _ a => rG [a]
  | .ctz _ a => rG [a]
  | .ext _ a b => rG [a, b]
  | .exts _ a b => rG [a, b]
  | .ins _ a b => rG [a, b]
  | .addi _ a _ => rG [a]
  | .andi _ a _ => rG [a]
  | .ori _ a _ => rG [a]
  | .xori _ a _ => rG [a]
  | .shli _ a _ => rG [a]
  | .shri _ a _ => rG [a]
  | .srai _ a _ => rG [a]
  | .rori _ a _ => rG [a]
  | .cmpi _ a _ _ => rG [a]
  | .fadd _ _ a b _ => rG [a, b]
  | .fsub _ _ a b _ => rG [a, b]
  | .fmul _ _ a b _ => rG [a, b]
  | .fdiv _ _ a b _ => rG [a, b]
  | .fsqrt _ _ a _ => rG [a]
  | .fmin _ _ a b => rG [a, b]
  | .fmax _ _ a b => rG [a, b]
  | .fabs _ _ a => rG [a]
  | .fneg _ _ a => rG [a]
  | .fma _ _ a b c _ => rG [a, b, c]
  | .fms _ _ a b c _ => rG [a, b, c]
  | .fnma _ _ a b c _ => rG [a, b, c]
  | .fnms _ _ a b c _ => rG [a, b, c]
  | .feq _ a b _ => rG [a, b]
  | .flt _ a b _ => rG [a, b]
  | .fle _ a b _ => rG [a, b]
  | .fun _ a b _ => rG [a, b]
  | .fclass _ a _ => rG [a]
  | .cvtSD _ a _ => rG [a]
  | .cvtDS _ a => rG [a]
  | .cvtSL _ a _ _ => rG [a]
  | .cvtLS _ a _ _ => rG [a]
  | .cvtSLu _ a _ _ => rG [a]
  | .cvtLuS _ a _ _ => rG [a]
  | .cvtBfS _ a _ _ => rG [a]
  | .cvtE4S _ a _ _ => rG [a]
  | .cvtSBf _ a _ => rG [a]
  | .cvtSE4 _ a _ => rG [a]
  | .vadd _ s t _ _ k => (rV [s, t]).union (rK k)
  | .vsub _ s t _ _ k => (rV [s, t]).union (rK k)
  | .vaddSat _ s t _ _ k => (rV [s, t]).union (rK k)
  | .vsubSat _ s t _ _ k => (rV [s, t]).union (rK k)
  | .vadduSat _ s t _ _ k => (rV [s, t]).union (rK k)
  | .vsubuSat _ s t _ _ k => (rV [s, t]).union (rK k)
  | .vneg _ s k => (rV [s]).union (rK k)
  | .vand _ s t _ _ k => (rV [s, t]).union (rK k)
  | .vor _ s t _ _ k => (rV [s, t]).union (rK k)
  | .vxor _ s t _ _ k => (rV [s, t]).union (rK k)
  | .vandn _ s t _ _ k => (rV [s, t]).union (rK k)
  | .vnot _ s k => (rV [s]).union (rK k)
  | .vshl _ s t _ _ k => (rV [s, t]).union (rK k)
  | .vshr _ s t _ _ k => (rV [s, t]).union (rK k)
  | .vsra _ s t _ _ k => (rV [s, t]).union (rK k)
  | .vmul _ s t _ _ k => (rV [s, t]).union (rK k)
  | .vmulh _ s t _ _ k => (rV [s, t]).union (rK k)
  | .vmulhu _ s t _ _ k => (rV [s, t]).union (rK k)
  | .vmla v s t _ _ k => (rV [s, t, v]).union (rK k)
  | .vsmin _ s t _ _ k => (rV [s, t]).union (rK k)
  | .vsmax _ s t _ _ k => (rV [s, t]).union (rK k)
  | .vumin _ s t _ _ k => (rV [s, t]).union (rK k)
  | .vumax _ s t _ _ k => (rV [s, t]).union (rK k)
  | .vabs _ s k => (rV [s]).union (rK k)
  | .vcmp _ s t _ _ k _ => (rV [s, t]).union (rK k)
  | .vfadd _ _ s t _ _ k _ => (rV [s, t]).union (rK k)
  | .vfsub _ _ s t _ _ k _ => (rV [s, t]).union (rK k)
  | .vfmul _ _ s t _ _ k _ => (rV [s, t]).union (rK k)
  | .vfmin _ _ s t _ _ k => (rV [s, t]).union (rK k)
  | .vfmax _ _ s t _ _ k => (rV [s, t]).union (rK k)
  | .vfma _ v s t c _ _ k => (rV [s, t, c, v]).union (rK k)
  | .vfms _ v s t c _ _ k => (rV [s, t, c, v]).union (rK k)
  | .vfcmp _ s t _ _ k _ _ => (rV [s, t]).union (rK k)
  | .vsel _ s t _ _ k => (rV [s, t]).union (rK k)
  | .vmov _ t _ _ k => (rV [t]).union (rK k)
  | .mand _ s t => rM [s, t]
  | .mor _ s t => rM [s, t]
  | .mxor _ s t => rM [s, t]
  | .mandn _ s t => rM [s, t]
  | .mnot _ s => rM [s]
  | .mmov _ s => rM [s]
  | .vbcast _ s k h => (rG [(gnum h s)]).union (rK k)
  | .vins _ s h => rG [(gnum h s)]
  | .vext _ t _ _ _ => rV [t]
  | .mrd _ n _ _ => rM [n]
  | .mwr _ s _ h => rG [(gnum h s)]
  | .mpopc _ n _ => rM [n]
  | .vcvtSW _ s _ k => (rV [s]).union (rK k)
  | .vcvtWS _ s _ k => (rV [s]).union (rK k)
  | .vcvtBfS _ s _ k _ => (rV [s]).union (rK k)
  | .vcvtSBf _ s k _ => (rV [s]).union (rK k)
  | .vcvtHS _ s _ k _ => (rV [s]).union (rK k)
  | .vcvtSH _ s k _ => (rV [s]).union (rK k)
  | .vcvtES _ s _ _ k _ => (rV [s]).union (rK k)
  | .vcvtSE _ s _ k _ => (rV [s]).union (rK k)
  | .vcvtBW _ s _ k => (rV [s]).union (rK k)
  | .vcvtWB _ s _ k => (rV [s]).union (rK k)
  | .vcvtDS _ s k => (rV [s]).union (rK k)
  | .vcvtSD _ s _ k => (rV [s]).union (rK k)
  | .vred _ s k _ => (rV [s]).union (rK k)
  | .vperm _ s t _ _ k => (rV [s, t]).union (rK k)
  | .vpermB _ s t _ _ k => (rV [s, t]).union (rK k)
  | .vcompress _ s k => (rV [s]).union (rK k)
  | .ret => rJ 4
  | _ => RegSet.empty

/-- Words that access memory, or send work that does: none issues while an acquire, a pop, a `bind` or an ordered atomic of
its context is not complete (R112, R113, R143, R166). -/
def accesses : Instr → Bool
  | .ld _ _ _ _ => true
  | .ldIndexed _ _ _ _ => true
  | .ldxB _ _ _ => true
  | .ldxH _ _ _ => true
  | .ldk _ _ => true
  | .st _ _ _ _ => true
  | .stIndexed _ _ _ _ => true
  | .stxB _ _ _ => true
  | .stxH _ _ _ => true
  | .amo _ _ _ _ _ _ => true
  | .amoCas _ _ _ _ _ => true
  | .red _ _ _ _ => true
  | .push _ _ _ _ _ => true
  | .pop _ _ _ _ _ => true
  | .bind _ _ _ => true
  | .acq _ _ _ => true
  | .rel _ _ _ => true
  | .waita _ _ _ _ _ => true
  | .vld _ _ _ _ => true
  | .vldS _ _ _ _ => true
  | .vldBc _ _ _ _ => true
  | .vldG _ _ _ _ => true
  | .vst _ _ _ _ => true
  | .vstS _ _ _ _ => true
  | .vstG _ _ _ _ => true
  | .sfucmd _ _ _ _ _ _ _ => true
  | .dictld _ _ => true
  | _ => false

/-- Loop level whose count a word writes. -/
def lcWritten : Instr → Option Nat
  | .movLcFromG _ n => some n.toNat
  | .loop l _ _ => some l.toNat
  | _ => none

end Sys2Proof.Machine
end

