-- ==== Sys2Proof/Machine/Issue.lean ====
section
/-! DEFINITION. Issue of one unit by a context or gang: fetch, format and dictionary expansion, the conflict check, both
words, and the next address (R178 to R181, R185, R186, R200 to R206, R218 to R223, R240, R261, R371). -/

namespace Sys2Proof.Machine

/-! ### Fetch (R8, R10, R37, R81, R200, R274) -/

/-- What a fetch gives: the two words, or the state in which the context waits or has trapped. -/
inductive Fetched where
  | words (a b : W32)
  | stop (s : State)

/-- The words of the bundle at a byte offset of a line's data. -/
def bundleAt (data : List Byte) (off : Nat) : W32 × W32 :=
  (BitVec.ofNat 32 (fieldAt data off 4), BitVec.ofNat 32 (fieldAt data (off + 4) 4))

/-- A leaf lets the context in issue fetch. -/
def State.fetchLeaf (s : State) (e : TlbEntry) (pa : Nat) : Bool :=
  leafX e.leaf && (s.c.sys || !leafSystem e.leaf pa) && s.hasTarget pa && !s.noReg pa

/-- A fetch that misses the instruction cache: through the die's cache when that holds the whole line, else to the home;
the context parks and fetches again. -/
def State.fetchMiss (s : State) (va : W64) (pa : Nat) (leaf : W64) : State :=
  let id := s.nextId
  let s := match s.near s.cur pa leaf 0 128 with
    | .rdc data _ =>
      (s.send s.cur va pa leaf (.load (.fetch false)) .done data).modReq id fun q => { q with install := false }
    | _ => s.send s.cur va pa leaf (.load (.fetch false)) .sent []
  ((s.modC fun c => { c with wait := .replies [id], redo := true }).leave s.cur .parked).flow .again

/-- Fetch of the bundle at the program counter of the context in issue. -/
def State.fetch (s : State) : Fetched :=
  let va := s.c.pc
  if !canonical va ∨ bit va 55 then .stop (s.trap 0x09 va)
  else
    match s.tlbFind s.cur.site s.cur.core s.c.asid va.toNat with
    | none =>
      match s.c.walkFault with
      | some (vpn, code) => .stop (if vpn = pageOf va then s.trap code va else s.waitWalk va false)
      | none => .stop (s.waitWalk va false)
    | some e =>
      let pa := e.pa va.toNat
      if !s.fetchLeaf e pa then .stop (s.trap 0x09 va)
      else
        match (s.core s.cur.site s.cur.core).ic.find? fun l => l.line = s.lineOf pa with
        | some l =>
          let w := bundleAt l.data (pa % 128)
          .words w.1 w.2
        | none => .stop ((s.tlbTouch s.cur va).fetchMiss va pa e.leaf)

/-! ### Dictionary expansion (R216 to R222, R228) -/

/-- A defined entry that breaks R217. -/
def entryBad (e : W64) : Bool :=
  let h0p := bits e 34 5
  let h0w := bits e 39 4
  let h1p := bits e 43 5
  let h1w := bits e 48 4
  bits e 52 12 != 0 || decide (8 < h0w + h1w) || (h0w == 0 && h1w != 0) || (h0w != 0 && decide (30 < h0p + h0w)) ||
    (h1w != 0 && decide (30 < h1p + h1w)) || (h0w != 0 && h1w != 0 && decide (h1p < h0p + h0w)) ||
    (!bit e 33 && bits e 30 2 != 0)

/-- The template with its holes filled from the payload (R219). -/
def expandWord (e : W64) (pay : Nat) : W32 :=
  let w := e &&& 0xFFFFFFFF#64
  let h0w := bits e 39 4
  let h1w := bits e 48 4
  let w := if h0w = 0 then w else putBits w (bits e 34 5) h0w pay
  let w := if h1w = 0 then w else putBits w (bits e 43 5) h1w (pay / 2 ^ h0w)
  w.setWidth 32

/-- Key of the entry that a short word names in the active bank: the one in force when the slot is expanded, also where an
earlier slot of the bundle has changed it (R225; log entry 77). -/
def Ctx.entryKey (c : Ctx) (sw : BitVec 14) : Nat := 64 * c.dactive.toNat + bits (sw.setWidth 64) 8 6

/-- A slot must expand from the old version of its entry, if one is still listed: an earlier slot of the bundle has. -/
def Ctx.oldOnly (c : Ctx) (sws : List (BitVec 14)) (k : Nat) : Bool :=
  c.mid && (sws.take k).any fun x => c.entryKey x == c.entryKey (sws.getD k 0)

/-- A slot's version: the entry, and the context after it; the new version seen once stays (R228). -/
def State.slotEntry (s : State) (sws : List (BitVec 14)) (k : Nat) : State × W64 :=
  let c := s.c
  let key := c.entryKey (sws.getD k 0)
  match Table.find c.dictOld key with
  | none => (s, Table.get 0 c.dict key)
  | some old =>
    let same := (sws.take k).drop c.slot.toNat |>.any fun x => c.entryKey x == key
    if c.oldOnly sws k || same || s.choose 2 = 0 then (s.next, old)
    else ((s.modC fun c => { c with dictOld := Table.erase c.dictOld key }).next, Table.get 0 c.dict key)

/-- An expanded word of either class, decoded; none is an expansion that is illegal (R222). -/
inductive Slotted where
  | a (w : W32) (i : Instr)
  | b (w : W32) (i : Instr)
  | bad (s : State)

/-- An A-class expansion decoded, with the bank that it came from; one with major 0x3A is illegal (R222). -/
def State.slotA (s : State) (sw : BitVec 14) (bank k : Nat) (w : W32) : Slotted :=
  if fld w 24 6 = 0x3A#6 then .bad (s.trap 0x04 (dictTval sw bank k w))
  else
    match decodeA w with
    | .ok i => .a w i
    | .error _ => .bad (s.trap 0x04 (dictTval sw bank k w))

/-- Expansion of a slot (R219, R222), and the bank that it came from. A slot expanded before the A-class slot ahead of it executed is
not expanded again (R221). -/
def State.expandSlot (s : State) (sws : List (BitVec 14)) (k : Nat) : State × Nat × Slotted :=
  let sw := sws.getD k 0
  match if s.c.mid && k == s.c.slot.toNat then s.c.ahead else none with
  | some (w, bank) => (s, bank, s.slotA sw bank k w)
  | none =>
    let bank := s.c.dactive.toNat
    let (s, e) := s.slotEntry sws k
    if !bit e 32 then (s, bank, .bad (s.trap 0x03 (dictTval sw bank k 0)))
    else if entryBad e then (s, bank, .bad (s.trap 0x04 (dictTval sw bank k (e.setWidth 32))))
    else
      let w := expandWord e (sw.toNat % 256)
      if bit e 33 then
        match decodeB w with
        | .ok i => (s, bank, .b w i)
        | .error _ => (s, bank, .bad (s.trap 0x04 (dictTval sw bank k w)))
      else (s, bank, s.slotA sw bank k w)

/-! ### Units (R220) -/

/-- A unit: word A with its decoding, word B if it has one (none where B is illegal), and the slots that TVAL and the
resume point report. -/
structure IssueUnit where
  a : W32
  ia : Except W32 Instr
  b : W32
  ib : Option (Except W32 Instr)
  dict : Option (BitVec 14 × Nat × BitVec 14 × Nat × Nat)
  nextSlot : Option (BitVec 2)
  /-- Expansion of the A-class slot that follows, and its bank (R221). -/
  ahead : Option (W32 × Nat)

/-- What preparing a unit gives. -/
inductive Prepared where
  | unit (s : State) (u : IssueUnit)
  | stop (s : State)

/-- Decoding that keeps the word where it is illegal. -/
def asWord (w : W32) (r : Except DecodeError Instr) : Except W32 Instr :=
  match r with
  | .ok i => .ok i
  | .error _ => .error w

/-- The unit that begins at the context's slot of a dictionary bundle. -/
def State.dictUnit (s : State) (cnt : Nat) (sws : List (BitVec 14)) : Prepared :=
  let k := s.c.slot.toNat
  let nxt (n : Nat) : Option (BitVec 2) := if n ≤ cnt then some (BitVec.ofNat 2 n) else none
  let sw (i : Nat) : BitVec 14 := sws.getD i 0
  match s.expandSlot sws k with
  | (_, _, .bad t) => .stop t
  | (s, bank, .b w i) => .unit s ⟨nopA, .ok .nop, w, some (.ok i), some (0, k, sw k, k, bank), nxt (k + 1), none⟩
  | (s, bank, .a w i) =>
    if cnt < k + 1 then .unit s ⟨w, .ok i, 0, none, some (sw k, k, 0, k, bank), none, none⟩
    else
      match s.expandSlot sws (k + 1) with
      | (_, _, .bad t) => .stop t
      | (s, b', .a w' _) => .unit s ⟨w, .ok i, 0, none, some (sw k, k, 0, k, bank), nxt (k + 1), some (w', b')⟩
      | (s, _, .b w' i') => .unit s ⟨w, .ok i, w', some (.ok i'), some (sw k, k, sw (k + 1), k + 1, bank), nxt (k + 2), none⟩

/-- The unit of a fetched bundle at the context's slot; cause 0x01 first (R202, R221). -/
def State.prepare (s : State) (a b : W32) : Prepared :=
  let illegal : Prepared := .stop (s.trap 0x01 s.c.pc)
  match decodeBundle a b with
  | .error _ => illegal
  | .ok (.dict cnt s0 s1 s2 s3) =>
    if cnt.toNat < s.c.slot.toNat then illegal else s.dictUnit cnt.toNat [s0, s1, s2, s3]
  | .ok (.lone a) =>
    if s.c.slot ≠ 0 then illegal else .unit s ⟨a, asWord a (decodeA a), 0, none, none, none, none⟩
  | .ok (.pair a b) =>
    if s.c.slot ≠ 0 then illegal else .unit s ⟨a, asWord a (decodeA a), b, some (asWord b (decodeB b)), none, none, none⟩

/-! ### Execution of a unit by one context (R203, R240, R371) -/

/-- A meaning's next state; a meaning of a word always has one. -/
def run (i : Instr) (s : State) : State :=
  match exec i s with
  | .next t => t
  | _ => s

/-- The registers that word B wrote, over the context that word A left. -/
def Ctx.takeB (c src : Ctx) (d : RegSet) : Ctx :=
  { c with
    g := Vector.ofFn fun i : Fin 32 => if d.g.getLsbD i then src.g[i] else c.g[i]
    p := (c.p &&& ~~~d.p) ||| (src.p &&& d.p)
    v := Vector.ofFn fun i : Fin 16 => if d.v.getLsbD i then src.v[i] else c.v[i]
    m := Vector.ofFn fun i : Fin 4 => if d.m.getLsbD i then src.m[i] else c.m[i] }

/-- The words of a unit in issue. -/
def IssueUnit.issue (u : IssueUnit) (peers : List Ctx) : Issue :=
  { a := u.a, b := u.b, inB := false, dict := u.dict, nextSlot := u.nextSlot, peers := peers, flow := .fall }

/-- Registers that a unit's words name. -/
def IssueUnit.names (u : IssueUnit) : RegSet :=
  let of_ (r : Except W32 Instr) : RegSet :=
    match r with
    | .ok i => (dests i).union (sources i)
    | .error _ => RegSet.empty
  (of_ u.ia).union (match u.ib with | some r => of_ r | none => RegSet.empty)

/-- The two words name one destination (R203). -/
def IssueUnit.clash (u : IssueUnit) : Bool :=
  match u.ia, u.ib with
  | .ok i, some (.ok j) => (dests i).meets (dests j)
  | _, _ => false

/-- NX of a unit (R205): the target, from the leader's registers before the unit. -/
def State.nxTarget (s : State) (u : IssueUnit) : Option W64 :=
  let c := s.ctl
  match u.ib with
  | none => none
  | some _ =>
    match (fld u.b 30 2).toNat with
    | 1 => some c.ja0
    | 2 => some c.ja1
    | 3 => some c.lr
    | _ => none

/-- Pushes that a set of registers waits for. -/
def State.pushesOf (s : State) (r : CtxRef) (g : BitVec 32) : List Nat :=
  (s.reqs.filter fun q => q.who == r && !q.orphan &&
    (match q.kind with | .push _ _ d _ => g.getLsbD d.toNat | _ => false)).map (·.id)

/-- A unit that names a register whose result is outstanding does not execute: it parks on a push (R160), and stalls on
any other (R240). -/
def State.interlock (s : State) (u : IssueUnit) : Option State :=
  let p := s.c.pend.regs
  if !u.names.meets p then none
  else
    let ids := s.pushesOf s.cur (u.names.g &&& p.g)
    if ids.isEmpty then some (s.flow .stall)
    else some (((s.modC fun c => { c with wait := .replies ids, redo := true }).leave s.cur .parked).flow .again)

/-- Word B behind word A: its cause withholds both; else its registers join A's state. `s` is the state before. -/
def State.thenB (s sA : State) (r : Except W32 Instr) : State :=
  let s0 : State := { s with tick := sA.tick, issue := { s.issue with inB := true } }
  match r with
  | .error _ => s0.illegal
  | .ok i =>
    let sB := run i s0
    match sB.issue.flow with
    | .fall =>
      let d := dests i
      let src := sB.c
      ({ sA with tick := sB.tick } : State).modC fun c => c.takeB src d
    | _ => sB

/-- A control transfer was taken. -/
def Flow.jumps : Flow → Bool
  | .jump _ _ => true
  | _ => false

/-- Word A's effects stand, so far. -/
def Flow.goesOn : Flow → Bool
  | .fall => true
  | .park => true
  | .jump _ _ => true
  | _ => false

/-- Cause 0x0B of a unit whose NX target is no bundle address, where word A transfers no control (R205, R206). -/
def State.nxCheck (s t : State) (u : IssueUnit) : State :=
  match s.nxTarget u with
  | some a => if !t.issue.flow.jumps && bits a 0 3 != 0 then ({ s with tick := t.tick } : State).trap 0x0B a else t
  | none => t

/-- Word A ends its context: word B's causes come first and withhold that (R203), and so does an NX target that is no bundle
address (R205; log entry 78). -/
def State.endsWith (s sA : State) (u : IssueUnit) : State :=
  match u.ib with
  | none => sA
  | some r =>
    let sB := s.thenB { s with tick := sA.tick } r
    if !sB.issue.flow.goesOn then sB
    else
      let t := s.nxCheck sB u
      if t.issue.flow.goesOn then sA else t

/-- A unit executes in the context in issue; the flow says how it went. -/
def State.execUnit (s : State) (u : IssueUnit) : State :=
  match u.ia with
  | .error _ => s.illegal
  | .ok i =>
    if u.clash then ({ s with issue := { s.issue with inB := true } } : State).illegal
    else
      match s.interlock u with
      | some t => t
      | none =>
        if accesses i && s.accessHeld s.cur then s.flow .stall
        else
          let sA := run i s
          if sA.issue.flow == Flow.ended then s.endsWith sA u
          else if !sA.issue.flow.goesOn then sA
          else
            let sAB := match u.ib with
              | none => sA
              | some r => s.thenB sA r
            if !sAB.issue.flow.goesOn then sAB else s.nxCheck sAB u

/-! ### Gangs and the next address (R185, R186, R206, R259) -/

/-- The outcome of a unit in each member, in order. -/
abbrev Flows := List (CtxRef × Flow)

/-- The members execute a unit one after the other, each on its own registers and on its partners' of before. -/
def State.execMembers (s : State) (u : IssueUnit) (peers : List Ctx) : List CtxRef → State × Flows
  | [] => (s, [])
  | m :: ms =>
    let t := ({ s with cur := m, issue := u.issue peers } : State).execUnit u
    let (t', fs) := State.execMembers t u peers ms
    (t', (m, t.issue.flow) :: fs)

/-- A context that can issue waits with its gang. -/
def State.waitAlong (s : State) (m : CtxRef) : State :=
  if (s.ctx m).st = .running ∨ (s.ctx m).st = .ready then
    (s.modCtx m fun c => { c with wait := .replies [] }).leave m .parked
  else s

/-- All members enter the trap that one of them raised, each for its own cause where it has one (R186); another shows the
TCAUSE and TVAL of the first that has (log entry 64). -/
def State.gangTraps (s : State) (u : IssueUnit) (peers : List Ctx) (fs : Flows) : State :=
  let own := (fs.filter fun f => f.2 = .trapped).map (·.1)
  let (s, _) := s.execMembers u peers own
  match own with
  | [] => s
  | m :: _ =>
    let c := s.ctx m
    (fs.filter fun f => f.2 ≠ .trapped).foldl (fun s f =>
      let x := s.ctx f.1
      s.takeTrap f.1 false false (bits c.tcause 0 6) c.tval x.pc x.slot) s

/-- Members whose unit did not complete decide for the gang: the effects of the others are withheld. -/
def State.settle (s0 s : State) (u : IssueUnit) (peers : List Ctx) (fs : Flows) : State :=
  let with_ (p : Flow → Bool) : List CtxRef := (fs.filter fun f => p f.2).map (·.1)
  let died := (with_ fun f => f == .ended).filter fun m => (s.ctx m).st = CtxState.free
  let s0 : State := { s0 with tick := s.tick }
  if !(with_ fun f => f == .trapped).isEmpty && died.isEmpty then s0.gangTraps u peers fs
  else if !died.isEmpty then
    let (t, _) := s0.execMembers u peers died
    fs.foldl (fun t f => t.modCtx f.1 fun c => { c with mid := false, ahead := none }) t
  else
    let (t, _) := s0.execMembers u peers (with_ fun f => f == .stall || f == .again)
    if (with_ fun f => f == .again).isEmpty then t else fs.foldl (fun t f => t.waitAlong f.1) t

/-- Where a member goes after a completed unit (R206): the leader's transfer, NX, the next unit, the loop decision made
before the bundle (`loop`), or the next bundle. -/
def Ctx.advance (c : Ctx) (lead : Ctx) (loop : Option (Nat × W64 × W32)) (flow : Flow) (nx : Option W64)
    (next : Option (BitVec 2)) (ahead : Option (W32 × Nat)) (isLead : Bool) : Ctx :=
  let goTo (t : W64) (k : BitVec 2) : Ctx :=
    { c with pc := t, slot := k, mid := false, ahead := none, loopNext := none, walkFault := none }
  match flow, nx, next with
  | .jump t k, _, _ => goTo t k
  | _, some t, _ => goTo t 0
  | _, none, some k => { c with slot := k, mid := true, ahead := ahead, loopNext := loop, walkFault := none }
  | _, none, none =>
    match loop with
    | some (l, t, n) =>
      let c' := goTo t 0
      if isLead then { c' with lc := c'.lc.setIfInBounds l n } else c'
    | none => goTo (lead.pc + 8) 0

/-- The loop decision of a bundle once a unit of it is done: a count that the unit writes stands, for the decision of the next
bundle (R262), so that the decision's own count goes nowhere. -/
def IssueUnit.loopKept (u : IssueUnit) (d : Option (Nat × W64 × W32)) : Option (Nat × W64 × W32) :=
  match d, u.ia with
  | some (l, t, n), .ok i => some (if lcWritten i = some l then 4 else l, t, n)
  | _, _ => d

/-- Core cycles of a core: CYCLE, and NPCOUNT of its contexts within a section (R269, R380; log entry 6). -/
def State.pass (s : State) (site core : Nat) : State :=
  let n := 1 + Config.cycles s.tick
  let s := s.modCore site core fun k => { k with cycle := k.cycle + BitVec.ofNat 64 n }
  { s with ctxs := Table.mapVals (fun k (c : Ctx) =>
    if k / 4 = site * 256 + core ∧ c.npsec ∧ c.st ≠ CtxState.free ∧ c.st ≠ CtxState.stopped ∧ c.st ≠ CtxState.preempted then
      { c with npcount := c.npcount + BitVec.ofNat 32 n }
    else c) s.ctxs }

/-- An issue cycle of a context: its core's cycles pass, ISSUED counts, and its energy (R269, R410; log entry 39). -/
def State.tock (s : State) (r : CtxRef) (used : Bool) : State :=
  let s := s.pass r.site r.core
  (if used then (s.modCtx r fun (c : Ctx) => if c.st = CtxState.free then c else { c with issued := c.issued + 1 }).billCtx r
   else s).next

/-- The unit completed in every member: they go on together. -/
def State.goAlong (s : State) (ms : List CtxRef) (lead : Ctx) (u : IssueUnit) (nx : Option W64) (fs : Flows) : State :=
  let flow := (fs.head?.map (·.2)).getD .fall
  let loop := u.loopKept lead.loopNext
  let s := ms.foldl (fun s m =>
    if (s.ctx m).st = CtxState.free then s
    else s.modCtx m fun c => c.advance lead loop flow nx u.nextSlot u.ahead (ms.head? = some m)) s
  if fs.any fun f => f.2 == Flow.park then ms.foldl (fun s m => s.waitAlong m) s else s

/-- A flow that used an issue cycle. -/
def used (s : State) (f : CtxRef × Flow) : Bool :=
  match f.2 with
  | .stall => false
  | .again => (s.ctx f.1).st = .waiting
  | _ => true

/-- A unit of the members of an issuing context, `s` being the state in which they stand at it. -/
def State.unitOf (s : State) (ms : List CtxRef) (lead : CtxRef) (u : IssueUnit) : State :=
  let gang := decide (1 < ms.length)
  let peers := if gang then ms.map s.ctx else []
  let s0 := { s with cur := lead, issue := u.issue peers }
  let (t, fs) := s0.execMembers u peers ms
  let leadPre := s0.ctx lead
  let nx := s0.nxTarget u
  let haltAll := fs.all fun f => f.2 = .ended
  let fin := if fs.all fun f => f.2.goesOn then t.goAlong ms leadPre u nx fs
    else if gang && !haltAll then s0.settle t u peers fs
    else t
  let fin := fs.foldl (fun (x : State) f => x.tock f.1 (used x f)) fin
  { fin with cur := lead }

/-- The gang stands where its leader stands (R185). -/
def State.alignGang (s : State) (ms : List CtxRef) (lead : CtxRef) : State :=
  let l := s.ctx lead
  ms.foldl (fun s m => if m = lead then s else s.modCtx m fun c => { c with pc := l.pc, slot := l.slot, mid := l.mid, ahead := l.ahead }) s

/-- A store's cause stops a bundle between its slots (R129, R130). -/
def State.storeCause (s : State) (r : CtxRef) : Option (Bool × Nat × W64) :=
  match s.gangCause r with
  | some (false, x) => some (false, x)
  | _ => none

/-- A bundle that executes again after parking and stalls is still not done: no boundary comes before it (R181). -/
def State.redoStays (s : State) (rs : List CtxRef) : State := rs.foldl (fun s m => s.modCtx m fun c => { c with redo := true }) s

/-- The unit at the program counter of a context or gang: the memory operations of a context issue in program order, the order of
its bundles and of their slots (R97). The loop decision of a bundle is made with the loop registers from before it; after a trap
between its slots, with those of the return (log entry 78). -/
def State.issueUnit (s : State) (ms : List CtxRef) (lead : CtxRef) : State :=
  let s := s.alignGang ms lead
  let again := ms.filter fun m => (s.ctx m).redo
  let s := { s with cur := lead, issue := Issue.reset }
  let s := if s.c.mid then s else s.modC fun c => { c with loopNext := loopDecision c c.pc }
  let s := ms.foldl (fun s m => if (s.ctx m).redo then s.modCtx m fun c => { c with redo := false } else s) s
  let stopped (t : State) : State :=
    -- the leader alone fetches: what stops it stops its gang
    let t := match t.issue.flow with
      | .trapped => ms.foldl (fun (x : State) m =>
          if m = lead then x
          else
            let c := t.ctx lead
            let y := x.ctx m
            x.takeTrap m false false (bits c.tcause 0 6) c.tval y.pc y.slot) t
      | .again => ms.foldl (fun (x : State) m => x.waitAlong m) t
      | _ => t
    t.tock lead (t.issue.flow == Flow.trapped)
  match s.fetch with
  | .stop t => stopped t
  | .words a b =>
    match s.prepare a b with
    | .stop t => stopped t
    | .unit s u =>
      let t := s.unitOf ms lead u
      if t.issue.flow == Flow.stall && (s.c.mid || !again.isEmpty) then
        match s.storeCause lead with
        | some x => s.takeAll lead x
        | none => t.redoStays again
      else t

/-- Waits that begin while an asynchronous cause is pending are abandoned at once (R178, R181). -/
def State.abandonPending (s : State) (ms : List CtxRef) : State :=
  if ms.any fun m => (s.ctx m).st = .waiting && !(s.ctx m).inTrap && !(s.ctx m).pendAsync.isEmpty then s.abandon ms else s

/-- A context issues one unit, or takes what is pending at its bundle boundary: a request for pre-emption among it, the
lowest of the asynchronous causes (R181, R371). One whose section has lasted to its limit ends instead (R380). -/
def State.issueNow (s : State) (r : CtxRef) (ms : List CtxRef) : State :=
  let lead := ms.headD r
  match ms.find? fun m => (s.ctx m).fatal.isSome with
  | some m =>
    (match (s.ctx m).fatal with
      | some (code, v) => s.endContext m code v
      | none => s)
  | none =>
    match ms.find? s.npOver with
    | some m => s.endContext m 0x11 ((s.ctx m).npcount.setWidth 64)
    | none =>
      match s.takePending r with
      | some t => t.tock r true
      | none => (s.issueUnit ms lead).abandonPending ms

/-- One issue of a context or gang, where all its members can; in a stopped die each then stops at its bundle's end (R384). -/
def State.issueOne (s : State) (r : CtxRef) : State :=
  let ms := s.members r
  if !(ms.all fun m => (s.ctx m).st = .running || (s.ctx m).st = .ready) then s
  else ms.foldl (fun t m => t.stopLate m) (s.issueNow r ms)

end Sys2Proof.Machine
end

