-- ==== Sys2Proof/Machine/Ahead.lean ====
section
/-! DEFINITION. Loads ahead of a program: run-ahead in a PARKED context, and the loads of a mispredicted path (R42, R105,
R182, R183, R229). Both follow the context's stream on a copy of the machine that is thrown away, so that nothing
architectural can change; what stays is the loads found, each a request whose only trace is the line it may fill. -/

namespace Sys2Proof.Machine

/-- Words at which run-ahead stops, and past which nothing issues speculatively: stores, atomics, exchanges, waits, barriers,
engine work, handle, lease, dictionary and system words, `halt` (R182, R183, R229). -/
def aheadStops : Instr → Bool
  | .st _ _ _ _ => true
  | .stIndexed _ _ _ _ => true
  | .stxB _ _ _ => true
  | .stxH _ _ _ => true
  | .vst _ _ _ _ => true
  | .vstS _ _ _ _ => true
  | .vstG _ _ _ _ => true
  | .amo _ _ _ _ _ _ => true
  | .amoCas _ _ _ _ _ => true
  | .red _ _ _ _ => true
  | .push _ _ _ _ _ => true
  | .pop _ _ _ _ _ => true
  | .fence _ => true
  | .xfi _ => true
  | .xfw _ => true
  | .bind _ _ _ => true
  | .acq _ _ _ => true
  | .rel _ _ _ => true
  | .waitc _ _ _ _ => true
  | .waita _ _ _ _ _ => true
  | .arrive _ => true
  | .arriveSs _ => true
  | .waitb _ => true
  | .haltRet _ => true
  | .halt => true
  | .gang _ => true
  | .split => true
  | .yield => true
  | .hgrant _ _ _ => true
  | .hpassX _ _ _ => true
  | .hpassS _ _ _ => true
  | .htake _ _ => true
  | .hrecall _ => true
  | .hrel _ => true
  | .vclaim _ _ => true
  | .vrenew _ _ => true
  | .vrel => true
  | .sfucmd _ _ _ _ _ _ _ => true
  | .sfufence => true
  | .srd _ _ => true
  | .swr _ _ => true
  | .srset _ _ _ => true
  | .srclr _ _ _ => true
  | .lease _ _ => true
  | .leaseq _ => true
  | .leaseend _ => true
  | .dictld _ _ => true
  | .dictsel _ => true
  | .dictrd _ _ _ => true
  | .dictfence => true
  | .trap _ => true
  | .rft => true
  | .tlbinvVa _ _ => true
  | .tlbinvAsid _ => true
  | .tlbinvAll => true
  | .icsync => true
  | .larm _ _ => true
  | _ => false

/-- Loads. -/
def isLoad : Instr → Bool
  | .ld _ _ _ _ => true
  | .ldIndexed _ _ _ _ => true
  | .ldxB _ _ _ => true
  | .ldxH _ _ _ => true
  | .vld _ _ _ _ => true
  | .vldS _ _ _ _ => true
  | .vldBc _ _ _ _ => true
  | .vldG _ _ _ _ => true
  | _ => false

/-- Prefetches; they do nothing ahead of the program. -/
def isPrefetch : Instr → Bool
  | .pfL1 _ _ => true
  | .pfL2 _ _ => true
  | _ => false

/-- The sense of a conditional transfer's predicate. -/
def predicted : Instr → Option Bool
  | .br _ n _ => some n
  | .call _ n _ => some n
  | _ => none

/-- Registers of one set that are not in another. -/
def RegSet.minus (a b : RegSet) : RegSet := ⟨a.g &&& ~~~b.g, a.p &&& ~~~b.p, a.v &&& ~~~b.v, a.m &&& ~~~b.m, a.j &&& ~~~b.j⟩

/-- Where the look ahead stands: the copy of the machine, the registers whose values are not known, the loads found, the
bundles passed. -/
structure Ahead where
  s : State
  unk : RegSet
  found : List Req
  bundles : Nat

/-- The requests to global memory that a load has made, to lines that are not device memory. -/
def newLoads (s t : State) : List Req :=
  (t.reqs.drop s.reqs.length).filter fun q =>
    q.stage == .sent && !q.device && !(decide (3 ≤ paRegion q.pa) && decide (paRegion q.pa ≤ 5)) &&
      (match q.kind with | .load _ => true | _ => false)

/-- Word A ahead of the program: the copy, what is unknown then, and the loads found; none where the look ahead stops. A
transfer goes the way that is predicted for it, a free choice. -/
def aheadA (s : State) (unk : RegSet) (i : Instr) : Option (State × RegSet × List Req) :=
  let known := !(sources i).meets unk
  let lost : State × RegSet := (s, unk.union (dests i))
  if isPrefetch i then some (s, unk, [])
  else
    match predicted i with
    | some n =>
      let want := Config.choice s.tick % 2 = 0
      let p := s.c.p
      let t := run i (s.next.modC fun c => { c with p := if want != n then 0xFF#8 else 1#8 })
      if t.issue.flow.goesOn then some (t.modC fun c => { c with p := p }, unk.minus (dests i), []) else none
    | none =>
      if !known then (match i with
        | .jr _ => none
        | .callr _ => none
        | .ret => none
        | .loop _ _ _ => none
        | _ => some (lost.1, lost.2, []))
      else
        let t := run i s
        if t.issue.flow = .fall ∨ t.issue.flow.jumps then some (t, unk.minus (dests i), [])
        else if isLoad i then some (lost.1, lost.2, newLoads s t)
        else none

/-- Word B behind word A. -/
def aheadB (s tA : State) (unk unkA : RegSet) (j : Instr) : Option (State × RegSet) :=
  if (sources j).meets unk then some (tA, unkA.union (dests j))
  else
    let t := s.thenB tA (.ok j)
    if t.issue.flow.goesOn then some (t, unkA.minus (dests j)) else none

/-- The NX target of a unit is known, and a bundle address. -/
def aheadNx (s : State) (unk : RegSet) (u : IssueUnit) : Bool :=
  match s.nxTarget u with
  | none => true
  | some t => !((rJ 7).meets unk) && bits t 0 3 == 0

/-- One unit ahead. A loop's end and an indirect transfer with a known target are predicted the way that they will go; only a
conditional transfer's prediction is a free choice (R182; log entry 22). -/
def Ahead.unit (a : Ahead) : Option Ahead :=
  let s := { a.s with issue := Issue.reset }
  let s := if s.c.mid then s else s.modC fun c => { c with loopNext := loopDecision c c.pc }
  match s.fetch with
  | .stop _ => none
  | .words x y =>
    match s.prepare x y with
    | .stop _ => none
    | .unit s u =>
      match u.ia with
      | .error _ => none
      | .ok i =>
        if aheadStops i || u.clash || !aheadNx s a.unk u then none
        else
          let s := { s with issue := u.issue [] }
          match aheadA s a.unk i with
          | none => none
          | some (tA, unkA, qs) =>
            let both : Option (State × RegSet) := match u.ib with
              | none => some (tA, unkA)
              | some (.error _) => none
              | some (.ok j) => aheadB s tA a.unk unkA j
            match both with
            | none => none
            | some (t, unk) =>
              let pre := s.c
              let t' := t.modC fun c => c.advance pre (u.loopKept pre.loopNext) t.issue.flow (s.nxTarget u) u.nextSlot u.ahead true
              some ⟨t', unk, a.found ++ qs, if t'.c.mid then a.bundles else a.bundles + 1⟩

/-- Units ahead, up to 64 bundles. -/
def Ahead.go (a : Ahead) : Nat → Ahead
  | 0 => a
  | n + 1 =>
    if 64 ≤ a.bundles then a
    else
      match a.unit with
      | some b => b.go n
      | none => a

/-- The context waits for a load that has left its core. -/
def State.parkedOnLoad (s : State) (r : CtxRef) : Bool :=
  match (s.ctx r).wait with
  | .replies ids => s.reqs.any fun q => ids.contains q.id && q.stage != .done &&
      (match q.kind with | .load (.fetch _) => false | .load _ => true | _ => false)
  | _ => false

/-- A context whose stream may be followed: PARKED on a load, the one of its core that parked last, no gang (R183); or one
that issues, whose path may be mispredicted (R182). -/
def State.mayLook (s : State) (r : CtxRef) : Bool :=
  let c := s.ctx r
  !c.gang &&
    ((c.st == .parked && decide ((s.core r.site r.core).parked = r.ctx) && s.parkedOnLoad r) ||
      c.st == .running || c.st == .ready)

/-- Loads ahead of a context leave as prefetches: they use translations that hit, set nothing, raise nothing, and no context
waits for them. -/
def State.ahead (s : State) (r : CtxRef) : State :=
  if !s.mayLook r then s
  else
    let t := { s.modCtx r fun c => { c with st := .running, wait := .none } with cur := r, issue := Issue.reset }
    let a := (Ahead.mk t (s.ctx r).pend.regs [] 0).go 256
    let s := a.found.foldl (fun s q =>
      { s with
        reqs := s.reqs ++ [{ q with id := s.nextId, grp := s.nextId, kind := .load .ahead, orphan := true }]
        nextId := s.nextId + 1 }) s
    s.next

end Sys2Proof.Machine
end

