-- ==== Sys2Proof/Machine/Schedule.lean ====
section
/-! DEFINITION. What the machine does when nothing says which move comes next: the first internal event, in a fixed
order, that changes the state, else one unit of a context that owns its core (log entry 1). -/

namespace Sys2Proof.Machine

/-- The first of some events that changes the state. -/
def State.firstOf (s : State) : List (State → Result) → Option State
  | [] => none
  | f :: l =>
    let t := goOn s (f s)
    if t = s then State.firstOf s l else some t

/-- Events of a context. -/
def ctxEvents (r : CtxRef) : List (State → Result) :=
  [execEndContext r, execNpcountLimit r, execDictionaryLoadComplete r, execWatchNotify r, execMissRetry r,
    execEngineCountDown r, execPreemptionAccept r, execHaltSequence r, execResumption r]

/-- Events of a request, and the recall of the line it waits for. -/
def State.reqEvents (s : State) (q : Req) : List (State → Result) :=
  let back := match s.ownerOf (s.lineOf q.pa) with
    | some (site, core) => [execRecall site core (s.lineOf q.pa)]
    | none => []
  [execReplyArrival q.id, execWriteAcknowledged q.id, execFarAtomic q.id, execReductionApply q.id, execMissFill q.id,
    execSliceRequest q.id, execReductionPacketArrival q.id, execRetryTimerExpiry q.id, execExchangeApply q.id,
    execBuckleArrival q.id, execWindowExpiry q.id] ++ back

/-- Events of a core's engines and replay queue. -/
def coreEvents (site core : Nat) (k : Core) : List (State → Result) :=
  [execMma site core none, execMdist site core none, execTopk site core none, execAcz site core, execAcl site core,
    execEpi site core none, execOutputBufferDrain site core, execShadowSwapIn site core none] ++
    (List.range k.rq.length).map fun i => execReplayEntryIssue site core i

/-- Events of a die and its hub. -/
def State.dieEvents (s : State) (site : Nat) : List (State → Result) :=
  (List.range (s.die site).miss.length).map (fun i => execWalk site i) ++
    (List.range 8).map (fun g => execPhaseComplete site g) ++
    (List.range 4).flatMap (fun k =>
      [execNopEntry site k, execLaunchEntry site k, execSignalEntry site k, execQueueSwitchComplete site k,
        execRampupComplete site k, execRampdownComplete site k]) ++
    (List.range 16).map (fun r => execVoltageStep site r) ++
    (if s.throttled site then [] else [execThrottleStart site ⟨0, false, false⟩]) ++ [execDispatch site]

/-- Every internal event that may be enabled, in order: ends of contexts and answers first, dispatch late, bring-up
last. -/
def State.events (s : State) : List (State → Result) :=
  (s.liveCtxs.flatMap ctxEvents) ++ (s.reqs.flatMap s.reqEvents) ++
    (s.octets.flatMap fun e => [execSfuResult (e.1 / 32) (e.1 % 32), execSfuRequestStart (e.1 / 32) (e.1 % 32)]) ++
    (s.cores.flatMap fun e => coreEvents (e.1 / 256) (e.1 % 256) e.2) ++
    (s.mcasts.flatMap fun m => execMulticastBranch ⟨m.id, 0⟩ :: match m.msg with
      | .barrier g src => m.dests.map fun d => execBarrierPacket d g src) ++
    ((List.range s.nSites).flatMap s.dieEvents) ++
    (s.launches.flatMap fun l => [execBlockDeal l.lrec, execComplete l.lrec]) ++
    (s.hubs.flatMap fun e =>
      [execClockLock e.1, execLinkTrain e.1, execQuoteDone e.1, execCheckpointOpDone (s.siteOf e.1)])

/-- The first internal event that changes the state. -/
def State.internal (s : State) : Option State := s.firstOf s.events

/-- The contexts that own their cores, those after the one that issued last first. -/
def State.owners (s : State) : List CtxRef :=
  let l := s.liveCtxs.filter fun r => (s.ctx r).st = .running
  (l.filter fun r => decide (CtxRef.key s.cur < CtxRef.key r)) ++ l.filter fun r => decide (CtxRef.key r ≤ CtxRef.key s.cur)

/-- Core cycles in which a core issues nothing (R269, R380). -/
def State.idle (s : State) (site core : Nat) : State := (s.pass site core).next

/-- One move with nothing on the agenda; where nothing issues, time passes for a context within a section. -/
def State.free (s : State) : State :=
  match s.internal with
  | some t => t
  | none =>
    match s.owners with
    | r :: _ => s.issueOne r
    | [] =>
      match s.liveCtxs.find? fun r => (s.ctx r).npsec && (s.ctx r).st != .stopped && (s.ctx r).st != .preempted with
      | some r => s.idle r.site r.core
      | none => s

/-- One move of the agenda. -/
def State.move (s : State) : Move → Result
  | .event i => exec i s
  | .issue r => .next (s.issueOne r)
  | .ahead r => .next (s.ahead r)
  | .idle site core => .next (s.idle site core)
  | .corrected site field => .next (s.correctedError site field)
  | .hostStore pa data => .next (s.hostStores pa data)
  | .hostSnoop line => .next (s.hostSnoops line)
  | .conflict line => .next (s.biConflict line)

/-! ### Placing an instruction where the next step fetches it (log entry 2) -/

/-- The two words of a bundle as 8 bytes (R200). -/
def bundleBytes (w : W32 × W32) : List Byte := toBytes 4 w.1.toNat ++ toBytes 4 w.2.toNat

/-- A translation that the placed bundle uses: 4 KiB page of its address, global, readable, executable, in region 0x0 of
site 0 at the same offset. -/
def placedEntry (asid : BitVec 16) (pc : W64) : TlbEntry :=
  let page := pc.toNat / 4096 * 4096
  ⟨asid, page, 4096, BitVec.ofNat 64 (page % 68719476736) ||| 0xEB#64, true⟩

/-- A bundle stands in the instruction cache at the program counter of the context in issue, translated by its core's
TLB; the context owns its core, and issues next. -/
def State.placeBundle (s : State) (w : W32 × W32) : State :=
  let r := s.cur
  let pc := s.c.pc
  let e := placedEntry s.c.asid pc
  let pa := e.pa pc.toNat
  let s := { s with sites := if s.sites.isEmpty then [0] else s.sites }
  let line := s.lineOf pa
  let data := (patch (List.replicate 128 0) (runAt (pa % 128) (bundleBytes w)))
  let s := s.modCore r.site r.core fun k =>
    { k with
      owner := some r.ctx
      tlb := e :: k.tlb.filter fun x => !x.hits s.c.asid pc.toNat
      ic := ⟨line, data⟩ :: k.ic.filter fun l => l.line != line }
  let s := s.modCtx r fun c => { c with st := .running, slot := 0, mid := false }
  { s with agenda := [.issue r] }

end Sys2Proof.Machine
end

