-- ==== Sys2Proof/Machine/Step.lean ====
section
/-! DEFINITION. One step of the machine, and the state with an instruction placed where the next step fetches it. -/

namespace Sys2Proof.Machine

/-- One step: the first move of the agenda, else one move of the machine's own order. -/
def step (s : State) : Host.Outcome State Fault Refusal :=
  match s.agenda with
  | m :: rest => ({ s with agenda := rest } : State).move m
  | [] => .next s.free

/-- The state with a table word placed as the next bundle of the context in issue. -/
def State.withFetchWord (s : State) (nbits w : Nat) : State := if nbits = 32 then s.placeBundle (tableBundle w) else s

end Sys2Proof.Machine
end

