-- ==== Sys2Proof/Safety.lean ====
section
/-! DEFINITION. The vocabulary of the statements: what it is for an instruction to complete and what it leaves alone, taking an
exception, the memory invariant, and the real values of floating codes. Nothing of the machine refers to this file. -/

namespace Sys2Proof
namespace Machine

/-! ### Completion and frames -/

/-- `exec` answers a next state, of which `P` holds. -/
def Runs (i : Instr) (s : State) (P : State → Prop) : Prop := ∃ t, exec i s = .next t ∧ P t

/-- Outside the context in issue nothing has changed but what is named: the tick has advanced by `n` (random words drawn), and
control leaves the bundle by `f`. Every byte of memory reads as before. -/
def Kept (s t : State) (n : Nat) (f : Flow) : Prop :=
  t = { s with ctxs := t.ctxs, tick := s.tick + n, issue := { s.issue with flow := f } } ∧
    (∀ r, CtxRef.key r ≠ CtxRef.key s.cur → t.ctx r = s.ctx r) ∧ ∀ a, t.byte a = s.byte a

/-- The instruction changes nothing but the context in issue, which becomes `c`; control goes on. -/
def GivesC (i : Instr) (s : State) (c : Ctx) : Prop := Runs i s fun t => t.c = c ∧ Kept s t 0 s.issue.flow

/-- The instruction changes the context in issue to `c` and sends control where `f` says; nothing else changes. -/
def GivesF (i : Instr) (s : State) (c : Ctx) (f : Flow) : Prop := Runs i s fun t => t.c = c ∧ Kept s t 0 f

/-- Of the context in issue only general register `d` may have changed. -/
def OnlyG (s t : State) (d : BitVec 5) : Prop :=
  t.c = { s.c with g := t.c.g } ∧ ∀ a, a ≠ d → t.g a = s.g a

/-- The instruction writes `v` to general register `d` (g0 goes on reading 0), draws `n` random words, and changes nothing
else. -/
def DrawsG (i : Instr) (s : State) (d : BitVec 5) (n : Nat) (v : W64) : Prop :=
  Runs i s fun t => t.g d = (if d = 0 then 0 else v) ∧ OnlyG s t d ∧ Kept s t n s.issue.flow

/-- The instruction writes `v` to general register `d` (g0 goes on reading 0) and changes nothing else. -/
def GivesG (i : Instr) (s : State) (d : BitVec 5) (v : W64) : Prop := DrawsG i s d 0 v

/-- The instruction writes `b` to predicate `d` (p0 goes on reading 1) and changes nothing else. -/
def GivesP (i : Instr) (s : State) (d : BitVec 3) (b : Bool) : Prop :=
  Runs i s fun t => t.p d = (if d = 0 then true else b) ∧ t.c = { s.c with p := t.c.p } ∧
    (∀ a, a ≠ d → t.p a = s.p a) ∧ Kept s t 0 s.issue.flow

/-- The instruction writes to general register `d` the word whose bit `j` is `f j` (g0 goes on reading 0) and changes nothing
else. -/
def GivesBits (i : Instr) (s : State) (d : BitVec 5) (f : Nat → Bool) : Prop :=
  Runs i s fun t => (∀ j, j < 64 → (t.g d).getLsbD j = (decide (d ≠ 0) && f j)) ∧ OnlyG s t d ∧ Kept s t 0 s.issue.flow

/-- The instruction leaves the whole state as it was. -/
def GivesNothing (i : Instr) (s : State) : Prop := exec i s = .next s

/-! ### Vector results -/

/-- The checks that every vector instruction of word B makes first all pass: a claim, and with a gang offset a gang whose
source member has the same claim (R185, R190, R303). -/
def VectorOk (s : State) (g : BitVec 2) : Prop :=
  s.c.claim ≠ 0 ∧ (g ≠ 0 → s.c.gang = true ∧ (s.member ((qpos s.cur + g.toNat) % 4)).claim = s.c.claim)

/-- The instruction makes `x` the contents of vector register `v`, draws `n` random words, and changes nothing else. -/
def DrawsV (i : Instr) (s : State) (v : BitVec 4) (n : Nat) (x : Nat → W32) : Prop :=
  Runs i s fun t => (t.c.rv v).length = s.c.vl ∧ (∀ j, j < s.c.vl → lane (t.c.rv v) j = x j) ∧
    t.c = { s.c with v := t.c.v } ∧ (∀ u, u ≠ v → t.c.rv u = s.c.rv u) ∧ Kept s t n s.issue.flow

/-- Lane `j` of vector register `v` becomes `f j` where the mask makes it active and stays as it was elsewhere. -/
def GivesV (i : Instr) (s : State) (v : BitVec 4) (k : BitVec 2) (f : Nat → W32) : Prop :=
  DrawsV i s v 0 fun j => if s.c.active k j then f j else lane (s.c.rv v) j

/-- The instruction makes the bits of mask register `d` below VL those of `f`, and changes nothing else. -/
def GivesM (i : Instr) (s : State) (d : BitVec 2) (f : Nat → Bool) : Prop :=
  Runs i s fun t => (t.c.rm d).length = s.c.vl ∧ (∀ j, j < s.c.vl → mbit (t.c.rm d) j = f j) ∧
    t.c = { s.c with m := t.c.m } ∧ (∀ u, u ≠ d → t.c.rm u = s.c.rm u) ∧ Kept s t 0 s.issue.flow

/-- The vector instructions that check their claim (all but `vlen`), each with its gang offset, 0 where it has none. -/
def vectorOffset : Instr → Option (BitVec 2)
  | .vadd _ _ _ _ g _ => some g
  | .vsub _ _ _ _ g _ => some g
  | .vaddSat _ _ _ _ g _ => some g
  | .vsubSat _ _ _ _ g _ => some g
  | .vadduSat _ _ _ _ g _ => some g
  | .vsubuSat _ _ _ _ g _ => some g
  | .vneg _ _ _ => some 0
  | .vand _ _ _ _ g _ => some g
  | .vor _ _ _ _ g _ => some g
  | .vxor _ _ _ _ g _ => some g
  | .vandn _ _ _ _ g _ => some g
  | .vnot _ _ _ => some 0
  | .vshl _ _ _ _ g _ => some g
  | .vshr _ _ _ _ g _ => some g
  | .vsra _ _ _ _ g _ => some g
  | .vmul _ _ _ _ g _ => some g
  | .vmulh _ _ _ _ g _ => some g
  | .vmulhu _ _ _ _ g _ => some g
  | .vmla _ _ _ _ g _ => some g
  | .vsmin _ _ _ _ g _ => some g
  | .vsmax _ _ _ _ g _ => some g
  | .vumin _ _ _ _ g _ => some g
  | .vumax _ _ _ _ g _ => some g
  | .vabs _ _ _ => some 0
  | .vcmp _ _ _ _ g _ _ => some g
  | .vfadd _ _ _ _ _ g _ _ => some g
  | .vfsub _ _ _ _ _ g _ _ => some g
  | .vfmul _ _ _ _ _ g _ _ => some g
  | .vfmin _ _ _ _ _ g _ => some g
  | .vfmax _ _ _ _ _ g _ => some g
  | .vfma _ _ _ _ _ _ g _ => some g
  | .vfms _ _ _ _ _ _ g _ => some g
  | .vfcmp _ _ _ _ g _ _ _ => some g
  | .vsel _ _ _ _ g _ => some g
  | .vmov _ _ _ g _ => some g
  | .mand _ _ _ => some 0
  | .mor _ _ _ => some 0
  | .mxor _ _ _ => some 0
  | .mandn _ _ _ => some 0
  | .mnot _ _ => some 0
  | .mall _ => some 0
  | .mnone _ => some 0
  | .mmov _ _ => some 0
  | .vbcast _ _ _ _ => some 0
  | .vins _ _ _ => some 0
  | .vext _ _ _ g _ => some g
  | .mrd _ _ _ _ => some 0
  | .mwr _ _ _ _ => some 0
  | .mpopc _ _ _ => some 0
  | .vcvtSW _ _ _ _ => some 0
  | .vcvtWS _ _ _ _ => some 0
  | .vcvtBfS _ _ _ _ _ => some 0
  | .vcvtSBf _ _ _ _ => some 0
  | .vcvtHS _ _ _ _ _ => some 0
  | .vcvtSH _ _ _ _ => some 0
  | .vcvtES _ _ _ _ _ _ => some 0
  | .vcvtSE _ _ _ _ _ => some 0
  | .vcvtBW _ _ _ _ => some 0
  | .vcvtWB _ _ _ _ => some 0
  | .vcvtDS _ _ _ => some 0
  | .vcvtSD _ _ _ _ => some 0
  | .vred _ _ _ _ => some 0
  | .vperm _ _ _ _ g _ => some g
  | .vpermB _ _ _ _ g _ => some g
  | .vcompress _ _ _ => some 0
  | .vld _ _ _ _ => some 0
  | .vldS _ _ _ _ => some 0
  | .vldBc _ _ _ _ => some 0
  | .vldG _ _ _ _ => some 0
  | .vst _ _ _ _ => some 0
  | .vstS _ _ _ _ => some 0
  | .vstG _ _ _ _ => some 0
  | _ => none

/-! ### Taking an exception -/

/-- The context in issue has taken synchronous cause `code` with TVAL `v` (R372): TRAPPC holds the bundle's address and slot,
TSTAT the mode before and INTRAP, TCAUSE and TVAL the cause, the mode is system, and the next bundle is that at TVEC; nothing
else of it, and nothing else of the machine, has changed. -/
def Trapped (s t : State) (code : Nat) (v : W64) : Prop :=
  t.c = { s.c with
    trappc := putBits s.c.pc 0 3 s.c.slot.toNat, tstat := (if s.c.sys then 3#64 else 2#64),
    tcause := BitVec.ofNat 64 code, tval := v, sys := true, pc := putBits s.c.tvec 0 3 0, slot := 0, mid := false,
    walkFault := none, fired := none, handler := true, redo := false, ahead := none } ∧ Kept s t 0 .trapped

/-- No store that the context parked within a handler is left behind (R131). -/
def NoneParked (s : State) (r : CtxRef) : Prop :=
  ∀ e ∈ (s.core r.site r.core).rq ++ (s.core r.site r.core).stw, e.ctx = r.ctx → e.inTrap = false

/-- The context in issue may take a synchronous cause that the hub does not log: it is in use, no trap is being handled, TQCTL
asks for no record, and no store of a handler is left parked. -/
def MayTrap (s : State) : Prop :=
  s.c.st ≠ .free ∧ s.c.inTrap = false ∧ bits (s.die s.cur.site).tqctl 0 3 = 0 ∧ NoneParked s s.cur

/-- The instruction takes synchronous cause `code` with TVAL `v`. -/
def Traps (i : Instr) (s : State) (code : Nat) (v : W64) : Prop := Runs i s fun t => Trapped s t code v

/-- A source name is valid (R255): it names the issuing die, a valid rectangle, and offsets within it. -/
def ValidName (s : State) (n : W64) : Prop :=
  let e := s.rect s.cur.site (bits n 6 4)
  bits n 0 6 = s.cur.site ∧ bit e 16 = true ∧ bits n 10 4 ≤ bits e 8 4 ∧ bits n 14 4 ≤ bits e 12 4

/-! ### Invariants -/

/-- The canonical form of memory: addresses strictly rising, no byte listed that an unlisted address reads as. -/
def State.Inv (s : State) : Prop := Memory.wf s.mem = true

/-! ### Memory accesses -/

/-- Address `va` names bytes [off, off + n) of the issuing core's own local memory by its aperture and window code `c` (R9), at a
multiple of `n`; through a format only task space is named (R18); no bank there is gated (R68); and the context may make the
access: in system mode, or to task space that it holds, for a write exclusively (R73). -/
def OwnLocal (s : State) (va : W64) (off n c : Nat) (write : Bool) : Prop :=
  s.cur.site < 64 ∧ s.cur.core < 256 ∧ off + n ≤ 524288 ∧ off % n = 0 ∧ c < 6 ∧ va = BitVec.ofNat 64 (0xFFFFFFFFFFC00000 + 524288 * c + off) ∧
    (c ≠ 0 → 0x16000 ≤ off) ∧
    (∀ b ∈ banksOf off n, (s.core s.cur.site s.cur.core).gated.getLsbD b = false) ∧
    (s.c.sys = true ∨ (0x16000 ≤ off ∧ (s.core s.cur.site s.cur.core).covers (holderOf s.cur) write off n = true))

/-- The physical address of an offset of the issuing core's local memory. -/
def ownPa (s : State) (off : Nat) : Nat := lmemPa s.cur.site s.cur.core off

/-- What the die's TLBs hold for an address, if anything, stands in the core's own TLB, marked as used: to translate it moves
nothing (R38, R39). -/
def Warm (s : State) (va : W64) : Prop :=
  ∀ e ∈ s.tlbFind s.cur.site s.cur.core s.c.asid va.toNat,
    e ∈ (s.core s.cur.site s.cur.core).tlb ∧ e.used = true

/-- Address `va` passes the checks of R275 and names byte `pa` of a cacheable page with the leaf given; the core's own TLB
translates it, no parked or waiting store of the context concerns its page, and the core's queue has room for a request. -/
def GlobalOk (s : State) (a : Access) (va : W64) (pa : Nat) (leaf : W64) : Prop :=
  (∃ size, s.check s.cur a va = .ok (.mem pa leaf size)) ∧ cacheable leaf pa = true ∧ s.noReg pa = false ∧
    s.pageParked s.cur va = false ∧ s.pageWalking s.cur va = false ∧ Warm s va ∧
    s.injFull s.cur (s.homeOf pa leaf) = false

/-- Address `va` passes the checks of R275 for access `a` and names byte `pa` of a page with the leaf and size given, on which a
register lies if it is a register page; the core's own TLB translates it, and no parked or waiting store concerns its page. -/
def AddressOk (s : State) (a : Access) (va : W64) (pa : Nat) (leaf : W64) (size : Nat) : Prop :=
  s.check s.cur a va = .ok (.mem pa leaf size) ∧ s.noReg pa = false ∧ debugBad pa a.size = false ∧
    s.pageParked s.cur va = false ∧ s.pageWalking s.cur va = false ∧ Warm s va

/-- The context in issue has parked for the answer of the request made last, which is `q`; its bundle counts as issued, and of its
registers none has changed. -/
def ParksFor (s t : State) (q : Req) (pend : RegSet) : Prop :=
  t.reqs.getLast? = some q ∧ q.who = s.cur ∧
    t.c = { s.c with st := .parked, wait := .replies [q.id], pend := s.c.pend.add pend } ∧ t.issue.flow = .park

/-- The context in issue has become WAITING for `w`; its bundle executes again later, and memory is as before. -/
def WaitsFor (s t : State) (w : Wait) : Prop :=
  t.c = { s.c with st := .waiting, wait := w } ∧ t.issue.flow = .again ∧ ∀ a, t.byte a = s.byte a

/-- No line of the die's cache is UNBOUND: a fence of module or system scope finds nothing to invalidate. -/
def NoUnbound (s : State) : Prop := ∀ l ∈ (s.die s.cur.site).rdc, l.tag ≠ none

/-- The bytes from `pa` on are those given, and every address that names none of them reads as before. -/
def StoredAt (s t : State) (pa : Nat) (bs : List Byte) : Prop :=
  (∀ i, i < bs.length → t.byte (pa + i) = bs.getD i 0) ∧
    ∀ x, (∀ i, i < bs.length → s.canon x ≠ s.canon (pa + i)) → t.byte x = s.byte x

/-- Outside memory, what watches it, and the context in issue, nothing has changed but the tick, which has advanced by `n`. -/
def KeptButMemory (s t : State) (n : Nat) : Prop :=
  t = { s with ctxs := t.ctxs, mem := t.mem, watches := t.watches, tick := s.tick + n } ∧
    ∀ r, CtxRef.key r ≠ CtxRef.key s.cur → t.ctx r = s.ctx r

/-- The instruction stores bytes from `pa` on, draws `n` random words, and changes nothing else. -/
def Stores (i : Instr) (s : State) (pa : Nat) (bs : List Byte) (n : Nat) : Prop :=
  Runs i s fun t => StoredAt s t pa bs ∧ t.c = s.c ∧ KeptButMemory s t n

/-- Signed or unsigned extension of a loaded number (R277). -/
def loaded (m : LdMode) (x : Nat) : W64 :=
  match m with
  | .b => (BitVec.ofNat 8 x).signExtend 64
  | .h => (BitVec.ofNat 16 x).signExtend 64
  | .w => (BitVec.ofNat 32 x).signExtend 64
  | .d => BitVec.ofNat 64 x
  | .bu => BitVec.ofNat 64 x
  | .hu => BitVec.ofNat 64 x
  | .wu => BitVec.ofNat 64 x

/-- Bytes that a load moves (R277). -/
def loadedBytes : LdMode → Nat
  | .b => 1 | .bu => 1 | .h => 2 | .hu => 2 | .w => 4 | .wu => 4 | .d => 8

/-- Bytes that a store moves (R281). -/
def storedBytes : StSize → Nat
  | .b => 1 | .h => 2 | .w => 4 | .d => 8

/-- ga + sext(OFF) × size (R277). -/
def offAddr (s : State) (a : BitVec 5) (o : BitVec 11) (size : Nat) : W64 :=
  BitVec.ofInt 64 ((s.g a).toInt + o.toInt * size)

/-- Every active lane of a vector access names a word of the issuing core's own RAW local memory, at offset `off j` for lane `j`;
some lane is active, nothing of the context is parked or walking, and no shared translation covers the addresses. -/
def LocalLanes (s : State) (k : BitVec 2) (base : W64) (addr : Nat → W64) (off : Nat → Nat) (write : Bool) : Prop :=
  VectorOk s 0 ∧ base.toNat / 524288 = 0xFFFFFFFFFFC00000 / 524288 ∧ (∃ j, j < s.c.vl ∧ s.c.active k j = true) ∧
    (∀ j, j < s.c.vl → s.c.active k j = true → OwnLocal s (addr j) (off j) 4 0 write) ∧
    (s.core s.cur.site s.cur.core).rq = [] ∧ (s.core s.cur.site s.cur.core).stw = [] ∧ s.c.ocl ≠ 255 ∧ s.c.ocs ≠ 255 ∧
    ∀ j, j < s.c.vl → s.c.active k j = true → s.tlbFind s.cur.site s.cur.core s.c.asid (addr j).toNat = none

/-- The value that an atomic stores over `old` with operand `v`, on 32 or 64 bits (R140). -/
def atomResult (o : AmoOp) (dbl : Bool) (old v : Nat) : Nat :=
  let n := if dbl then 64 else 32
  let f := if dbl then Fmt.fp64 else Fmt.fp32
  let x := BitVec.ofNat n old
  let y := BitVec.ofNat n v
  match o with
  | .swap => y.toNat
  | .add => (x + y).toNat
  | .and => (x &&& y).toNat
  | .or => (x ||| y).toNat
  | .xor => (x ^^^ y).toNat
  | .smin => (BitVec.ofInt n (min x.toInt y.toInt)).toNat
  | .smax => (BitVec.ofInt n (max x.toInt y.toInt)).toNat
  | .umin => min x.toNat y.toNat
  | .umax => max x.toNat y.toNat
  | .fadd => f.round .ne 0 (Fp.add .ne (f.decode x.toNat) (f.decode y.toNat))
  | .fmin => f.fmin x.toNat y.toNat
  | .fmax => f.fmax x.toNat y.toNat

/-- The release part of an ordering suffix has nothing to wait for: there is none, or every earlier access of the context is
performed and the word is no bound object (R106, R112). -/
def ReleaseReady (s : State) (va : W64) (r : AmoOrd) : Prop :=
  AmoOrd.releases r = none ∨
    (s.drained s.cur = true ∧ (va.toNat % 128 < 8 → s.bindSlot s.cur.site s.c.asid va (some s.cur) = (s, .unbound)))

/-! ### Events -/

/-- Of the machine only context `r` has changed: it has become `c`. -/
def OnlyCtx (s t : State) (r : CtxRef) (c : Ctx) : Prop :=
  t = { s with ctxs := t.ctxs } ∧ t.ctx r = c ∧ ∀ q, CtxRef.key q ≠ CtxRef.key r → t.ctx q = s.ctx q

/-- Of the machine only the die of a site has changed: it has become `d`. -/
def OnlyDie (s t : State) (site : Nat) (d : Die) : Prop :=
  t = { s with dies := t.dies } ∧ t.die site = d ∧ ∀ k, k ≠ site → t.die k = s.die k

/-- Of the machine only a hub has changed: it has become `u`. -/
def OnlyHub (s t : State) (h : Nat) (u : Hub) : Prop :=
  t = { s with hubs := t.hubs } ∧ t.hub h = u ∧ ∀ k, k ≠ h → t.hub k = s.hub k

/-- Of the machine only one hub register has changed: it holds `v`. -/
def OnlyReg (s t : State) (h off : Nat) (v : W64) : Prop :=
  t = { s with hubs := t.hubs } ∧ t.hreg h off = v ∧ (∀ o, o ≠ off → t.hreg h o = s.hreg h o) ∧
    t.hub h = { s.hub h with regs := (t.hub h).regs } ∧ ∀ k, k ≠ h → t.hub k = s.hub k

/-- The host holds no line of the module's memory: no home has to ask one back (R139). -/
def HostFree (s : State) : Prop := ∀ l ∈ s.l2, l.host = false

/-- The home can make every one of these lines ready at once: neither the host nor a core holds it (R139, R146). -/
def State.Ready (s : State) (lines : List Nat) : Prop := ∀ x ∈ lines, s.hostHolds x = false ∧ s.ownerOf x = none

/-- No containment group is in a logged interval: a write at a home leaves no undo record (R387). -/
def State.Unlogged (s : State) : Prop := ∀ g, (Table.get (⟨0, false⟩ : CkGroup) s.groups g).st ≠ 1

/-- No host and no core holds a line: a home makes a line ready by doing nothing (R139, R146). -/
def AtHome (s : State) : Prop := HostFree s ∧ ∀ e ∈ s.cores, e.2.owned = []

/-- No context and no byte of memory has changed. -/
def Aside (s t : State) : Prop := t.ctxs = s.ctxs ∧ t.mem = s.mem

/-- A context number and a core number within a core and a die. -/
def RealCtx (r : CtxRef) : Prop := r.ctx < 4 ∧ r.core < 256

end Machine

/-! ### Exact values -/

/-- The rational value of a finite exact value: ± m / d × 2^e. -/
def Fp.val (s : Bool) (m d : Nat) (e : Int) : ℚ := (if s then -1 else 1) * ((m : ℚ) / d) * 2 ^ e

/-- A code is a finite number of its format, of this value. -/
def Fmt.HasVal (f : Fmt) (c : Nat) (q : ℚ) : Prop :=
  ∃ s m d e, f.decode c = .fin s m d e ∧ q = Fp.val s m d e

/-- The six floating formats (R43). -/
def formats : List Fmt := [Fmt.e4m3, Fmt.e5m2, Fmt.bf16, Fmt.fp16, Fmt.fp32, Fmt.fp64]

end Sys2Proof
end

