-- ==== Sys2Proof/Certificates/Slice0/Obligations.lean ====
section
/-! DEFINITION. The statements about the model. Each says in its own words what the rules of the spec that it names say; the
vocabulary is that of Safety.lean. -/

open Sys2Proof Sys2Proof.Machine

/-! ### Integer instructions (R239 to R246) -/

/-- R241: the words of major opcode 0x01; sums and differences wrap, clamp or work on 32 bits; the magnitude of the least integer is
itself. -/
def Obligations.IntegerArithmeticResults : Prop :=
  (∀ w : W32, fld w 24 6 = 0x01 →
    let d := fld w 19 5
    let a := fld w 14 5
    let b := fld w 9 5
    (fld w 0 9 = 0 → decodeB w = .ok (.add d a b)) ∧ (fld w 0 9 = 1 → decodeB w = .ok (.sub d a b)) ∧
    (fld w 0 9 = 2 → decodeB w = if b = 0 then .ok (.neg d a) else .error (.illegalWord w)) ∧
    (fld w 0 9 = 3 → decodeB w = if b = 0 then .ok (.abs d a) else .error (.illegalWord w)) ∧
    (fld w 0 9 = 4 → decodeB w = .ok (.addW d a b)) ∧ (fld w 0 9 = 5 → decodeB w = .ok (.subW d a b)) ∧
    (fld w 0 9 = 6 → decodeB w = .ok (.addSat d a b)) ∧ (fld w 0 9 = 7 → decodeB w = .ok (.subSat d a b))) ∧
  ∀ (s : State) (d a b : BitVec 5),
    GivesG (.add d a b) s d (BitVec.ofNat 64 ((s.g a).toNat + (s.g b).toNat)) ∧
    GivesG (.sub d a b) s d (BitVec.ofInt 64 ((s.g a).toInt - (s.g b).toInt)) ∧
    GivesG (.neg d a) s d (BitVec.ofInt 64 (-(s.g a).toInt)) ∧
    GivesG (.abs d a) s d (BitVec.ofNat 64 (s.g a).toInt.natAbs) ∧
    GivesG (.addW d a b) s d ((BitVec.ofNat 32 ((s.g a).toNat + (s.g b).toNat)).signExtend 64) ∧
    GivesG (.subW d a b) s d ((BitVec.ofInt 32 ((s.g a).toNat - (s.g b).toNat : Int)).signExtend 64) ∧
    GivesG (.addSat d a b) s d (BitVec.ofInt 64 (max (-2 ^ 63) (min (2 ^ 63 - 1) ((s.g a).toInt + (s.g b).toInt)))) ∧
    GivesG (.subSat d a b) s d (BitVec.ofInt 64 (max (-2 ^ 63) (min (2 ^ 63 - 1) ((s.g a).toInt - (s.g b).toInt))))

/-- R242: logic bit by bit, shifts and rotates by the low six (or five) bits of gb, as each result bit comes from a bit of
ga. -/
def Obligations.LogicAndShiftResults : Prop :=
  ∀ (s : State) (d a b : BitVec 5),
    let x := fun j => (s.g a).getLsbD j
    let y := fun j => (s.g b).getLsbD j
    let n := (s.g b).toNat % 64
    let m := (s.g b).toNat % 32
    GivesBits (.and d a b) s d (fun j => x j && y j) ∧ GivesBits (.or d a b) s d (fun j => x j || y j) ∧
    GivesBits (.xor d a b) s d (fun j => x j != y j) ∧ GivesBits (.andn d a b) s d (fun j => x j && !y j) ∧
    GivesBits (.orn d a b) s d (fun j => x j || !y j) ∧ GivesBits (.xnor d a b) s d (fun j => x j == y j) ∧
    GivesBits (.not d a) s d (fun j => !x j) ∧
    GivesBits (.shl d a b) s d (fun j => decide (n ≤ j) && x (j - n)) ∧
    GivesBits (.shr d a b) s d (fun j => x (j + n)) ∧
    GivesBits (.sra d a b) s d (fun j => x (min (j + n) 63)) ∧
    GivesBits (.rol d a b) s d (fun j => x ((j + 64 - n) % 64)) ∧
    GivesBits (.ror d a b) s d (fun j => x ((j + n) % 64)) ∧
    GivesBits (.shlW d a b) s d (fun j => decide (m ≤ min j 31) && x (min j 31 - m)) ∧
    GivesBits (.shrW d a b) s d (fun j => decide (min j 31 + m < 32) && x (min j 31 + m)) ∧
    GivesBits (.sraW d a b) s d (fun j => x (min (min j 31 + m) 31))

/-- R243 and R244: the words of major opcodes 0x04 and 0x05; the halves of the product; quotients round toward zero, remainders take
the dividend's sign, and the borderline cases give what the table says. -/
def Obligations.MultiplyAndDivideResults : Prop :=
  (∀ w : W32,
    let d := fld w 19 5
    let a := fld w 14 5
    let b := fld w 9 5
    let means := fun (j : BitVec 6) (k : BitVec 9) (i : Instr) => fld w 24 6 = j → fld w 0 9 = k → decodeB w = .ok i
    means 0x04 0 (.mul d a b) ∧ means 0x04 1 (.mulh d a b) ∧ means 0x04 2 (.mulhu d a b) ∧ means 0x04 3 (.mulW d a b) ∧
    means 0x05 0 (.div d a b) ∧ means 0x05 1 (.divu d a b) ∧ means 0x05 2 (.rem d a b) ∧ means 0x05 3 (.remu d a b) ∧
    means 0x05 4 (.divW d a b) ∧ means 0x05 5 (.divuW d a b) ∧ means 0x05 6 (.remW d a b) ∧ means 0x05 7 (.remuW d a b)) ∧
  ∀ (s : State) (d a b : BitVec 5),
    let x := s.g a
    let y := s.g b
    let u := (x.setWidth 32 : W32)
    let v := (y.setWidth 32 : W32)
    GivesG (.mul d a b) s d (BitVec.ofInt 64 (x.toInt * y.toInt)) ∧
    GivesG (.mulh d a b) s d (BitVec.ofInt 64 (x.toInt * y.toInt / 2 ^ 64)) ∧
    GivesG (.mulhu d a b) s d (BitVec.ofNat 64 (x.toNat * y.toNat / 2 ^ 64)) ∧
    GivesG (.mulW d a b) s d ((BitVec.ofInt 32 (x.toInt * y.toInt)).signExtend 64) ∧
    GivesG (.div d a b) s d (if y = 0 then BitVec.ofInt 64 (-1) else BitVec.ofInt 64 (x.toInt.tdiv y.toInt)) ∧
    GivesG (.divu d a b) s d (if y = 0 then BitVec.ofNat 64 (2 ^ 64 - 1) else BitVec.ofNat 64 (x.toNat / y.toNat)) ∧
    GivesG (.rem d a b) s d (if y = 0 then x else BitVec.ofInt 64 (x.toInt.tmod y.toInt)) ∧
    GivesG (.remu d a b) s d (if y = 0 then x else BitVec.ofNat 64 (x.toNat % y.toNat)) ∧
    GivesG (.divW d a b) s d
      (if v = 0 then BitVec.ofInt 64 (-1) else (BitVec.ofInt 32 (u.toInt.tdiv v.toInt)).signExtend 64) ∧
    GivesG (.divuW d a b) s d
      (if v = 0 then BitVec.ofInt 64 (-1) else (BitVec.ofNat 32 (u.toNat / v.toNat)).signExtend 64) ∧
    GivesG (.remW d a b) s d
      (if v = 0 then u.signExtend 64 else (BitVec.ofInt 32 (u.toInt.tmod v.toInt)).signExtend 64) ∧
    GivesG (.remuW d a b) s d
      (if v = 0 then u.signExtend 64 else (BitVec.ofNat 32 (u.toNat % v.toNat)).signExtend 64)

/-- R245: selection, minima and maxima, counts of bits, and the field instructions with the effective width of their operand. R246 and
R254: the immediate forms of word B, and the immediate instructions of word A. -/
def Obligations.SelectFieldAndImmediateResults : Prop :=
  (∀ (s : State) (d a b : BitVec 5) (n : BitVec 3),
    let x := s.g a
    let y := s.g b
    let pos := y.toNat % 64
    let wid := min (y.toNat / 256 % 128) (64 - pos)
    GivesG (.sel d a b n) s d (if s.p n = true then x else y) ∧
    GivesG (.smin d a b) s d (BitVec.ofInt 64 (min x.toInt y.toInt)) ∧
    GivesG (.smax d a b) s d (BitVec.ofInt 64 (max x.toInt y.toInt)) ∧
    GivesG (.umin d a b) s d (BitVec.ofNat 64 (min x.toNat y.toNat)) ∧
    GivesG (.umax d a b) s d (BitVec.ofNat 64 (max x.toNat y.toNat)) ∧
    GivesG (.popc d a) s d (BitVec.ofNat 64 ((List.range 64).countP fun j => x.getLsbD j)) ∧
    (∀ c, c ≤ 64 → (∀ j, 64 - c ≤ j → x.getLsbD j = false) → (c < 64 → x.getLsbD (63 - c) = true) →
      GivesG (.clz d a) s d (BitVec.ofNat 64 c)) ∧
    (∀ c, c ≤ 64 → (∀ j, j < c → x.getLsbD j = false) → (c < 64 → x.getLsbD c = true) →
      GivesG (.ctz d a) s d (BitVec.ofNat 64 c)) ∧
    GivesBits (.ext d a b) s d (fun j => decide (j < wid) && x.getLsbD (pos + j)) ∧
    GivesBits (.exts d a b) s d (fun j => decide (wid ≠ 0) && x.getLsbD (pos + min j (wid - 1))) ∧
    GivesBits (.ins d a b) s d (fun j =>
      if pos ≤ j ∧ j < pos + wid then x.getLsbD (j - pos) else (s.g d).getLsbD j)) ∧
  (∀ (s : State) (d a : BitVec 5) (i : BitVec 14) (j : BitVec 11) (n : BitVec 6) (l : BitVec 19) (c : BitVec 2) (v : BitVec 16),
    let x := fun k => (s.g a).getLsbD k
    let m := fun k => j.getLsbD (min k 10)
    GivesG (.addi d a i) s d (BitVec.ofInt 64 ((s.g a).toInt + i.toInt)) ∧
    GivesG (.adda d a i) s d (BitVec.ofInt 64 ((s.g a).toInt + i.toInt)) ∧
    GivesG (.movi d l) s d (BitVec.ofInt 64 l.toInt) ∧
    GivesBits (.movk d c v) s d (fun k => if k / 16 = c.toNat then v.getLsbD (k % 16) else (s.g d).getLsbD k) ∧
    GivesBits (.andi d a j) s d (fun k => x k && m k) ∧
    GivesBits (.ori d a j) s d (fun k => x k || m k) ∧
    GivesBits (.xori d a j) s d (fun k => x k != m k) ∧
    GivesBits (.shli d a n) s d (fun k => decide (n.toNat ≤ k) && x (k - n.toNat)) ∧
    GivesBits (.shri d a n) s d (fun k => x (k + n.toNat)) ∧
    GivesBits (.srai d a n) s d (fun k => x (min (k + n.toNat) 63)) ∧
    GivesBits (.rori d a n) s d (fun k => x ((k + n.toNat) % 64)))

/-! ### Compares and predicates (R247, R248, R252) -/

/-- R247 and R248: a compare's predicate, predicate logic, and moving all predicates at once; p0 stays 1. -/
def Obligations.CompareAndPredicateResults : Prop :=
  ∀ (s : State) (p q r : BitVec 3) (d a b : BitVec 5) (i : BitVec 11),
    let x := s.g a
    let y := s.g b
    let z := (i.signExtend 64 : W64)
    (GivesP (.cmp p a b .eq) s p (decide (x = y)) ∧ GivesP (.cmp p a b .ne) s p (decide (x ≠ y)) ∧
      GivesP (.cmp p a b .lt) s p (decide (x.toInt < y.toInt)) ∧ GivesP (.cmp p a b .ge) s p (decide (y.toInt ≤ x.toInt)) ∧
      GivesP (.cmp p a b .ltu) s p (decide (x.toNat < y.toNat)) ∧
      GivesP (.cmp p a b .geu) s p (decide (y.toNat ≤ x.toNat))) ∧
    (GivesP (.cmpi p a .eq i) s p (decide (x = z)) ∧ GivesP (.cmpi p a .ne i) s p (decide (x ≠ z)) ∧
      GivesP (.cmpi p a .lt i) s p (decide (x.toInt < i.toInt)) ∧ GivesP (.cmpi p a .ge i) s p (decide (i.toInt ≤ x.toInt)) ∧
      GivesP (.cmpi p a .ltu i) s p (decide (x.toNat < z.toNat)) ∧
      GivesP (.cmpi p a .geu i) s p (decide (z.toNat ≤ x.toNat))) ∧
    GivesP (.pand p q r) s p (s.p q && s.p r) ∧ GivesP (.por p q r) s p (s.p q || s.p r) ∧
    GivesP (.pxor p q r) s p (s.p q != s.p r) ∧ GivesP (.pandn p q r) s p (s.p q && !s.p r) ∧
    GivesP (.pnot p q) s p (!s.p q) ∧ GivesP (.ptest p a) s p (decide (x ≠ 0)) ∧
    GivesBits (.pread d) s d (fun j => decide (j < 8) && s.p (BitVec.ofNat 3 j)) ∧
    Runs (.pwrite a) s (fun t => (∀ n : BitVec 3, t.p n = (decide (n = 0) || x.getLsbD n.toNat)) ∧
      t.c = { s.c with p := t.c.p } ∧ Kept s t 0 s.issue.flow)

/-! ### Scalar floating point (R249 to R253) -/

/-- R48: sums, products and quotients are formed exactly before they are rounded. -/
def Obligations.ExactSumProductQuotient : Prop :=
  ∀ (md : Rm) (s t : Bool) (m d n q : Nat) (e f : Int), 0 < d → 0 < q →
    (∃ r k u g, Fp.add md (.fin s m d e) (.fin t n q f) = .fin r k u g ∧ 0 < u ∧
      Fp.val r k u g = Fp.val s m d e + Fp.val t n q f) ∧
    (∃ r k u g, Fp.mul (.fin s m d e) (.fin t n q f) = .fin r k u g ∧ 0 < u ∧
      Fp.val r k u g = Fp.val s m d e * Fp.val t n q f) ∧
    (n ≠ 0 → ∃ r k u g, Fp.div (.fin s m d e) (.fin t n q f) = .fin r k u g ∧ 0 < u ∧
      Fp.val r k u g = Fp.val s m d e / Fp.val t n q f)

/-- R48: rounding to nearest of a value within the range of the format gives a number of the format to which no other number
is nearer, and one with an even code where two are equally near. -/
def Obligations.RoundNearestIsNearest : Prop :=
  ∀ f ∈ formats, ∀ (w : BitVec 16) (s : Bool) (m d : Nat) (e : Int) (top : ℚ), 0 < d → f.HasVal f.maxCode top →
    |Fp.val s m d e| ≤ top →
    ∃ v, f.HasVal (f.round .ne w (.fin s m d e)) v ∧
      ∀ c' v', f.HasVal c' v' → |v - Fp.val s m d e| ≤ |v' - Fp.val s m d e| ∧
        (|v - Fp.val s m d e| = |v' - Fp.val s m d e| → v' ≠ v → f.round .ne w (.fin s m d e) % 2 = 0)

/-- R48: the directed modes give the nearest number of the format on their side, toward zero, upwards or downwards. -/
def Obligations.DirectedRoundingTakesItsSide : Prop :=
  ∀ f ∈ formats, ∀ (w : BitVec 16) (s : Bool) (m d : Nat) (e : Int) (top : ℚ), 0 < d → f.HasVal f.maxCode top →
    |Fp.val s m d e| ≤ top →
    (∃ v, f.HasVal (f.round .rz w (.fin s m d e)) v ∧ |v| ≤ |Fp.val s m d e| ∧
      ∀ c' v', f.HasVal c' v' → |v'| ≤ |Fp.val s m d e| → |v'| ≤ |v|) ∧
    (∃ v, f.HasVal (f.round .rp w (.fin s m d e)) v ∧ Fp.val s m d e ≤ v ∧
      ∀ c' v', f.HasVal c' v' → Fp.val s m d e ≤ v' → v ≤ v') ∧
    (∃ v, f.HasVal (f.round .rm w (.fin s m d e)) v ∧ v ≤ Fp.val s m d e ∧
      ∀ c' v', f.HasVal c' v' → v' ≤ Fp.val s m d e → v' ≤ v)

/-- R253: a widening conversion gives the same number in the wider format. -/
def Obligations.WideningKeepsTheNumber : Prop :=
  (∀ f ∈ [Fmt.e4m3, Fmt.e5m2, Fmt.bf16, Fmt.fp16], ∀ c v, f.HasVal c v → Fmt.fp32.HasVal (widen f Fmt.fp32 c) v) ∧
    ∀ c v, Fmt.fp32.HasVal c v → Fmt.fp64.HasVal (widen Fmt.fp32 Fmt.fp64 c) v

/-- R249 to R251: the scalar arithmetic of both formats rounds its exact result once in the mode it names, drawing one random word in
stochastic mode; minima, maxima, sign changes and the fused forms. Which random word a stochastic rounding draws is the model's free
value (log entry 5). -/
def Obligations.ScalarFloatingResults : Prop :=
  ∀ (s : State) (t : Bool) (d a b c : BitVec 5) (r : Rm),
    let f := fmtOf t
    let n := if r = .rs then 1 else 0
    let x := f.decode (fpIn t (s.g a))
    let y := f.decode (fpIn t (s.g b))
    let out := fun v => BitVec.ofNat 64 (f.round r s.rnd v)
    DrawsG (.fadd t d a b r) s d n (out (Fp.add r x y)) ∧ DrawsG (.fsub t d a b r) s d n (out (Fp.add r x y.neg)) ∧
    DrawsG (.fmul t d a b r) s d n (out (Fp.mul x y)) ∧ DrawsG (.fdiv t d a b r) s d n (out (Fp.div x y)) ∧
    DrawsG (.fsqrt t d a r) s d n (out x.sqrt) ∧
    GivesG (.fmin t d a b) s d (BitVec.ofNat 64 (f.fmin (fpIn t (s.g a)) (fpIn t (s.g b)))) ∧
    GivesG (.fmax t d a b) s d (BitVec.ofNat 64 (f.fmax (fpIn t (s.g a)) (fpIn t (s.g b)))) ∧
    GivesBits (.fabs t d a) s d (fun j => (s.g a).getLsbD j && decide (j < if t then 63 else 31)) ∧
    GivesBits (.fneg t d a) s d (fun j =>
      if j < (if t then 64 else 32) then (s.g a).getLsbD j != decide (j = if t then 63 else 31) else false) ∧
    GivesG (.fma t d a b c r) s d (BitVec.ofNat 64 (f.fma r false false (fpIn t (s.g a)) (fpIn t (s.g b)) (fpIn t (s.g c)))) ∧
    GivesG (.fms t d a b c r) s d (BitVec.ofNat 64 (f.fma r false true (fpIn t (s.g a)) (fpIn t (s.g b)) (fpIn t (s.g c)))) ∧
    GivesG (.fnma t d a b c r) s d (BitVec.ofNat 64 (f.fma r true false (fpIn t (s.g a)) (fpIn t (s.g b)) (fpIn t (s.g c)))) ∧
    GivesG (.fnms t d a b c r) s d (BitVec.ofNat 64 (f.fma r true true (fpIn t (s.g a)) (fpIn t (s.g b)) (fpIn t (s.g c))))

/-- R252 and R253: floating compares with a NaN are false but for `fun`, the class mask has one bit, and conversions between formats and
integers round, saturate or widen. Which random word a stochastic rounding draws is the model's free value (log entry 5). -/
def Obligations.FloatingCompareAndConvertResults : Prop :=
  ∀ (s : State) (t h : Bool) (p : BitVec 3) (d a b : BitVec 5) (r : Rm),
    let f := fmtOf t
    let n := if r = .rs then 1 else 0
    let x := f.decode (fpIn t (s.g a))
    let y := f.decode (fpIn t (s.g b))
    let x32 := Fmt.fp32.decode ((s.g a).toNat % 2 ^ 32)
    let nan := x.isNan || y.isNan
    GivesP (.feq p a b t) s p (!nan && !x.lt y && !y.lt x) ∧ GivesP (.flt p a b t) s p (!nan && x.lt y) ∧
    GivesP (.fle p a b t) s p (!nan && !y.lt x) ∧ GivesP (.fun p a b t) s p nan ∧
    GivesG (.fclass d a t) s d (BitVec.ofNat 64 (2 ^ f.fclass (fpIn t (s.g a)))) ∧
    DrawsG (.cvtSD d a r) s d n (BitVec.ofNat 64 (Fmt.fp32.round r s.rnd (Fmt.fp64.decode (s.g a).toNat))) ∧
    GivesG (.cvtDS d a) s d (BitVec.ofNat 64 (widen Fmt.fp32 Fmt.fp64 ((s.g a).toNat % 2 ^ 32))) ∧
    DrawsG (.cvtSL d a r t) s d n (BitVec.ofNat 64 (f.round r s.rnd (Fp.ofInt (s.g a).toInt))) ∧
    DrawsG (.cvtSLu d a r t) s d n (BitVec.ofNat 64 (f.round r s.rnd (Fp.ofInt (s.g a).toNat))) ∧
    DrawsG (.cvtLS d a r t) s d n (BitVec.ofInt 64 (roundInt (-2 ^ 63) (2 ^ 63 - 1) r s.rnd x)) ∧
    DrawsG (.cvtLuS d a r t) s d n (BitVec.ofInt 64 (roundInt 0 (2 ^ 64 - 1) r s.rnd x)) ∧
    DrawsG (.cvtBfS d a r h) s d n (BitVec.ofNat 64 ((if h then Fmt.fp16 else Fmt.bf16).round r s.rnd x32)) ∧
    DrawsG (.cvtE4S d a r h) s d n (BitVec.ofNat 64 ((if h then Fmt.e5m2 else Fmt.e4m3).round r s.rnd x32)) ∧
    GivesG (.cvtSBf d a h) s d (BitVec.ofNat 64 (widen (if h then Fmt.fp16 else Fmt.bf16) Fmt.fp32 ((s.g a).toNat % 2 ^ 16))) ∧
    GivesG (.cvtSE4 d a h) s d (BitVec.ofNat 64 (widen (if h then Fmt.e5m2 else Fmt.e4m3) Fmt.fp32 ((s.g a).toNat % 2 ^ 8)))

/-! ### Coordinates (R255, R256) -/

/-- R255 and R256: the coordinate instructions on valid names, and cause 0x0C with the name, or with the attempted offsets, where a name
is invalid or a step leaves the rectangle. R256: `cstep` by the difference that `cdiff` gives leads from one valid name to the place
of the other. -/
def Obligations.CoordinateInstructionResults : Prop :=
  (∀ (s : State) (d a b : BitVec 5),
    let n := s.g a
    let m := s.g b
    let e := s.rect s.cur.site (bits n 6 4)
    let row := (bits n 10 4 : Int) + (BitVec.ofNat 8 m.toNat).toInt
    let col := (bits n 14 4 : Int) + (BitVec.ofNat 8 (m.toNat / 256)).toInt
    let core := 16 * (bits e 0 4 + bits n 10 4) + bits e 4 4 + bits n 14 4
    (ValidName s n →
      (0 ≤ row ∧ row ≤ bits e 8 4 ∧ 0 ≤ col ∧ col ≤ bits e 12 4 → GivesG (.cstep d a b) s d (s.nameAt n row.toNat col.toNat)) ∧
      GivesG (.cwrap d a b) s d (s.nameAt n (row % (bits e 8 4 + 1)).toNat (col % (bits e 12 4 + 1)).toNat) ∧
      (ValidName s m → bits m 6 4 = bits n 6 4 → GivesG (.cdiff d a b) s d (BitVec.ofNat 64
        ((((bits m 10 4 : Int) - bits n 10 4) % 256).toNat + (((bits m 14 4 : Int) - bits n 14 4) % 256).toNat * 256))) ∧
      GivesG (.crect d a) s d e ∧
      GivesG (.cidx d a) s d (BitVec.ofNat 64 (bits n 10 4 * (bits e 12 4 + 1) + bits n 14 4)) ∧
      (core / 64 = s.cur.core / 64 → GivesG (.cclus d a) s d (BitVec.ofNat 64 (core % 64)))) ∧
    (MayTrap s →
      (¬ ValidName s n → Traps (.cstep d a b) s 0x0C n ∧ Traps (.cwrap d a b) s 0x0C n ∧ Traps (.cdiff d a b) s 0x0C n ∧
        Traps (.crect d a) s 0x0C n ∧ Traps (.cidx d a) s 0x0C n ∧ Traps (.cclus d a) s 0x0C n) ∧
      (ValidName s n → ¬ (0 ≤ row ∧ row ≤ bits e 8 4 ∧ 0 ≤ col ∧ col ≤ bits e 12 4) →
        Traps (.cstep d a b) s 0x0C (BitVec.ofNat 64 (bits n 0 6 + bits n 6 4 * 2 ^ 6 + (row % 16).toNat * 2 ^ 10 +
          (col % 16).toNat * 2 ^ 14 + (row % 256).toNat * 2 ^ 32 + (col % 256).toNat * 2 ^ 40))) ∧
      (ValidName s n → (¬ ValidName s m ∨ bits m 6 4 ≠ bits n 6 4) → Traps (.cdiff d a b) s 0x0C m) ∧
      (ValidName s n → core / 64 ≠ s.cur.core / 64 → Traps (.cclus d a) s 0x0C n))) ∧
  (∀ (s : State) (d a b e : BitVec 5), d ≠ 0 → d ≠ a → ValidName s (s.g a) → ValidName s (s.g b) →
    bits (s.g b) 6 4 = bits (s.g a) 6 4 →
    Runs (.cdiff d a b) s fun t => GivesG (.cstep e a d) t e (s.nameAt (s.g a) (bits (s.g b) 10 4) (bits (s.g b) 14 4)))

/-! ### Branches, jumps and loops (R257 to R262) -/

/-- R257 to R259: branches, calls, jumps and returns go where the leader's predicate, displacement or register says and write lr only
where they call; a misaligned jump target raises cause 0x0B. The bundle's own address is aligned. R258, R262 and R263: moves between
general and control registers, `rdpc` and `nop`; a loop address register takes only an aligned address, and raises cause 0x0B for
another. R260: `loop` sets up its level when no inner level is active and its end lies before that of every active outer one; a
count of 0 skips the body; otherwise it is illegal. In a gang the leader's registers decide and only they are written (R259). -/
def Obligations.ControlTransferAndLoopResults : Prop :=
  (∀ (s : State) (p : BitVec 3) (n : Bool) (disp : BitVec 20) (a : BitVec 5),
    let dest := BitVec.ofInt 64 (s.c.pc.toInt + 8 * disp.toInt)
    let link := if s.follows then s.c else { s.c with lr := s.c.pc + 8 }
    let ga := s.ctl.rg a
    bits s.c.pc 0 3 = 0 →
    ((s.ctl.rp p != n) = true → GivesF (.br p n disp) s s.c (.jump dest 0) ∧ GivesF (.call p n disp) s link (.jump dest 0)) ∧
    ((s.ctl.rp p != n) = false → GivesNothing (.br p n disp) s ∧ GivesNothing (.call p n disp) s) ∧
    (bits ga 0 3 = 0 → GivesF (.jr a) s s.c (.jump ga 0) ∧ GivesF (.callr a) s link (.jump ga 0)) ∧
    (bits ga 0 3 ≠ 0 → MayTrap s → Traps (.jr a) s 0x0B ga ∧ Traps (.callr a) s 0x0B ga) ∧
    (bits s.ctl.lr 0 3 = 0 → GivesF .ret s s.c (.jump s.ctl.lr 0)) ∧
    (bits s.ctl.lr 0 3 ≠ 0 → MayTrap s → Traps .ret s 0x0B s.ctl.lr)) ∧
  (∀ (s : State) (d a : BitVec 5) (n : BitVec 2),
    let ga := s.g a
    GivesC (.movJa0FromG a) s { s.c with ja0 := ga } ∧ GivesC (.movJa1FromG a) s { s.c with ja1 := ga } ∧
    GivesC (.movLrFromG a) s { s.c with lr := ga } ∧
    GivesG (.movGFromJa0 d) s d s.c.ja0 ∧ GivesG (.movGFromJa1 d) s d s.c.ja1 ∧ GivesG (.movGFromLr d) s d s.c.lr ∧
    GivesG (.rdpc d) s d s.c.pc ∧
    GivesG (.movGFromLs d n) s d (s.c.ls[n.toNat]) ∧ GivesG (.movGFromLe d n) s d (s.c.le[n.toNat]) ∧
    GivesG (.movGFromLc d n) s d (BitVec.ofNat 64 (s.c.lc[n.toNat]).toNat) ∧
    GivesC (.movLcFromG a n) s { s.c with lc := s.c.lc.set n.toNat (BitVec.ofNat 32 ga.toNat) } ∧
    (bits ga 0 3 = 0 → GivesC (.movLsFromG a n) s { s.c with ls := s.c.ls.set n.toNat ga } ∧
      GivesC (.movLeFromG a n) s { s.c with le := s.c.le.set n.toNat ga }) ∧
    (bits ga 0 3 ≠ 0 → MayTrap s → Traps (.movLsFromG a n) s 0x0B ga ∧ Traps (.movLeFromG a n) s 0x0B ga) ∧
    GivesNothing .nop s ∧ GivesNothing .arithmeticNoOp s) ∧
  (∀ (s : State) (l : BitVec 2) (a : BitVec 5) (i : BitVec 14),
    let e := BitVec.ofNat 64 (s.c.pc.toNat + 8 * i.toNat)
    let n := BitVec.ofNat 32 (s.ctl.rg a).toNat
    let lc := fun j => s.ctl.lc.toList.getD j 0
    let le := fun j => s.ctl.le.toList.getD j 0
    let nests := ∀ j, j < 4 → lc j ≠ 0 → j ≤ l.toNat ∧ (j < l.toNat → e.toNat < (le j).toNat)
    let new := if s.follows then s.c else
      { s.c with ls := s.c.ls.set l.toNat (s.c.pc + 8), le := s.c.le.set l.toNat e, lc := s.c.lc.set l.toNat n }
    (nests → n ≠ 0 → GivesC (.loop l a i) s new) ∧
    (nests → n = 0 → GivesF (.loop l a i) s new (.jump (e + 8) 0)) ∧
    (¬ nests → MayTrap s → s.issue.dict = none → Traps (.loop l a i) s 0x02 (BitVec.ofNat 64 s.issue.word.toNat)))

/-! ### Vector instructions (R303 to R317) -/

/-- R306: the integer lane instructions, on the active lanes. -/
def Obligations.VectorIntegerResults : Prop :=
  ∀ (s : State) (v a t : BitVec 4) (l : Lp) (g k : BitVec 2),
    let x := fun j => lane (s.c.rv a) j
    let y := fun j => lane (s.vt t l g) j
    let n := fun j => (y j).toNat % 32
    (VectorOk s g →
      GivesV (.vadd v a t l g k) s v k (fun j => BitVec.ofNat 32 ((x j).toNat + (y j).toNat)) ∧
      GivesV (.vsub v a t l g k) s v k (fun j => BitVec.ofInt 32 ((x j).toInt - (y j).toInt)) ∧
      GivesV (.vaddSat v a t l g k) s v k (fun j => BitVec.ofInt 32 (max (-2 ^ 31) (min (2 ^ 31 - 1) ((x j).toInt + (y j).toInt)))) ∧
      GivesV (.vsubSat v a t l g k) s v k (fun j => BitVec.ofInt 32 (max (-2 ^ 31) (min (2 ^ 31 - 1) ((x j).toInt - (y j).toInt)))) ∧
      GivesV (.vadduSat v a t l g k) s v k (fun j => BitVec.ofNat 32 (min (2 ^ 32 - 1) ((x j).toNat + (y j).toNat))) ∧
      GivesV (.vsubuSat v a t l g k) s v k (fun j => BitVec.ofNat 32 ((x j).toNat - (y j).toNat)) ∧
      GivesV (.vand v a t l g k) s v k (fun j => x j &&& y j) ∧ GivesV (.vor v a t l g k) s v k (fun j => x j ||| y j) ∧
      GivesV (.vxor v a t l g k) s v k (fun j => x j ^^^ y j) ∧ GivesV (.vandn v a t l g k) s v k (fun j => x j &&& ~~~y j) ∧
      GivesV (.vshl v a t l g k) s v k (fun j => BitVec.ofNat 32 ((x j).toNat * 2 ^ n j)) ∧
      GivesV (.vshr v a t l g k) s v k (fun j => BitVec.ofNat 32 ((x j).toNat / 2 ^ n j)) ∧
      GivesV (.vsra v a t l g k) s v k (fun j => BitVec.ofInt 32 ((x j).toInt / 2 ^ n j)) ∧
      GivesV (.vmul v a t l g k) s v k (fun j => BitVec.ofInt 32 ((x j).toInt * (y j).toInt)) ∧
      GivesV (.vmulh v a t l g k) s v k (fun j => BitVec.ofInt 32 ((x j).toInt * (y j).toInt / 2 ^ 32)) ∧
      GivesV (.vmulhu v a t l g k) s v k (fun j => BitVec.ofNat 32 ((x j).toNat * (y j).toNat / 2 ^ 32)) ∧
      GivesV (.vmla v a t l g k) s v k (fun j =>
        BitVec.ofNat 32 ((lane (s.c.rv v) j).toNat + (x j).toNat * (y j).toNat)) ∧
      GivesV (.vsmin v a t l g k) s v k (fun j => BitVec.ofInt 32 (min (x j).toInt (y j).toInt)) ∧
      GivesV (.vsmax v a t l g k) s v k (fun j => BitVec.ofInt 32 (max (x j).toInt (y j).toInt)) ∧
      GivesV (.vumin v a t l g k) s v k (fun j => BitVec.ofNat 32 (min (x j).toNat (y j).toNat)) ∧
      GivesV (.vumax v a t l g k) s v k (fun j => BitVec.ofNat 32 (max (x j).toNat (y j).toNat))) ∧
    (VectorOk s 0 →
      GivesV (.vneg v a k) s v k (fun j => BitVec.ofInt 32 (-(x j).toInt)) ∧ GivesV (.vnot v a k) s v k (fun j => ~~~x j) ∧
      GivesV (.vabs v a k) s v k (fun j => BitVec.ofNat 32 (x j).toInt.natAbs))

/-- R305: the lane of VT that a lane pattern reads, in the block of the result lane, after the gang offset has chosen the
register's member. -/
def Obligations.LanePatterns : Prop :=
  ∀ (s : State) (t : BitVec 4) (g : BitVec 2) (i : Nat), i < s.c.vl →
    let src := if g = 0 then s.c.rv t else (s.member ((qpos s.cur + g.toNat) % 4)).rv t
    let j := i % 32
    let b := 32 * (i / 32)
    let pat := s.c.lanepat
    lane (s.vt t .none g) i = lane src i ∧
    lane (s.vt t .rot g) i = lane src (b + (j + bits pat 0 5) % 32) ∧
    lane (s.vt t .rev g) i = lane src (b + 31 - j) ∧
    lane (s.vt t .w8 g) i = lane src (b + 8 * (j / 8) + bits pat (10 + 3 * (j % 8)) 3) ∧
    lane (s.vt t .bc g) i = lane src (b + bits pat 5 5)

/-- R308 to R310: the floating lane instructions: FP32 lanes, BF16 halves each for itself, FP64 over pairs of lanes; one rounding
of the exact result. -/
def Obligations.VectorFloatingResults : Prop :=
  ∀ (s : State) (v a t c : BitVec 4) (l : Lp) (g k : BitVec 2) (r : Rm),
    let x := s.c.rv a
    let y := s.vt t l g
    let z := s.c.rv c
    let sum := fun (f : Fmt) p q => f.round r 0 (Fp.add r (f.decode p) (f.decode q))
    let dif := fun (f : Fmt) p q => f.round r 0 (Fp.add r (f.decode p) (f.decode q).neg)
    let prd := fun (f : Fmt) p q => f.round r 0 (Fp.mul (f.decode p) (f.decode q))
    let w := fun (h : Nat → Nat → Nat) j => BitVec.ofNat 32 (h (lane x j).toNat (lane y j).toNat)
    let b := fun (h : Nat → Nat → Nat) j => BitVec.ofNat 32
      (h ((lane x j).toNat % 2 ^ 16) ((lane y j).toNat % 2 ^ 16) + 2 ^ 16 * h ((lane x j).toNat / 2 ^ 16) ((lane y j).toNat / 2 ^ 16))
    let d := fun (h : Nat → Nat → Nat) j => if s.c.active k (j / 2 * 2)
      then BitVec.ofNat 32 (h (delem x (j / 2)) (delem y (j / 2)) / 2 ^ (32 * (j % 2))) else lane (s.c.rv v) j
    let w3 := fun (h : Nat → Nat → Nat → Nat) j => BitVec.ofNat 32 (h (lane x j).toNat (lane y j).toNat (lane z j).toNat)
    let b3 := fun (h : Nat → Nat → Nat → Nat) j => BitVec.ofNat 32
      (h ((lane x j).toNat % 2 ^ 16) ((lane y j).toNat % 2 ^ 16) ((lane z j).toNat % 2 ^ 16) +
        2 ^ 16 * h ((lane x j).toNat / 2 ^ 16) ((lane y j).toNat / 2 ^ 16) ((lane z j).toNat / 2 ^ 16))
    let d3 := fun (h : Nat → Nat → Nat → Nat) j => if s.c.active k (j / 2 * 2)
      then BitVec.ofNat 32 (h (delem x (j / 2)) (delem y (j / 2)) (delem z (j / 2)) / 2 ^ (32 * (j % 2))) else lane (s.c.rv v) j
    VectorOk s g →
      (GivesV (.vfadd .s v a t l g k r) s v k (w (sum .fp32)) ∧ GivesV (.vfadd .bf v a t l g k r) s v k (b (sum .bf16)) ∧
        DrawsV (.vfadd .d v a t l g k r) s v 0 (d (sum .fp64))) ∧
      (GivesV (.vfsub .s v a t l g k r) s v k (w (dif .fp32)) ∧ GivesV (.vfsub .bf v a t l g k r) s v k (b (dif .bf16)) ∧
        DrawsV (.vfsub .d v a t l g k r) s v 0 (d (dif .fp64))) ∧
      (GivesV (.vfmul .s v a t l g k r) s v k (w (prd .fp32)) ∧ GivesV (.vfmul .bf v a t l g k r) s v k (b (prd .bf16)) ∧
        DrawsV (.vfmul .d v a t l g k r) s v 0 (d (prd .fp64))) ∧
      (GivesV (.vfmin .s v a t l g k) s v k (w Fmt.fp32.fmin) ∧ GivesV (.vfmin .bf v a t l g k) s v k (b Fmt.bf16.fmin) ∧
        DrawsV (.vfmin .d v a t l g k) s v 0 (d Fmt.fp64.fmin)) ∧
      (GivesV (.vfmax .s v a t l g k) s v k (w Fmt.fp32.fmax) ∧ GivesV (.vfmax .bf v a t l g k) s v k (b Fmt.bf16.fmax) ∧
        DrawsV (.vfmax .d v a t l g k) s v 0 (d Fmt.fp64.fmax)) ∧
      (GivesV (.vfma .s v a t c l g k) s v k (w3 (Fmt.fp32.fma .ne false false)) ∧
        GivesV (.vfma .bf v a t c l g k) s v k (b3 (Fmt.bf16.fma .ne false false)) ∧
        DrawsV (.vfma .d v a t c l g k) s v 0 (d3 (Fmt.fp64.fma .ne false false))) ∧
      (GivesV (.vfms .s v a t c l g k) s v k (w3 (Fmt.fp32.fma .ne false true)) ∧
        GivesV (.vfms .bf v a t c l g k) s v k (b3 (Fmt.bf16.fma .ne false true)) ∧
        DrawsV (.vfms .d v a t c l g k) s v 0 (d3 (Fmt.fp64.fma .ne false true)))

/-- R307, R311 to R314, R317: compares into masks, selection, mask logic, moves between general registers, vectors and masks, and
permutes. R303: a lane number beyond the vector length raises cause 0x0D; that its TVAL is 0 is log entry 32. -/
def Obligations.VectorMoveAndMaskResults : Prop :=
  ∀ (s : State) (v a t d : BitVec 4) (l : Lp) (g k m n u w : BitVec 2) (c : Cond) (q : FCmp) (h : BitVec 1),
    let x := s.c.rv a
    let y := s.vt t l g
    let gs := s.g (h ++ a)
    let at_ := fun b j => mbit (s.c.rm b) j
    let act := (List.range s.c.vl).filter fun j => s.c.active k j
    let e := bits gs 32 8
    (VectorOk s g →
      GivesM (.vcmp m a t l g k c) s m (fun j => if s.c.active k j then condHolds c (lane x j) (lane y j) else at_ m j) ∧
      GivesM (.vfcmp m a t l g k .s q) s m
        (fun j => if s.c.active k j then fcmpHolds .fp32 q (lane x j).toNat (lane y j).toNat else at_ m j) ∧
      GivesM (.vfcmp m a t l g k .d q) s m
        (fun j => if s.c.active k (j / 2 * 2) then fcmpHolds .fp64 q (delem x (j / 2)) (delem y (j / 2)) else at_ m j) ∧
      DrawsV (.vsel v a t l g k) s v 0 (fun j => if at_ k j then lane x j else lane y j) ∧
      GivesV (.vmov v t l g k) s v k (fun j => lane y j) ∧
      GivesG (.vext d t l g h) s (h ++ d) (BitVec.ofNat 64 (lane y 0).toNat) ∧
      GivesV (.vperm v a t l g k) s v k (fun j => lane x ((lane y j).toNat % 2 ^ 8 % s.c.vl)) ∧
      GivesV (.vpermB v a t l g k) s v k (fun j => lane x (32 * (j / 32) + (lane y j).toNat % 32))) ∧
    (VectorOk s 0 →
      (GivesM (.mand m n u) s m (fun j => at_ n j && at_ u j) ∧ GivesM (.mor m n u) s m (fun j => at_ n j || at_ u j) ∧
        GivesM (.mxor m n u) s m (fun j => at_ n j != at_ u j) ∧ GivesM (.mandn m n u) s m (fun j => at_ n j && !at_ u j) ∧
        GivesM (.mnot m n) s m (fun j => !at_ n j) ∧ GivesM (.mall m) s m (fun _ => true) ∧
        GivesM (.mnone m) s m (fun _ => false) ∧ GivesM (.mmov m n) s m (fun j => at_ n j)) ∧
      GivesV (.vbcast v a k h) s v k (fun _ => BitVec.ofNat 32 gs.toNat) ∧
      (e < s.c.vl → DrawsV (.vins v a h) s v 0 (fun j => if j = e then BitVec.ofNat 32 gs.toNat else lane (s.c.rv v) j)) ∧
      (s.c.vl ≤ e → MayTrap s → Traps (.vins v a h) s 0x0D 0) ∧
      GivesBits (.mrd d n w h) s (h ++ d) (fun j => decide (64 * w.toNat + j < s.c.vl) && at_ n (64 * w.toNat + j)) ∧
      GivesM (.mwr m a w h) s m (fun j => if j / 64 = w.toNat then gs.getLsbD (j % 64) else at_ m j) ∧
      GivesG (.mpopc d n h) s (h ++ d) (BitVec.ofNat 64 ((List.range s.c.vl).countP fun j => at_ n j)) ∧
      DrawsV (.vcompress v a k) s v 0 (fun j => if j < act.length then lane x (act.getD j 0) else lane (s.c.rv v) j)) ∧
    GivesG (.vlen d h) s (h ++ d) (BitVec.ofNat 64 (32 * s.c.held.length))

/-- R315: conversions between lane formats; one that writes part of a lane keeps the rest, and in stochastic mode every lane has a
random word of its own. Which random word a stochastic rounding draws is the model's free value (log entry 5). -/
def Obligations.VectorConversionResults : Prop :=
  ∀ (s : State) (v a : BitVec 4) (p k : BitVec 2) (r : Rm) (h : Bool), VectorOk s 0 →
    let n := if r = .rs then s.c.vl else 0
    let x := fun j => (lane (s.c.rv a) j).toNat
    let o := fun j => lane (s.c.rv v) j
    let on := fun (f : Nat → W32) j => if s.c.active k j then f j else o j
    let w := fun j => Config.randomWord (s.tick + j)
    let half := if h then 16 else 0
    let byte := 8 * p.toNat
    let e := if h then Fmt.e5m2 else Fmt.e4m3
    DrawsV (.vcvtSW v a r k) s v n (on fun j => BitVec.ofNat 32 (Fmt.fp32.round r (w j) (Fp.ofInt (lane (s.c.rv a) j).toInt))) ∧
    DrawsV (.vcvtWS v a r k) s v n (on fun j =>
      BitVec.ofInt 32 (roundInt (-2 ^ 31) (2 ^ 31 - 1) r (w j) (Fmt.fp32.decode (x j)))) ∧
    DrawsV (.vcvtBfS v a r k h) s v n (on fun j => laneIns (o j) half 16 (Fmt.bf16.round r (w j) (Fmt.fp32.decode (x j)))) ∧
    GivesV (.vcvtSBf v a k h) s v k (fun j => BitVec.ofNat 32 (widen .bf16 .fp32 (x j / 2 ^ half % 2 ^ 16))) ∧
    DrawsV (.vcvtHS v a r k h) s v n (on fun j => laneIns (o j) half 16 (Fmt.fp16.round r (w j) (Fmt.fp32.decode (x j)))) ∧
    GivesV (.vcvtSH v a k h) s v k (fun j => BitVec.ofNat 32 (widen .fp16 .fp32 (x j / 2 ^ half % 2 ^ 16))) ∧
    DrawsV (.vcvtES v a r p k h) s v n (on fun j => laneIns (o j) byte 8 (e.round r (w j) (Fmt.fp32.decode (x j)))) ∧
    GivesV (.vcvtSE v a p k h) s v k (fun j => BitVec.ofNat 32 (widen e .fp32 (x j / 2 ^ byte % 2 ^ 8))) ∧
    GivesV (.vcvtBW v a p k) s v k (fun j =>
      laneIns (o j) byte 8 (BitVec.ofInt 8 (max (-128) (min 127 (lane (s.c.rv a) j).toInt))).toNat) ∧
    GivesV (.vcvtWB v a p k) s v k (fun j => (BitVec.ofNat 8 (x j / 2 ^ byte)).signExtend 32) ∧
    DrawsV (.vcvtDS v a k) s v 0 (fun j => if s.c.active k (j / 2 * 2)
      then BitVec.ofNat 32 (widen .fp32 .fp64 (x (j / 2 * 2)) / 2 ^ (32 * (j % 2))) else o j) ∧
    DrawsV (.vcvtSD v a r k) s v n (fun j => if s.c.active k (j / 2 * 2)
      then (if j % 2 = 0 then BitVec.ofNat 32 (Fmt.fp32.round r (w (j / 2)) (Fmt.fp64.decode (delem (s.c.rv a) (j / 2)))) else 0)
      else o j)

/-- R316: reductions of the active lanes into lane 0 (lanes 0 and 1 for the FP64 sum), with the values of an empty reduction. -/
def Obligations.VectorReductionResults : Prop :=
  ∀ (s : State) (v a : BitVec 4) (k : BitVec 2), VectorOk s 0 →
    let act := ((List.range s.c.vl).filter fun j => s.c.active k j).map fun j => lane (s.c.rv a) j
    let red := fun (o : VRedOp) (z : W32) => DrawsV (.vred v a k o) s v 0 fun j => if j = 0 then z else lane (s.c.rv v) j
    red .add (BitVec.ofNat 32 (act.map (·.toNat)).sum) ∧
    red .smin (BitVec.ofInt 32 ((act.map (·.toInt)).foldl min (2 ^ 31 - 1))) ∧
    red .smax (BitVec.ofInt 32 ((act.map (·.toInt)).foldl max (-2 ^ 31))) ∧
    red .umin (BitVec.ofNat 32 ((act.map (·.toNat)).foldl min (2 ^ 32 - 1))) ∧
    red .umax (BitVec.ofNat 32 ((act.map (·.toNat)).foldl max 0)) ∧
    red .and (act.foldl (· &&& ·) (BitVec.allOnes 32)) ∧ red .or (act.foldl (· ||| ·) 0) ∧ red .xor (act.foldl (· ^^^ ·) 0) ∧
    red .fmin (BitVec.ofNat 32 ((act.map (·.toNat)).foldl Fmt.fp32.fmin 0x7FC00000)) ∧
    red .fmax (BitVec.ofNat 32 ((act.map (·.toNat)).foldl Fmt.fp32.fmax 0x7FC00000)) ∧
    red .fadd (BitVec.ofNat 32 ((treeSum .fp32 8 (s.activeLanes a k)).getD 0)) ∧
    DrawsV (.vred v a k .faddD) s v 0 (fun j => if j < 2
      then BitVec.ofNat 32 ((treeSum .fp64 8 (s.activeElems a k)).getD 0 / 2 ^ (32 * j)) else lane (s.c.rv v) j)

/-- R185, R190, R303: a vector instruction with a gang offset is illegal outside a gang; without a claim, or when the gang member
that it reads from has another claim, it raises cause 0x0D. That the check of the gang comes before that of the claim is log entry 24,
that the TVAL of 0x0D is 0 log entry 32. -/
def Obligations.VectorChecksTrap : Prop :=
  ∀ (s : State) (i : Instr) (g : BitVec 2), vectorOffset i = some g → MayTrap s → s.issue.dict = none →
    (g ≠ 0 → s.c.gang = false → Traps i s 0x02 (BitVec.ofNat 64 s.issue.word.toNat)) ∧
    ((g = 0 ∨ s.c.gang = true) → s.c.claim = 0 → Traps i s 0x0D 0) ∧
    (g ≠ 0 → s.c.gang = true → (s.member ((qpos s.cur + g.toNat) % 4)).claim ≠ s.c.claim → Traps i s 0x0D 0)

/-! ### Loads and stores (R275 to R283, R318 to R320) -/

/-- R277 to R279: loads from the issuing core's own local memory give the bytes at their offset, least significant first, extended
or converted as the instruction and the window say; `ldk` gives a word of the context's constant window. -/
def Obligations.LocalLoadResults : Prop :=
  ∀ (s : State) (d a b : BitVec 5) (m : LdMode) (o : BitVec 11) (w : BitVec 8) (off c : Nat),
    let n := loadedBytes m
    let raw := fun k => ofBytes (s.bytes (ownPa s off) k)
    let wide := BitVec.ofNat 32 (ofBytes (s.bytes (ownPa s off) (elemBytes c)))
    let out := windowLoad c wide.toNat none
    let reg := if c = 5 then out.signExtend 64 else BitVec.ofNat 64 out.toNat
    (OwnLocal s (offAddr s a o n) off n 0 false → GivesG (.ld d a m o) s d (loaded m (raw n))) ∧
    (OwnLocal s (s.g a + s.g b) off n 0 false → GivesG (.ldIndexed d a b m) s d (loaded m (raw n))) ∧
    (OwnLocal s (offAddr s a o 1) off 1 c false → (c = 1 ∨ c = 2 ∨ c = 5) → bit (s.c.wscale.toList.getD (c - 1) 0) 0 = false →
      GivesG (.ldxB d a o) s d reg) ∧
    (OwnLocal s (offAddr s a o 2) off 2 c false → (c = 3 ∨ c = 4) → bit (s.c.wscale.toList.getD (c - 1) 0) 0 = false →
      GivesG (.ldxH d a o) s d reg) ∧
    GivesG (.ldk d w) s d (BitVec.ofNat 64 (ofBytes (s.bytes (ownPa s (2048 * s.cur.ctx + 8 * w.toNat)) 8)))

/-- R78, R99, R277: a plain load of a line that the core's L1 holds takes its bytes from there at once; one that L1 does not hold, at
home on this die, leaves as a request: it counts in ocl, and the context parks with its register pending. R280: a prefetch that R275
turns away, or that names local memory, has no effect; one of a cacheable line that neither L1 nor the die's cache holds sends one
request and changes no register and no byte of memory. -/
def Obligations.GlobalLoadAndPrefetchResults : Prop :=
  (∀ (s : State) (d a : BitVec 5) (m : LdMode) (o : BitVec 11) (pa : Nat) (leaf : W64),
    let n := loadedBytes m
    let va := offAddr s a o n
    GlobalOk s (Access.plain n false) va pa leaf →
    (∀ l, s.l1Find s.cur.site s.cur.core (s.lineOf pa) = some l →
      GivesG (.ld d a m o) s d (loaded m (ofBytes ((l.data.drop (pa % 128)).take n)))) ∧
    (s.l1Find s.cur.site s.cur.core (s.lineOf pa) = none → s.homeOf pa leaf = s.cur.site → s.c.ocl ≠ 255 →
      Runs (.ld d a m o) s fun t =>
        (∃ q, t.reqs = s.reqs ++ [q] ∧ q.id = s.nextId ∧ q.who = s.cur ∧ q.pa = pa ∧ q.stage = .sent ∧
          q.kind = .load (.g d m (pa % 128))) ∧
        t.c = { s.c with ocl := s.c.ocl + 1, st := .parked, wait := .replies [s.nextId], pend := s.c.pend.add (rG [d]) } ∧
        t.issue.flow = .park ∧ ∀ x, t.byte x = s.byte x)) ∧
  (∀ (s : State) (a : BitVec 5) (o : BitVec 11),
    let acc : Access := ⟨1, 1, false, false, true, false, false, false, false, false⟩
    let va := offAddr s a o 128
    ((∀ pa leaf n, s.check s.cur acc va ≠ .ok (.mem pa leaf n)) → GivesNothing (.pfL1 a o) s ∧ GivesNothing (.pfL2 a o) s) ∧
    (∀ pa leaf, GlobalOk s acc va pa leaf → leafFmt leaf = 0 → s.poison.contains (s.lineOf pa) = false →
      s.near s.cur pa leaf 0 128 = .far → ∀ l1, Runs (if l1 then .pfL1 a o else .pfL2 a o) s fun t =>
        (∃ q, t.reqs = s.reqs ++ [q] ∧ q.id = s.nextId ∧ q.pa = pa ∧ q.stage = .sent ∧ q.kind = .load (.prefetch l1)) ∧
        t.ctxs = s.ctxs ∧ t.mem = s.mem ∧ t.issue = s.issue))

/-- R275 rows 2 and 3: a plain load or store of a non-canonical address raises cause 0x09, and one of a canonical lower-half address
that is no multiple of its size raises cause 0x0B, each with the address in TVAL. -/
def Obligations.PlainAccessAddressCauses : Prop :=
  ∀ (s : State) (d a b : BitVec 5) (m : LdMode) (z : StSize) (o : BitVec 11), MayTrap s →
    let top := fun va : W64 => va.toNat / 2 ^ 55
    let bad := fun (va : W64) n code => (top va ≠ 0 ∧ top va ≠ 511 ∧ code = 0x09) ∨ (top va = 0 ∧ va.toNat % n ≠ 0 ∧ code = 0x0B)
    ∀ code,
    (bad (offAddr s a o (loadedBytes m)) (loadedBytes m) code → Traps (.ld d a m o) s code (offAddr s a o (loadedBytes m))) ∧
    (bad (s.g a + s.g b) (loadedBytes m) code → Traps (.ldIndexed d a b m) s code (s.g a + s.g b)) ∧
    (bad (offAddr s a o (storedBytes z)) (storedBytes z) code →
      Runs (.st d a z o) s fun t => Trapped s t code (offAddr s a o (storedBytes z))) ∧
    (bad (s.g a + s.g b) (storedBytes z) code → Runs (.stIndexed d a b z) s fun t => Trapped s t code (s.g a + s.g b))

/-- R281, R282: a store to the issuing core's own local memory writes its bytes, least significant first, at its offset, raw or narrowed
by the window it goes through, and nothing else. R276: where ocs already stands at 255 its bundle stalls. Which random word a
stochastic rounding draws is the model's free value (log entry 5). -/
def Obligations.LocalStoreResults : Prop :=
  ∀ (s : State) (x a b : BitVec 5) (z : StSize) (o : BitVec 11) (off c : Nat),
    let n := storedBytes z
    let desc := s.c.wscale.toList.getD (c - 1) 0
    let md := epiRm (bits desc 1 3)
    let narrow := windowStore c md s.rnd (BitVec.ofNat 32 (s.g x).toNat) none
    let drawn := if md = .rs then 1 else 0
    let full := fun (i : Instr) (p : Prop) => if s.c.ocs = 255 then GivesF i s s.c .stall else p
    (OwnLocal s (offAddr s a o n) off n 0 true →
      full (.st x a z o) (Stores (.st x a z o) s (ownPa s off) (toBytes n (s.g x).toNat) 0)) ∧
    (OwnLocal s (s.g a + s.g b) off n 0 true →
      full (.stIndexed x a b z) (Stores (.stIndexed x a b z) s (ownPa s off) (toBytes n (s.g x).toNat) 0)) ∧
    (OwnLocal s (offAddr s a o 1) off 1 c true → (c = 1 ∨ c = 2 ∨ c = 5) → bit desc 0 = false → bits desc 1 3 ≤ 4 →
      full (.stxB x a o) (Stores (.stxB x a o) s (ownPa s off) (toBytes 1 narrow) drawn)) ∧
    (OwnLocal s (offAddr s a o 2) off 2 c true → (c = 3 ∨ c = 4) → bit desc 0 = false → bits desc 1 3 ≤ 4 →
      full (.stxH x a o) (Stores (.stxH x a o) s (ownPa s off) (toBytes 2 narrow) drawn))

/-- R276, R281: a plain store to a cacheable line at home on this die counts in ocs and leaves as a request with its bytes; memory
changes only when its home performs it. R128, R129, R283: a plain store that a leaf refuses parks: its entry joins the replay queue
as FAULTED with its bytes and counts in ocs, the cause waits for the bundle boundary, and the bundle goes on; memory is as before. -/
def Obligations.GlobalStoreResults : Prop :=
  (∀ (s : State) (x a : BitVec 5) (z : StSize) (o : BitVec 11) (pa : Nat) (leaf : W64),
    let n := storedBytes z
    GlobalOk s (Access.plain n true) (offAddr s a o n) pa leaf → s.homeOf pa leaf = s.cur.site → s.c.ocs ≠ 255 →
    Runs (.st x a z o) s fun t =>
      (∃ q, t.reqs = s.reqs ++ [q] ∧ q.id = s.nextId ∧ q.who = s.cur ∧ q.pa = pa ∧ q.stage = .sent ∧
        q.kind = .store (runAt (pa % 128) (toBytes n (s.g x).toNat)) 0) ∧
      t.c = { s.c with ocs := s.c.ocs + 1 } ∧ t.issue = s.issue ∧ ∀ v, t.byte v = s.byte v) ∧
  (∀ (s : State) (x a : BitVec 5) (z : StSize) (o : BitVec 11) (code : Nat),
    let n := storedBytes z
    let va := offAddr s a o n
    s.check s.cur (Access.plain n true) va = .refused code → s.c.walkFault = none → s.c.st ≠ .waiting →
    s.c.ocs ≠ 255 → s.rqRoom s.cur = true → s.pageParked s.cur va = false →
    s.pageWalking s.cur va = false →
    Runs (.st x a z o) s fun t =>
      (∃ e, (t.core s.cur.site s.cur.core).rq = (s.core s.cur.site s.cur.core).rq ++ [e] ∧ e.faulted = true ∧
        e.ctx = s.cur.ctx ∧ e.va = va ∧ e.data = toBytes n (s.g x).toNat) ∧
      t.c = { s.c with ocs := s.c.ocs + 1, pendStore := s.c.pendStore ++ [(code, va)] } ∧ t.issue = s.issue ∧
      ∀ v, t.byte v = s.byte v)

/-- R318, R319: vector loads from RAW local memory write to each active lane the word at its address, which unit stride, a stride
register, one address for all lanes, or an index register gives. R318, R320: vector stores to RAW local memory write each active
lane's word at its address; lanes that do not overlap keep their words, and every other byte reads as before. -/
def Obligations.VectorLoadAndStoreResults : Prop :=
  (∀ (s : State) (v x : BitVec 4) (a : BitVec 5) (k : BitVec 2) (o : BitVec 11) (off : Nat → Nat),
    let word := fun j => BitVec.ofNat 32 (ofBytes (s.bytes (ownPa s (off j)) 4))
    let base := offAddr s a o 4
    (LocalLanes s k (s.g a) (fun j => base + BitVec.ofNat 64 (4 * j)) off false → GivesV (.vld v a k o) s v k word) ∧
    (LocalLanes s k (s.g a) (fun j => base + BitVec.ofNat 64 (j * (s.g (a + 1)).toNat)) off false →
      GivesV (.vldS v a k o) s v k word) ∧
    (LocalLanes s k (s.g a) (fun _ => base) off false → GivesV (.vldBc v a k o) s v k word) ∧
    (LocalLanes s k (s.g a) (fun j => s.g a + BitVec.ofNat 64 (lane (s.c.rv x) j).toNat) off false →
      GivesV (.vldG v a k x) s v k word)) ∧
  (∀ (s : State) (v x : BitVec 4) (a : BitVec 5) (k : BitVec 2) (o : BitVec 11) (off : Nat → Nat),
    let base := offAddr s a o 4
    let act := fun j => j < s.c.vl ∧ s.c.active k j = true
    let apart := ∀ i j, act i → act j → i ≠ j → off i + 4 ≤ off j ∨ off j + 4 ≤ off i
    let good := fun i => Runs i s fun t =>
      (∀ j, act j → t.bytes (ownPa s (off j)) 4 = toBytes 4 (lane (s.c.rv v) j).toNat) ∧
      (∀ y, (∀ j n, act j → n < 4 → s.canon y ≠ s.canon (ownPa s (off j) + n)) → t.byte y = s.byte y) ∧
      t.c = s.c ∧ KeptButMemory s t 0
    apart →
    (LocalLanes s k (s.g a) (fun j => base + BitVec.ofNat 64 (4 * j)) off true → good (.vst v a k o)) ∧
    (LocalLanes s k (s.g a) (fun j => base + BitVec.ofNat 64 (j * (s.g (a + 1)).toNat)) off true → good (.vstS v a k o)) ∧
    (LocalLanes s k (s.g a) (fun j => s.g a + BitVec.ofNat 64 (lane (s.c.rv x) j).toNat) off true → good (.vstG v a k x)))

/-! ### Atomics and reductions (R140, R152, R293) -/

/-- R140, R152, R293: on a word of the issuing core's own local memory an atomic returns the old value and stores the operation's
result, `amo.cas` stores only when the word equals its comparand, and a reduction stores without returning anything. R276: a
reduction, and an atomic that returns nothing and acquires nothing, stalls where ocs stands at 255. -/
def Obligations.LocalAtomicResults : Prop :=
  ∀ (s : State) (d a x : BitVec 5) (c : BitVec 4) (r : AmoOrd) (z : Bool) (o : AmoOp) (off : Nat),
    let n := if z then 8 else 4
    let old := ofBytes (s.bytes (ownPa s off) n)
    let cmp := (s.g (c ++ 0#1)).toNat % 2 ^ (8 * n)
    let swap := (s.g (c ++ 1#1)).toNat % 2 ^ (8 * n)
    let gives := fun i new => Runs i s fun t => StoredAt s t (ownPa s off) (toBytes n new) ∧ KeptButMemory s t 0 ∧
      t.g d = (if d = 0 then 0 else BitVec.ofNat 64 old) ∧ OnlyG s t d
    let counted := d = 0 ∧ AmoOrd.acquires r = none
    OwnLocal s (s.g a) off n 0 true →
    (ReleaseReady s (s.g a) r → ¬ (counted ∧ s.c.ocs = 255) →
      gives (.amo d a x r z o) (atomResult o z old (s.g x).toNat) ∧ gives (.amoCas d a c r z) (if old = cmp then swap else old)) ∧
    (ReleaseReady s (s.g a) r → counted → s.c.ocs = 255 →
      GivesF (.amo d a x r z o) s s.c .stall ∧ GivesF (.amoCas d a c r z) s s.c .stall) ∧
    (s.c.ocs ≠ 255 → Stores (.red a x z o) s (ownPa s off) (toBytes n (atomResult o z old (s.g x).toNat)) 0) ∧
    (s.c.ocs = 255 → GivesF (.red a x z o) s s.c .stall)

/-! ### Exchange, fences, bindings and waits (R107 to R122, R156 to R169, R286 to R299) -/

/-- R158, R166, R169: `push` sends one packet to the switch of its site and counts in ocs while gd waits for the status; `pop` sends
one and parks its context for value and status. A push waits first, as a fence does. R86, R160: while a request that the packet
has to wait for is in flight to its line, or its injection queue is full, the bundle stalls. -/
def Obligations.PushAndPopSendPackets : Prop :=
  ∀ (s : State) (d a x p : BitVec 5) (w : BitVec 2) (e : Scope) (pa page : Nat) (leaf : W64),
    AddressOk s Access.exchange (s.g a) pa leaf page → s.peerWin pa = none →
    ((s.exchBusy s.cur (s.lineOf pa) = true ∨ s.injFull s.cur (s.homeOf pa leaf) = true) →
      GivesF (.push d a x w e) s s.c .stall ∧ GivesF (.pop d a p w e) s s.c .stall) ∧
    (s.exchBusy s.cur (s.lineOf pa) = false → s.injFull s.cur (s.homeOf pa leaf) = false →
    (s.drained s.cur = true → s.c.ocs ≠ 255 → Runs (.push d a x w e) s fun t =>
      (∃ q, t.reqs.getLast? = some q ∧ q.who = s.cur ∧ q.pa = pa ∧ q.kind = .push (s.g x) w.toNat d e ∧
        q.stage = .atSwitch 0 q.id ∧ q.home = s.homeOf pa leaf) ∧
      t.c = { s.c with ocs := s.c.ocs + 1, pend := s.c.pend.add (rG [d]) } ∧ t.issue = s.issue) ∧
    ((s.drained s.cur = false ∨ s.c.ocs = 255) → GivesF (.push d a x w e) s s.c .stall) ∧
    Runs (.pop d a p w e) s fun t => (∃ q, ParksFor s t q ((rG [d]).union (rP [p.setWidth 3])) ∧ q.pa = pa ∧
      q.kind = .pop w.toNat d (p.setWidth 3) e ∧ q.stage = .atSwitch 0 q.id ∧ q.home = s.homeOf pa leaf) ∧
      (s.rdcFind s.cur.site (s.lineOf pa) = none → ∀ y, t.byte y = s.byte y))

/-- R117, R88: a fence stalls until every earlier access of its context is performed; a narrow one then has no effect of its own, one of
module or system scope leaves no UNBOUND line in the die's cache. R120 to R122: `xfi` captures the context's unperformed accesses in
a free slot, or in the oldest slot once that is done, and returns the token with the slot's number and the sequence number; `xfw`
waits for the captures of its token and frees the slot, does nothing for a token no longer current, and is illegal for one that is
no token of the context. That a token names the context by the number it has, or had before a move, is an inference from R134 (log
entry 15); what counts as unperformed within a handler is that of log entry 27; and that `xfw` changes nothing but its slot, and
invalidates no UNBOUND line, is log entry 28. -/
def Obligations.FenceInstructionResults : Prop :=
  (∀ (s : State) (e : Scope),
    (s.drained s.cur = false → GivesF (.fence e) s s.c .stall) ∧
    (s.drained s.cur = true → (e = .core ∨ e = .cluster ∨ e = .die) → GivesNothing (.fence e) s) ∧
    (s.drained s.cur = true → (e = .module ∨ e = .system) → Runs (.fence e) s fun t =>
      (∀ l ∈ (t.die s.cur.site).rdc, l.tag ≠ none) ∧ t.ctxs = s.ctxs ∧ t.issue = s.issue ∧
      (∀ l ∈ (s.die s.cur.site).rdc, l.tag ≠ none → l ∈ (t.die s.cur.site).rdc) ∧
      (NoUnbound s → ∀ x, t.byte x = s.byte x))) ∧
  (∀ (s : State) (d a : BitVec 5),
    let free := fun i => i < 8 ∧ ∀ x ∈ s.c.xslots, x.slot ≠ i
    let mine := fun slot : Nat => (⟨slot, s.c.xseq, s.captures s.cur⟩ : XSlot)
    let token := fun slot : Nat => BitVec.ofNat 64 (slot + 8 * s.cur.ctx + 32 * s.c.xseq.toNat)
    let v := s.g a
    let named := fun x : XSlot => x.slot = bits v 0 3 ∧ x.seq.toNat = bits v 5 16
    ((∃ i, free i) → Runs (.xfi d) s fun t => ∃ i, free i ∧
      t.c = { s.c with xslots := s.c.xslots ++ [mine i], xseq := s.c.xseq + 1, g := t.c.g } ∧
      t.g d = (if d = 0 then 0 else token i) ∧ (∀ b, b ≠ d → t.g b = s.g b) ∧ Kept s t 1 s.issue.flow) ∧
    (∀ x l, (¬ ∃ i, free i) → s.c.xslots = x :: l → s.capsDone s.cur x = true → Runs (.xfi d) s fun t =>
      t.c = { s.c with xslots := l ++ [mine x.slot], xseq := s.c.xseq + 1, g := t.c.g } ∧
      t.g d = (if d = 0 then 0 else token x.slot) ∧ (∀ b, b ≠ d → t.g b = s.g b) ∧ Kept s t 0 s.issue.flow) ∧
    (∀ x l, (¬ ∃ i, free i) → s.c.xslots = x :: l → s.capsDone s.cur x = false → GivesF (.xfi d) s s.c .stall) ∧
    (bits v 21 43 = 0 → (bits v 3 2 = s.cur.ctx ∨ bits v 3 2 ∈ s.c.was) →
      ((∀ x ∈ s.c.xslots, ¬ named x) → GivesNothing (.xfw a) s) ∧
      (∀ x, s.c.xslots.find? (fun y => y.slot = bits v 0 3 ∧ y.seq.toNat = bits v 5 16) = some x →
        (s.capsDone s.cur x = true → GivesC (.xfw a) s { s.c with xslots := s.c.xslots.filter fun y => y.slot != x.slot }) ∧
        (s.capsDone s.cur x = false → GivesF (.xfw a) s s.c .stall))) ∧
    ((bits v 21 43 ≠ 0 ∨ (bits v 3 2 ≠ s.cur.ctx ∧ bits v 3 2 ∉ s.c.was)) → MayTrap s → s.issue.dict = none →
      Traps (.xfw a) s 0x02 (BitVec.ofNat 64 s.issue.word.toNat)))

/-- R109, R112, R113, R287, R288: `bind` parks for a status, which says what the table held; `acq` reads its object at the home; `rel`
of an unbound object writes the object word at its home once every earlier access is performed, and stalls before. R107: a
binding table that breaks its rules raises cause 0x09. -/
def Obligations.BindAcquireReleaseResults : Prop :=
  ∀ (s : State) (d a b : BitVec 5) (e : Scope) (pa page : Nat) (leaf : W64),
    let va := s.g a
    let len := s.g (b + 1)
    let asidLine := s.lineOf (s.asidPa s.c.asid.toNat)
    (∀ tbl n, AddressOk s (Access.object false) va pa leaf page → s.bindTable s.c.asid = some (tbl, n) →
      s.Ready (asidLine :: (probeAddrs tbl n (vline va)).map s.lineOf) →
      (s.bindFills va (s.g b) len tbl n = true →
        ∃ u, s.victimSlot s.cur.site = some u ∧ ∀ l ∈ (s.die s.cur.site).rdc, l.tag ≠ some u) →
      let held := s.probe tbl n (vline va)
      let room := (probeAddrs tbl n (vline va)).find? fun x => !bit (s.dword x) 0
      Runs (.bind d a b) s fun t => ∃ q, t.reqs.getLast? = some q ∧ q.who = s.cur ∧ t.c.st = .parked ∧ t.c.g = s.c.g ∧
        (len = 0 → held = none → q.value = 4 ∧ ∀ y, t.byte y = s.byte y) ∧
        (len = 0 → held ≠ none → q.value = 0) ∧
        (len ≠ 0 → bindArgsBad va (s.g b) len = true → q.value = 3 ∧ ∀ y, t.byte y = s.byte y) ∧
        (len ≠ 0 → bindArgsBad va (s.g b) len = false → held ≠ none → q.value = 2) ∧
        (len ≠ 0 → bindArgsBad va (s.g b) len = false → held = none → room = none →
          q.value = 1 ∧ ∀ y, t.byte y = s.byte y) ∧
        (len ≠ 0 → bindArgsBad va (s.g b) len = false → held = none → room ≠ none → q.value = 0)) ∧
    (s.Ready [asidLine] → MayTrap s →
      (AddressOk s (Access.object false) va pa leaf page → s.bindTable s.c.asid = none → Traps (.bind d a b) s 0x09 va) ∧
      (AddressOk s (Access.object false) va pa leaf page → s.bindBad va = true → Traps (.acq d a e) s 0x09 va) ∧
      (AddressOk s (Access.object true) va pa leaf page → s.bindBad va = true → Traps (.rel a b e) s 0x09 va)) ∧
    (AddressOk s (Access.object false) va pa leaf page → s.Ready [asidLine] → s.bindBad va = false →
      s.lineBusy s.cur.site s.cur.core (s.lineOf pa) = false → s.injFull s.cur (s.homeOf pa leaf) = false →
      Runs (.acq d a e) s fun t => ∃ q, ParksFor s t q (rG [d]) ∧ q.pa = pa ∧ q.kind = .acq d e ∧ q.stage = .sent) ∧
    (AddressOk s (Access.object true) va pa leaf page → s.Ready [asidLine] → s.bindBad va = false →
      (s.drained s.cur = false → GivesF (.rel a b e) s s.c .stall) ∧
      (s.drained s.cur = true → s.bindSlot s.cur.site s.c.asid va (some s.cur) = (s, .unbound) →
        s.Ready [s.lineOf pa] → s.rdcFind s.cur.site (s.lineOf pa) = none → s.Unlogged →
        Runs (.rel a b e) s fun t =>
          StoredAt s t (s.plain pa) (toBytes 8 (s.g b).toNat) ∧ t.ctxs = s.ctxs ∧ t.issue = s.issue))

/-- R290 to R292: `waitc` and `sfufence` go on when their condition holds and make the context WAITING when it does not; `waita`
returns the index of the first word that differs, waits when none does, and delivers the index or 4 that ended its wait. -/
def Obligations.WaitInstructionResults : Prop :=
  ∀ (s : State) (l x c t d a b : BitVec 5) (tm : BitVec 3) (n : BitVec 2) (off : Nat → Nat),
    let meets := fun (lim : BitVec 5) (v : Nat) => lim = 31 ∨ v ≤ lim.toNat
    let met := meets l s.c.ocl ∧ meets x s.c.ocs ∧ meets c s.c.occ ∧ meets t s.c.oct
    let differs := fun i => s.dword (ownPa s (off i)) ≠ s.g (b + BitVec.ofNat 5 i)
    let ready := s.c.fired = none ∧ ∀ i, i ≤ n.toNat → OwnLocal s (s.g (a + BitVec.ofNat 5 i)) (off i) 8 0 false ∧
      s.watchLocal s.cur.core (off i) = true
    (s.c.inHandler = false → met → GivesNothing (.waitc l x c t) s) ∧
    (s.c.inHandler = false → ¬ met → Runs (.waitc l x c t) s fun u => WaitsFor s u (.waitc l x c t)) ∧
    (s.c.sfuBusy = false → GivesNothing .sfufence s) ∧
    (s.c.sfuBusy = true → Runs .sfufence s fun u => WaitsFor s u .sfufence) ∧
    (∀ i, ready → i ≤ n.toNat → differs i → (∀ j, j < i → ¬ differs j) → NoUnbound s → Runs (.waita d a b tm n) s fun u =>
      u.g d = (if d = 0 then 0 else BitVec.ofNat 64 i) ∧ OnlyG s u d ∧ ∀ y, u.byte y = s.byte y) ∧
    (ready → (∀ i, i ≤ n.toNat → ¬ differs i) → Runs (.waita d a b tm n) s fun u => WaitsFor s u (.waita tm) ∧
      (u.watches.filter fun w => w.who = s.cur).length = n.toNat + 1) ∧
    (∀ v, s.c.fired = some v → NoUnbound s → Runs (.waita d a b tm n) s fun u =>
      u.g d = (if d = 0 then 0 else BitVec.ofNat 64 v) ∧ (∀ r, r ≠ d → u.g r = s.g r) ∧
      u.c = { s.c with g := u.c.g, fired := none } ∧ ∀ y, u.byte y = s.byte y)

/-- R193 to R195, R295: a member core arrives once in a phase and its context records the phase bit; `arrive.ss` first waits until the
context's writes are performed; `waitb` goes on when the phase has flipped since and waits otherwise; a core that is no member takes
cause 0x09. -/
def Obligations.BarrierInstructionResults : Prop :=
  ∀ (s : State) (g : BitVec 3),
    let n := g.toNat
    let die := s.die s.cur.site
    let member := die.gmember n s.cur.core = true
    let m : BitVec 8 := 1#8 <<< n
    let here := { s.c with
      girthRec := (s.c.girthRec &&& ~~~m) ||| (die.girthPhase &&& m), girthFlip := s.c.girthFlip &&& ~~~m }
    let alone := s.gspans s.cur.site n = false ∧ s.gmods s.cur.site n = []
    let arrives := fun i => Runs i s fun t => (t.die s.cur.site).garrived n s.cur.core = true ∧ t.c = here ∧
      t.issue = s.issue ∧ (∀ r, CtxRef.key r ≠ CtxRef.key s.cur → t.ctx r = s.ctx r) ∧ ∀ y, t.byte y = s.byte y
    let clear := s.c.ocs = 0 ∧ s.c.occ = 0 ∧ s.parked s.cur = [] ∧ (alone ∨ s.awaiting s.cur = false)
    (member → die.garrived n s.cur.core = false → arrives (.arrive g)) ∧
    (member → die.garrived n s.cur.core = true → Runs (.arrive g) s fun t => WaitsFor s t (.arrive g)) ∧
    (member → die.garrived n s.cur.core = false → clear → (alone ∨ NoUnbound s) → arrives (.arriveSs g)) ∧
    (member → ¬ clear → GivesF (.arriveSs g) s s.c .stall) ∧
    (alone → (s.c.fired ≠ none ∨ (member ∧ s.c.girthFlip.getLsbD n = true)) →
      GivesC (.waitb g) s { s.c with fired := none }) ∧
    (member → s.c.fired = none → s.c.girthFlip.getLsbD n = false → Runs (.waitb g) s fun t => WaitsFor s t (.waitb g)) ∧
    (¬ member → MayTrap s → Traps (.arrive g) s 0x09 (BitVec.ofNat 64 n) ∧ Traps (.arriveSs g) s 0x09 (BitVec.ofNat 64 n) ∧
      (s.c.fired = none → Traps (.waitb g) s 0x09 (BitVec.ofNat 64 n)))

/-- R161 to R164: what happens to exchange packets at a switch and at the home. A packet that meets its opposite in a buckle is
answered there together with the oldest such one, the pop with the push's value; one that opens a window waits in the buckle while
that has room; one whose window ends, or has none, goes on; at its home a packet that names no well-formed object gets status 2 and
one that finds it full or empty status 1; else a push stores its value in the element that the object's kind says and a pop takes
it, COUNT and HEAD follow, the status is 0, and every other byte reads as before. -/
def Obligations.ExchangePacketEvents : Prop :=
  ∀ (s : State) (id step age hub : Nat) (net : Bool) (q : Req), s.req id = some q → q.ext = none → s.peerWin q.pa = none →
    let at_ := q.exchStep = some (step, age) ∧
      (if step = 0 then s.mayLeave q = true else s.exchBehind q step age = false) ∧ s.exchAt q step = some (hub, net)
    let here := (q.stage = .atSwitch step age ∧ s.exchHere q step age = true ∧
        (s.slice q.home (s.sliceOfReq q)).full q = false ∧ s.inL2 (s.lineOf q.pa) = true) ∨
      (q.stage = .queued ∧ id ∉ (s.slice q.home (s.sliceOfReq q)).queue)
    let mates := (s.buckled hub).filter fun w => w.1.kind.isPush != q.kind.isPush && s.exchObj w.1 == s.exchObj q
    let room := ((s.buckled hub).filter fun w => w.2.1 = net).length < 32
    let kept := fun t : State => t.ctxs = s.ctxs ∧ t.mem = s.mem
    let done := fun (t : State) (i : Nat) st (v : W64) => ∃ x, t.req i = some x ∧ x.stage = .done ∧ x.status = st ∧ x.value = v
    let goesOn := fun i : Instr =>
      Runs i s fun t => kept t ∧ ∃ x, t.req id = some x ∧ x.stage = .atSwitch (step + 1) s.nextId
    (at_ → mates = [] → q.kind.window ≠ 0 → room →
      Runs (.buckleArrival id) s fun t => kept t ∧ ∃ x, t.req id = some x ∧ x.stage = .inBuckle step s.nextId) ∧
    (at_ → mates = [] → (q.kind.window = 0 ∨ ¬ room) → goesOn (.buckleArrival id)) ∧
    (∀ w, at_ → w ∈ mates → (∀ x ∈ mates, x ≠ w → w.2.2 < x.2.2) → s.req w.1.id = some w.1 → w.1.ext = none → w.1.id ≠ id →
      Runs (.buckleArrival id) s fun t => kept t ∧
        (q.kind.isPush = true → done t w.1.id 0 q.kind.offer ∧ done t id 0 0) ∧
        (q.kind.isPush = false → done t id 0 w.1.kind.offer ∧ done t w.1.id 0 0)) ∧
    (q.stage = .inBuckle step age → goesOn (.windowExpiry id)) ∧
    ∀ kind cap count head,
    (kind = bits (s.dword q.pa) 0 2 → cap = bits (s.dword q.pa) 8 32 → count = bits (s.dword (q.pa + 8)) 0 32 →
      head = bits (s.dword (q.pa + 8)) 32 32 → here → q.kind.exch = true → s.poison = [] → HostFree s → s.Unlogged →
      let wrong := kind = 0 ∨ kind = 3 ∨ cap = 0 ∨ bits (s.dword q.pa) 2 6 ≠ 0 ∨ bits (s.dword q.pa) 40 24 ≠ 0 ∨ cap ≤ head ∨
        (kind = 2 ∧ head ≠ 0) ∨ cap < count ∨ q.page < q.pa % q.page + 128 + 8 * cap
      let at_ := fun i => s.plain (q.pa + 128 + 8 * i)
      let stores := fun (t : State) (a : Nat) (v : W64) => ∀ i, i < 8 → t.byte (a + i) = (toBytes 8 v.toNat).getD i 0
      let others := fun (t : State) (l : List Nat) =>
        ∀ x, (∀ a ∈ l, ∀ i, i < 8 → s.canon x ≠ s.canon (a + i)) → t.byte x = s.byte x
      let apart := fun a b => ∀ i j, i < 8 → j < 8 → s.canon (a + i) ≠ s.canon (b + j)
      let put := if kind = 1 then (head + count) % cap else count
      let take := if kind = 1 then head else count - 1
      let desc := s.plain q.pa + 8
      (wrong → Runs (.exchangeApply id) s fun t => kept t ∧ done t id 2 0) ∧
      (¬ wrong → q.pa % 128 = 0 →
        (q.kind.isPush = true → count = cap → Runs (.exchangeApply id) s fun t => kept t ∧ done t id 1 0) ∧
        (q.kind.isPush = false → count = 0 → Runs (.exchangeApply id) s fun t => kept t ∧ done t id 1 0) ∧
        (q.kind.isPush = true → count < cap → apart (at_ put) desc → Runs (.exchangeApply id) s fun t =>
          t.ctxs = s.ctxs ∧ done t id 0 0 ∧ stores t (at_ put) q.kind.offer ∧
          stores t desc (BitVec.ofNat 64 (count + 1 + 2 ^ 32 * head)) ∧ others t [at_ put, desc]) ∧
        (q.kind.isPush = false → 0 < count → Runs (.exchangeApply id) s fun t =>
          t.ctxs = s.ctxs ∧ done t id 0 (s.dword (q.pa + 128 + 8 * take)) ∧
          stores t desc (BitVec.ofNat 64 (count - 1 + 2 ^ 32 * if kind = 1 then (head + 1) % cap else head)) ∧
          others t [desc])))

/-! ### Handles, banks and lane claims (R66 to R77, R188 to R191, R284 to R286, R301) -/

/-- R70 to R73, R76, R284 to R286: what each handle instruction does to the region entry that its handle names, when the handle is
current and the entry is in a state that allows it: passes to a valid target, takes, recalls and releases by a holder, none of which
makes a pinned entry passing or free; where a store or an engine command of the context on the region is not finished, a pass or a
release stalls. In every other case it leaves every entry alone and raises cause 0x0A with the handle. -/
def Obligations.HandleInstructionResults : Prop :=
  ∀ (s : State) (d a b : BitVec 5),
    let v := s.g a
    let core := hCore s.cur v
    let e := (s.core s.cur.site core).region (hSlot v)
    let me := holderOf s.cur
    let turns := fun (i : Instr) (e' : Region) (x : Option W64) => Runs i s fun t =>
      (t.core s.cur.site core).region (hSlot v) = e' ∧
      (∀ k n, (k ≠ core ∨ n ≠ hSlot v) → k < 256 → (t.core s.cur.site k).region n = (s.core s.cur.site k).region n) ∧
      t = { s with ctxs := t.ctxs, cores := t.cores } ∧
      (∀ r, CtxRef.key r ≠ CtxRef.key s.cur → t.ctx r = s.ctx r) ∧
      (match x with
        | none => t.c = s.c
        | some y => t.g d = (if d = 0 then 0 else y) ∧ OnlyG s t d)
    let waits := fun (i : Instr) (e' : Region) (x : Option W64) =>
      (s.regionBusy s.cur core e.base e.len = false → turns i e' x) ∧
      (s.regionBusy s.cur core e.base e.len = true → GivesF i s s.c .stall)
    let target := s.target s.cur (s.g b)
    let alone := e.state = .exclusive me ∨ e.state = .shared [me]
    let held := ∃ hs, e.state = .shared hs ∧ me ∈ hs
    core < 256 →
    (s.handleOk s.cur v = true →
      (∀ t, target = some t → e.pin = false → alone →
        waits (.hpassX d a b) { e with state := .passing (some me) t } (some (putBits v 5 1 0))) ∧
      (∀ t, target = some t → e.state = .exclusive me →
        waits (.hpassS d a b) { e with state := .shared (if t = me then [me] else [me, t]) } (some (putBits v 5 1 1))) ∧
      (∀ t hs, target = some t → e.state = .shared hs → me ∈ hs →
        waits (.hpassS d a b) { e with state := .shared (if t ∈ hs then hs else hs ++ [t]) } (some (putBits v 5 1 1))) ∧
      (∀ o, e.state = .passing o me → turns (.htake d a) { e with state := .exclusive me } (some (putBits v 5 1 0))) ∧
      (∀ t, e.state = .passing (some me) t → turns (.hrecall a) { e with state := .exclusive me } none) ∧
      (∀ hs, e.state = .shared hs → me ∈ hs → (∃ h ∈ hs, h ≠ me) →
        waits (.hrel a) { e with state := .shared (hs.filter fun h => h != me) } none) ∧
      ((e.state = .exclusive me ∨ ∃ hs, e.state = .shared hs ∧ me ∈ hs ∧ ∀ h ∈ hs, h = me) → e.pin = false →
        waits (.hrel a) { Region.reset with gen := e.gen + 1 } none)) ∧
    (MayTrap s →
      let wrong := fun (i : Instr) (may : Prop) => (s.handleOk s.cur v = false ∨ ¬ may) → Traps i s 0x0A v
      wrong (.hpassX d a b) (target ≠ none ∧ e.pin = false ∧ alone) ∧
      wrong (.hpassS d a b) (target ≠ none ∧ (e.state = .exclusive me ∨ held)) ∧
      wrong (.htake d a) (∃ o, e.state = .passing o me) ∧
      wrong (.hrecall a) (∃ t, e.state = .passing (some me) t) ∧
      wrong (.hrel a) ((e.state = .exclusive me ∧ e.pin = false) ∨
        ∃ hs, e.state = .shared hs ∧ me ∈ hs ∧ (e.pin = false ∨ ∃ h ∈ hs, h ≠ me)))

/-- R74, R75, R285: `hgrant` is a system instruction: in user mode it raises cause 0x09; in system mode it gives a free range of task
space to its target, zeroed, and answers its handle, or answers a failure code and changes nothing else. R68, R77: a bank that no
region uses is gated and reads 0 from then on; a retained region whose time runs out becomes free with the next generation. TVAL 0 of
that cause is log entry 32; where an event's premise does not hold it changes nothing: the model's choice (log entry 8). -/
def Obligations.RegionAndBankResults : Prop :=
  (∀ (s : State) (d a b : BitVec 5),
    let v := s.g a
    let core := hCore s.cur v
    let k := s.core s.cur.site core
    let fits := inTask (hBase v) (hLen v) = true ∧ s.inRect s.cur.site core = true
    let fails := fun n : Nat => GivesG (.hgrant d a b) s d (BitVec.ofNat 64 (2 ^ 63 + n))
    (s.c.sys = false → MayTrap s → Traps (.hgrant d a b) s 0x09 0) ∧
    (s.c.sys = true → s.target s.cur (s.g b) = none → fails 3) ∧
    (s.c.sys = true → s.target s.cur (s.g b) ≠ none → ¬ fits → fails 3) ∧
    (s.c.sys = true → s.target s.cur (s.g b) ≠ none → fits → k.overlaps (hBase v) (hLen v) = true → fails 1) ∧
    (s.c.sys = true → s.target s.cur (s.g b) ≠ none → fits → k.overlaps (hBase v) (hLen v) = false →
      (∀ i, i < 32 → (k.region i).state ≠ .free) → fails 2) ∧
    (∀ h, s.c.sys = true → s.target s.cur (s.g b) = some h → fits → k.overlaps (hBase v) (hLen v) = false →
      (∃ i, i < 32 ∧ (k.region i).state = .free) → Runs (.hgrant d a b) s fun t => ∃ i, i < 32 ∧ (k.region i).state = .free ∧
        (t.core s.cur.site core).region i = ⟨.exclusive h, hBase v, hLen v, (k.region i).gen, false, none⟩ ∧
        t.g d = (if d = 0 then 0 else handleOf i (hOwner v) (k.region i).gen.toNat (hBase v) (hLen v)) ∧ OnlyG s t d ∧
        (∀ x, s.canon (lmemPa s.cur.site core (64 * hBase v)) ≤ s.canon x →
          s.canon x < s.canon (lmemPa s.cur.site core (64 * hBase v)) + 64 * hLen v → t.byte x = 0) ∧
        (∀ x, s.canon x < s.canon (lmemPa s.cur.site core (64 * hBase v)) ∨
          s.canon (lmemPa s.cur.site core (64 * hBase v)) + 64 * hLen v ≤ s.canon x → t.byte x = s.byte x))) ∧
  (∀ (s : State) (site core bank slot n : Nat),
    (3 ≤ bank → bank < 16 → (s.core site core).overlaps (512 * bank) 512 = false → Runs (.bankPowerGate site core bank) s fun t =>
      (t.core site core).gated.getLsbD bank = true ∧ t.ctxs = s.ctxs ∧
      (∀ x, s.canon (lmemPa site core (32768 * bank)) ≤ s.canon x →
        s.canon x < s.canon (lmemPa site core (32768 * bank)) + 32768 → t.byte x = 0) ∧
      (∀ x, s.canon x < s.canon (lmemPa site core (32768 * bank)) ∨
        s.canon (lmemPa site core (32768 * bank)) + 32768 ≤ s.canon x → t.byte x = s.byte x)) ∧
    ((s.core site core).overlaps (512 * bank) 512 = true → GivesNothing (.bankPowerGate site core bank) s) ∧
    (((s.core site core).region slot).state = .retained n → Runs (.retainTimeout site core slot) s fun t =>
      (t.core site core).region slot = { Region.reset with gen := ((s.core site core).region slot).gen + 1 } ∧
      t = { s with cores := t.cores }))

/-- R188 to R190, R301: claims outside a gang. `vclaim` with no claim takes as many free blocks as it asks for and can get, `vrenew`
moves to the claim that R189 gives, `vrel` gives every block back; the answer is the new vector length, lanes that stay keep their
values, and a `vclaim` over a claim raises cause 0x0D, with TVAL 0 (log entry 32). R192: in a gang the leader's execution claims for
all; that a member that follows gets its vector length at its own turn is the model's reading (log entries 14 and 18).
R322 to R326: a request joins its octet's queue, makes the context busy and its register pending; it starts in order; a scalar
result goes to its register, rounded once, and a `map` that fails answers the number of the element. -/
def Obligations.LaneClaimAndSfuResults : Prop :=
  (∀ (s : State) (d : BitVec 5) (w : BitVec 4),
    let free := (s.freeBlocks s.cur.site (octetOf s.cur.core)).length
    let claims := fun (i : Instr) (n : Nat) => Runs i s fun t => t.c.claim = n ∧ t.c.want = w.toNat ∧
      t.g d = (if d = 0 then 0 else BitVec.ofNat 64 (32 * n)) ∧ (∀ b, b ≠ d → t.g b = s.g b) ∧
      (∀ u j, j < 32 * n → lane (t.c.rv u) j = lane (s.c.rv u) j) ∧
      (∀ r, CtxRef.key r ≠ CtxRef.key s.cur → t.ctx r = s.ctx r) ∧ ∀ x, t.byte x = s.byte x
    let share := max 1 (8 / s.demand s.cur w.toNat)
    (s.c.gang = false →
      (s.c.claim = 0 → claims (.vclaim d w) (min 8 (min w.toNat free))) ∧
      (0 < s.c.claim → MayTrap s → Traps (.vclaim d w) s 0x0D 0) ∧
      (s.c.vecBusy = false → s.othersUnmet s.cur = false → claims (.vrenew d w) (min 8 (min w.toNat (s.c.claim + free)))) ∧
      (s.c.vecBusy = false → s.othersUnmet s.cur = true →
        claims (.vrenew d w) (min 8 (min w.toNat (max (min s.c.claim share) (min share (s.c.claim + free)))))) ∧
      (s.c.vecBusy = true → GivesF (.vrenew d w) s s.c .stall ∧ GivesF .vrel s s.c .stall) ∧
      (s.c.vecBusy = false → Runs .vrel s fun t => t.c.claim = 0 ∧ t.c.want = 0 ∧ t.c.g = s.c.g ∧
        (∀ r, CtxRef.key r ≠ CtxRef.key s.cur → t.ctx r = s.ctx r) ∧ ∀ x, t.byte x = s.byte x)) ∧
    (s.follows = true → (s.member (qpos s.cur)).claim = 0 → GivesG (.vclaim d w) s d (BitVec.ofNat 64 (32 * s.c.claim)))) ∧
  (∀ (s : State) (d a b : BitVec 5) (e : Scope) (rel acq : Bool) (u : SfuFn) (site oct : Nat),
    let x := s.g a
    let y := s.g b
    let q0 := (s.octet s.cur.site (octetOf s.cur.core)).sfuq
    let room := s.startOk s.cur = true ∧ q0.length < 16
    let sound := u ≠ .map ∨ (bits y 48 4 ≤ 9 ∧ bits y 52 12 = 0 ∧ s.mapCheck s.cur x (bits y 32 16) false = none ∧
      s.mapCheck s.cur (mapDst y) (bits y 32 16) true = none)
    let fin := fun (q : SfuReq) (t : State) (v : W64) => (t.octet site oct).sfuq = (s.octet site oct).sfuq.drop 1 ∧
      (q.drop = false → (t.ctx q.who).rg q.d = (if q.d = 0 then 0 else v) ∧ ∀ b, b ≠ q.d → (t.ctx q.who).rg b = (s.ctx q.who).rg b)
    (sound → room → Runs (.sfucmd d a b e rel acq u) s fun t =>
      (∃ q, (t.octet s.cur.site (octetOf s.cur.core)).sfuq = q0 ++ [q] ∧ q.who = s.cur ∧ q.fn = u ∧ q.a = x ∧ q.b = y ∧
        q.d = d ∧ q.started = false ∧ q.job = s.nextId) ∧
      t.c = { s.c with sfuBusy := true, pend := s.c.pend.add (rG [d]) } ∧ t.issue = s.issue ∧ ∀ z, t.byte z = s.byte z) ∧
    (sound → ¬ room → GivesF (.sfucmd d a b e rel acq u) s s.c .stall) ∧
    (∀ q, (s.octet site oct).sfuq.find? (fun q => !q.started) = some q → q.acq = false →
      Runs (.sfuRequestStart site oct) s fun t => t.ctxs = s.ctxs ∧ t.mem = s.mem ∧
        (t.octet site oct).sfuq = (s.octet site oct).sfuq.map fun z => if z.job = q.job then { z with started := true } else z) ∧
    (∀ q l, (s.octet site oct).sfuq = q :: l → q.started = true →
      (q.fn ≠ .map → Runs (.sfuResult site oct) s fun t =>
        fin q t (BitVec.ofNat 64 (sfuFp32 q.fn (q.a.toNat % 2 ^ 32))) ∧ ∀ z, t.byte z = s.byte z) ∧
      (∀ s' i, q.fn = .map → s.mapStep q 32 q.next = (s', some i) → Runs (.sfuResult site oct) s fun t =>
        fin q t (BitVec.ofNat 64 (2 ^ 63 + i)) ∧ t.mem = s'.mem) ∧
      (∀ s', q.fn = .map → s.mapStep q 32 q.next = (s', none) → bits q.b 32 16 ≤ q.next + 32 →
        Runs (.sfuResult site oct) s fun t => fin q t 0 ∧ t.mem = s'.mem) ∧
      (∀ s', q.fn = .map → s.mapStep q 32 q.next = (s', none) → q.next + 32 < bits q.b 32 16 → q.drop = false →
        Runs (.sfuResult site oct) s fun t => t.ctxs = s.ctxs ∧ t.mem = s'.mem ∧
          (t.octet site oct).sfuq = (s.octet site oct).sfuq.map fun z =>
            if z.job = q.job then { z with next := q.next + 32 } else z)))

/-! ### System registers (R267 to R269, R373) -/

/-- R267, R268, R382: what `srd` reads at each number that its mode may read. -/
def Obligations.SystemRegisterReads : Prop :=
  ∀ (s : State) (d : BitVec 5),
    let gives := fun (n : BitVec 12) (v : W64) => GivesG (.srd d n) s d v
    let c := s.c
    let die := s.die s.cur.site
    gives 0x000 (s.ctxstat s.cur .running) ∧ gives 0x001 (s.coreName s.cur.site s.cur.core) ∧
    gives 0x002 (BitVec.ofNat 64 c.asid.toNat) ∧ gives 0x010 (s.core s.cur.site s.cur.core).cycle ∧ gives 0x011 c.issued ∧
    (c.sys = true → gives 0x020 c.tcause ∧ gives 0x021 c.tval ∧ gives 0x022 c.trappc ∧ gives 0x023 c.tstat ∧
      gives 0x024 c.tvec ∧ gives 0x028 c.tscratch0 ∧ gives 0x029 c.tscratch1 ∧ gives 0x150 die.tqbase ∧ gives 0x151 die.tqctl ∧
      gives 0x152 (BitVec.ofNat 64 die.tqprod.toNat) ∧ gives 0x153 (BitVec.ofNat 64 die.tqcons.toNat) ∧
      gives 0x154 (BitVec.ofNat 64 die.tqdrop.toNat) ∧
      gives 0x155 (BitVec.ofNat 64 (die.tqheld.length + (die.tqwait.filter (·.2)).length)) ∧ gives 0x160 die.stctl) ∧
    (∀ i, i < 5 → gives (BitVec.ofNat 12 (0x0C1 + i)) (c.wscale.toList.getD i 0)) ∧
    gives 0x0D0 c.dictctl ∧ gives 0x0D1 c.dictbase ∧ gives 0x100 c.pwrreq ∧ gives 0x101 (s.pwrstat s.cur) ∧
    gives 0x102 (s.leasestat s.cur.site (s.cur.core / 64)) ∧ gives 0x103 c.energy ∧ gives 0x104 die.stallcfg ∧
    gives 0x140 (if c.npsec then 1 else 0) ∧ gives 0x141 (BitVec.ofNat 64 c.npcount.toNat) ∧
    gives 0x142 die.nplim ∧ gives 0x161 die.ststat ∧
    (∀ i, i < 32 → gives (BitVec.ofNat 12 (0x180 + i)) (die.gmask (i / 4) (i % 4))) ∧
    (∀ i, i < 8 → gives (BitVec.ofNat 12 (0x1A0 + i)) (die.girthTo.toList.getD i 0) ∧
      gives (BitVec.ofNat 12 (0x1A8 + i)) (die.girthSpan.toList.getD i 0)) ∧
    gives 0x1B0 (s.girthstat s.cur) ∧ (∀ i, i < 4 → gives (BitVec.ofNat 12 (0x1B4 + i)) (die.garr c.girthSel.toNat i)) ∧
    gives 0x1C0 (s.lanepool s.cur.site (s.cur.core / 8)) ∧
    gives 0x1C1 (BitVec.ofNat 64 (packBits ((List.range 8).map c.held.contains))) ∧ gives 0x1C2 c.lanepat ∧
    gives 0x1C8 (s.sfustat s.cur)

/-- R267, R268: a write to a register of the context keeps the register's own bits and changes nothing else; `srset` and `srclr` write
the old value with bits set or cleared, and answer the old value. R399: a write of PWRREQ is checked, its result stands in REQST, and
one that is denied leaves the register as it was; of the rest only dividers of cores follow. R297, R380, R382, R386, R400: writes of
the die's registers; STALLCFG with SLO ≥ SHI and GIRTHSPAN with arrivals are ignored, and a write of GIRTHMASK discards the arrivals
of the cores that it removes and completes the phase of a group of one die that it leaves with no member. R267, R268, R19: which numbers a mode may name: the trap
registers and the other system-mode numbers raise cause 0x09 in user mode, so does every write to a read-only number in either mode and
a user write to one that only system mode writes, each with TVAL 0 (log entry 32); a number of no register is illegal. -/
def Obligations.SystemRegisterWritesAndPrivilege : Prop :=
  (∀ (s : State) (d a : BitVec 5),
    let c := s.c
    let writes := fun (n : BitVec 12) (old : W64) (new : W64 → Ctx) =>
      GivesC (.swr a n) s (new (s.g a)) ∧
      Runs (.srset d a n) s (fun t => t.c = { new (old ||| s.g a) with g := t.c.g } ∧ t.g d = (if d = 0 then 0 else old) ∧
        (∀ b, b ≠ d → t.g b = s.g b) ∧ Kept s t 0 s.issue.flow) ∧
      Runs (.srclr d a n) s (fun t => t.c = { new (old &&& ~~~(s.g a)) with g := t.c.g } ∧ t.g d = (if d = 0 then 0 else old) ∧
        (∀ b, b ≠ d → t.g b = s.g b) ∧ Kept s t 0 s.issue.flow)
    (c.sys = true →
      writes 0x002 (BitVec.ofNat 64 c.asid.toNat) (fun v => { c with asid := v.setWidth 16, walkFault := none }) ∧
      writes 0x020 c.tcause (fun v => { c with tcause := v &&& 0x7F }) ∧ writes 0x021 c.tval (fun v => { c with tval := v }) ∧
      writes 0x022 c.trappc (fun v => { c with trappc := v &&& 0xFFFFFFFFFFFFFFFB }) ∧
      writes 0x023 c.tstat (fun v => { c with tstat := v &&& 7 }) ∧
      writes 0x024 c.tvec (fun v => { c with tvec := v &&& 0xFFFFFFFFFFFFFFF8 }) ∧
      writes 0x028 c.tscratch0 (fun v => { c with tscratch0 := v }) ∧
      writes 0x029 c.tscratch1 (fun v => { c with tscratch1 := v })) ∧
    (∀ i (h : i < 5), writes (BitVec.ofNat 12 (0x0C1 + i)) (c.wscale[i]) (fun v =>
      { c with wscale := c.wscale.set i (v &&& 0x3FFFFFFFFFFF) })) ∧
    writes 0x0D0 c.dictctl (fun v => { c with dactive := v.setWidth 2 }) ∧
    writes 0x140 (if c.npsec then 1 else 0) (fun v => { c with npsec := v.getLsbD 0, npcount := if v.getLsbD 0 then c.npcount else 0 }) ∧
    writes 0x1B0 (s.girthstat s.cur) (fun v => { c with girthSel := (v >>> 16).setWidth 3 }) ∧
    writes 0x1C2 c.lanepat (fun v => { c with lanepat := v &&& 0x3FFFFFFFF })) ∧
  (∀ (s : State) (d a : BitVec 5),
    let site := s.cur.site
    let die := s.die site
    let each := fun (n : BitVec 12) (old : W64) (c : W64 → Ctx) (does : W64 → State → Prop) =>
      let others := fun t : State => ∀ r, CtxRef.key r ≠ CtxRef.key s.cur → t.ctx r = s.ctx r
      let both := fun (t : State) (v : W64) => does v t ∧ others t ∧ t.c = { c v with g := t.c.g } ∧
        t.g d = (if d = 0 then 0 else old) ∧ ∀ b, b ≠ d → t.g b = s.g b
      Runs (.swr a n) s (fun t => does (s.g a) t ∧ others t ∧ t.c = c (s.g a)) ∧
      Runs (.srset d a n) s (fun t => both t (old ||| s.g a)) ∧ Runs (.srclr d a n) s (fun t => both t (old &&& ~~~(s.g a)))
    let request := fun v : W64 =>
      let n : Int := if bits v 0 3 ≤ 1 then 30 else if bits v 0 3 = 2 then 16 else 6
      let code := n + (BitVec.ofNat 5 (bits v 3 5)).toInt
      if 3 < bits v 0 3 ∨ bits v 9 55 ≠ 0 then 4 else if code < 0 then 1 else if 50 < code then 2 else 0
    let dies := fun (n : BitVec 12) (old : W64) (new : W64 → Die) => each n old (fun _ => s.c) fun v t =>
      t = { s with ctxs := t.ctxs, dies := t.dies } ∧ t.die site = new v ∧ ∀ k, k ≠ site → t.die k = s.die k
    let keep := fun old v rw : W64 => (old &&& ~~~rw) ||| (v &&& rw)
    each 0x100 s.c.pwrreq
      (fun v => { s.c with reqst := BitVec.ofNat 3 (request v), pwrreq := if request v = 0 then v else s.c.pwrreq })
      (fun _ t => t = { s with ctxs := t.ctxs, cores := t.cores } ∧ ∀ i k,
        t.core i k = { s.core i k with div := (t.core i k).div, divWant := (t.core i k).divWant }) ∧
    (s.c.sys = true →
      dies 0x104 die.stallcfg (fun v => if bits v 0 8 ≤ bits v 8 8 then die else { die with stallcfg := v &&& 0x1FFFF }) ∧
      dies 0x142 die.nplim (fun v => { die with nplim := keep die.nplim v 0xFFFFFFFF }) ∧
      dies 0x150 die.tqbase (fun v => { die with tqbase := keep die.tqbase v 0xFFFFFFFFFF800 }) ∧
      dies 0x151 die.tqctl (fun v => { die with tqctl := keep die.tqctl v 0x1FF07 }) ∧
      (die.tqheld = [] → dies 0x153 (BitVec.ofNat 64 die.tqcons.toNat) fun v => { die with tqcons := BitVec.ofNat 32 v.toNat }) ∧
      dies 0x154 (BitVec.ofNat 64 die.tqdrop.toNat) (fun v => { die with tqdrop := BitVec.ofNat 32 v.toNat }) ∧
      dies 0x160 die.stctl (fun v => { die with stctl := keep die.stctl v 0xFFFFFF01 }) ∧
      (∀ i (h : i < 8),
        dies (BitVec.ofNat 12 (0x1A0 + i)) die.girthTo[i] (fun v => { die with girthTo := die.girthTo.set i (v &&& 0xFFFFFFFF) }) ∧
        dies (BitVec.ofNat 12 (0x1A8 + i)) die.girthSpan[i] (fun v =>
          if (List.range 4).all fun w => die.garr i w == 0 then { die with girthSpan := die.girthSpan.set i v } else die)) ∧
      (∀ g w, g < 8 → w < 4 →
        let n := BitVec.ofNat 12 (0x180 + 4 * g + w)
        let does := fun (v : W64) (t : State) =>
          let stays := s.gspans site g = true ∨ ∃ k, k < 4 ∧ (t.die site).gmask g k ≠ 0
          (∀ j, j < 64 → ((t.die site).gmask g w).getLsbD j = (v.getLsbD j && s.inRect site (64 * w + j))) ∧
          (∀ h k, k < 4 → (h ≠ g ∨ k ≠ w) → (t.die site).gmask h k = die.gmask h k) ∧ t.mem = s.mem ∧
          (stays → (t.die site).garr g w = die.garr g w &&& (t.die site).gmask g w ∧
            (t.die site).girthPhase = die.girthPhase ∧ t.c = { s.c with g := t.c.g }) ∧
          (¬ stays → (∀ k, k < 4 → (t.die site).garr g k = 0) ∧ (t.die site).girthPhase = die.girthPhase ^^^ (1#8 <<< g))
        Runs (.swr a n) s (does (s.g a)) ∧
        Runs (.srset d a n) s (fun t => does (die.gmask g w ||| s.g a) t ∧ t.g d = if d = 0 then 0 else die.gmask g w) ∧
        Runs (.srclr d a n) s (fun t => does (die.gmask g w &&& ~~~(s.g a)) t ∧ t.g d = if d = 0 then 0 else die.gmask g w)))) ∧
  (∀ (s : State) (d a : BitVec 5), MayTrap s →
    let reads := fun (n : BitVec 12) => Traps (.srd d n) s 0x09 0
    let writes := fun (n : BitVec 12) => Traps (.swr a n) s 0x09 0 ∧ Traps (.srset d a n) s 0x09 0 ∧ Traps (.srclr d a n) s 0x09 0
    (s.c.sys = false → ∀ n ∈ [0x020, 0x021, 0x022, 0x023, 0x024, 0x028, 0x029, 0x150, 0x151, 0x152, 0x153, 0x154, 0x155, 0x160],
      reads n ∧ writes n) ∧
    (s.c.sys = false → ∀ n ∈ [0x002, 0x104, 0x142, 0x180, 0x19F, 0x1A0, 0x1AF, 0x1B4, 0x1B7], writes n) ∧
    (∀ n ∈ [0x000, 0x001, 0x010, 0x011, 0x0D1, 0x101, 0x102, 0x103, 0x1C0, 0x1C1, 0x1C8], writes n) ∧
    (s.issue.dict = none → ∀ n ∈ [0x003, 0x012, 0x025, 0x0C0, 0x0C6, 0x105, 0x143, 0x1B1, 0x1B8, 0x1C9, 0xFFF],
      Traps (.srd d n) s 0x02 (BitVec.ofNat 64 s.issue.word.toNat) ∧ Traps (.swr a n) s 0x02 (BitVec.ofNat 64 s.issue.word.toNat)))

/-! ### Taking a trap and returning from one (R270, R271, R371, R372) -/

/-- R270 to R272: `trap` takes cause 0x05 with its number, to be resumed behind itself; `rft` restores the mode and INTRAP that the trap
saved and goes back to TRAPPC and its slot, and is a system instruction. R371, R383: a synchronous cause while INTRAP is 1 does not
enter the handler again: the context ends, and its registers are gone. Of the causes that parked stores left to be taken, `rft` keeps
0x0E alone (log entry 46); TVAL 0 in user mode is log entry 32; an ended context's registers take the reset values of log entries 4
and 42. -/
def Obligations.TrapsAndReturnFromTrap : Prop :=
  (∀ (s : State) (n : BitVec 10),
    let behind := match s.issue.dict with
      | some (_, sla, _, slb, _) => if slb = sla + 1 then some (BitVec.ofNat 2 slb) else s.issue.nextSlot
      | none => s.issue.nextSlot
    let resume := match behind with
      | some k => putBits s.c.pc 0 3 k.toNat
      | none => putBits (s.c.pc + 8) 0 3 0
    let back := Flow.jump (putBits s.c.trappc 0 3 0) (BitVec.ofNat 2 s.c.trappc.toNat)
    let nested := s.c.tstat.getLsbD 2
    (MayTrap s → Runs (.trap n) s fun t =>
      t.c = { s.c with
        trappc := resume, tstat := (if s.c.sys then 3#64 else 2#64), tcause := 5, tval := BitVec.ofNat 64 n.toNat, sys := true,
        pc := putBits s.c.tvec 0 3 0, slot := 0, mid := false, walkFault := none, fired := none, handler := true, redo := false,
        ahead := none } ∧
      Kept s t 0 .trapped) ∧
    (s.c.sys = true → nested = true →
      GivesF .rft s { s.c with sys := s.c.tstat.getLsbD 0, tstat := s.c.tstat ||| 2 } back) ∧
    (s.c.sys = true → nested = false → Runs .rft s fun t =>
      t.c = { s.c with
        sys := s.c.tstat.getLsbD 0, tstat := s.c.tstat &&& ~~~2, handler := false,
        pendStore := s.c.pendStore.filter fun e => e.1 = 0x0E } ∧
      t.issue.flow = back ∧ t.mem = s.mem ∧ (∀ r, CtxRef.key r ≠ CtxRef.key s.cur → t.ctx r = s.ctx r) ∧
      (∀ e ∈ (t.core s.cur.site s.cur.core).rq, e.ctx = s.cur.ctx → e.faulted = true → e.retry = true)) ∧
    (s.c.sys = false → MayTrap s → Traps .rft s 0x09 0)) ∧
  (∀ (s : State) (n : BitVec 10), s.c.inTrap = true → s.c.gang = false → s.cgroup s.c.asid.toNat = 0 →
    bit (s.hreg (s.phys s.cur.site) 0x3608) 3 = false →
    Runs (.trap n) s fun t => t.c = Ctx.reset ∧ t.issue.flow = .ended)

/-- R272 to R274: the TLB instructions remove what they name from every TLB of the module, `icsync` empties the core's instruction
cache once every earlier store and access of the context is performed; the TLB instructions are for system mode, and raise cause 0x09
in user mode, with TVAL 0 (log entry 32). -/
def Obligations.TranslationMaintenance : Prop :=
  ∀ (s : State) (a b : BitVec 5),
    let idle := s.reqs = []
    let gone := fun (t : State) (f : TlbEntry → Prop) =>
      (∀ site core, ∀ e ∈ (t.core site core).tlb, ¬ f e ∧ e ∈ (s.core site core).tlb) ∧
      (∀ site, ∀ e ∈ (t.die site).tlb, ¬ f e ∧ e ∈ (s.die site).tlb) ∧
      (∀ site core, ∀ e ∈ (s.core site core).tlb, ¬ f e → e ∈ (t.core site core).tlb) ∧ t.ctxs = s.ctxs ∧ t.issue = s.issue
    let page := (s.g a).toNat / 4096
    (s.c.sys = true → idle → Runs (.tlbinvVa a b) s (fun t => t.mem = s.mem ∧
      gone t fun e => (leafG e.leaf = true ∨ e.asid = (s.g b).setWidth 16) ∧ e.vbase / 4096 ≤ page ∧ page < (e.vbase + e.size) / 4096)) ∧
    (s.c.sys = true → idle → Runs (.tlbinvAsid a) s (fun t =>
      gone t fun e => e.asid = (s.g a).setWidth 16 ∧ leafG e.leaf = false)) ∧
    (s.c.sys = true → idle → Runs .tlbinvAll s (fun t => t.mem = s.mem ∧ gone t fun _ => True)) ∧
    (s.c.sys = false → MayTrap s → Traps (.tlbinvVa a b) s 0x09 0 ∧ Traps (.tlbinvAsid a) s 0x09 0 ∧ Traps .tlbinvAll s 0x09 0) ∧
    let done := s.c.ocs = 0 ∧ s.awaiting s.cur = false
    (done → Runs .icsync s fun t => (t.core s.cur.site s.cur.core).ic = [] ∧ t.ctxs = s.ctxs ∧
      t.mem = s.mem ∧ t.issue = s.issue) ∧
    (¬ done → GivesF .icsync s s.c .stall)

/-! ### The dictionary and leases (R213 to R216, R224 to R233, R401 to R405) -/

/-- R214, R224 to R233: `dictld` takes the 64 entries of its bank from local memory, records the image in DICTBASE and is busy
until its load completes, the other dictionary instructions and a second `dictld` wait for it, and it waits itself for a store of its
context that is on its way to the image; `dictsel` selects a bank, `dictrd`
reads an entry, a debug write sets one of a stopped context that loads nothing, in its save area too where it was pre-empted. -/
def Obligations.DictionaryResults : Prop :=
  ∀ (s : State) (d a : BitVec 5) (b : BitVec 2) (off bank idx : Nat) (r : CtxRef) (v : W64),
    let c := s.ctx r
    let named := s.g a = BitVec.ofNat 64 (0xFFFFFFFFFFC00000 + off) ∧ off < 524288 ∧ off % 64 = 0 ∧
      (s.c.sys = true ∨ (0x800 * s.cur.ctx ≤ off ∧ off + 512 ≤ 0x800 * s.cur.ctx + 0x800) ∨
        (s.core s.cur.site s.cur.core).covers (holderOf s.cur) false off 512 = true)
    let others := fun t : State => ∀ q, CtxRef.key q ≠ CtxRef.key r → t.ctx q = s.ctx q
    let written := fun t : State => Table.get 0 (t.ctx r).dict (64 * bank + idx) = v ∧
      (∀ k, k ≠ 64 * bank + idx → Table.get 0 (t.ctx r).dict k = Table.get 0 c.dict k) ∧
      t.ctx r = { c with dict := (t.ctx r).dict, dictOld := (t.ctx r).dictOld } ∧ others t
    (named → s.c.dload = none → s.imageStores off = false →
      (∀ k ∈ banksOf off 512, (s.core s.cur.site s.cur.core).gated.getLsbD k = false) → Runs (.dictld a b) s fun t =>
      (∀ i, i < 64 → off + 8 * i < 524288 → Table.get 0 t.c.dict (64 * b.toNat + i) = s.dword (ownPa s (off + 8 * i))) ∧
      (∀ k, k / 64 ≠ b.toNat → Table.get 0 t.c.dict k = Table.get 0 s.c.dict k) ∧
      t.c = { s.c with
        dict := t.c.dict, dictOld := t.c.dictOld, dload := some ⟨b, off⟩, lbank := b,
        dictbase := putBits (putBits s.c.dictbase (13 * b.toNat) 13 (off / 64)) (52 + b.toNat) 1 1 } ∧
      Kept s t 0 s.issue.flow) ∧
    (named → s.c.dload ≠ none ∨ s.imageStores off = true → GivesF (.dictld a b) s s.c .stall) ∧
    (s.c.dload ≠ none → GivesF .dictfence s s.c .stall ∧ GivesF (.dictrd d a b) s s.c .stall) ∧
    (s.c.dload = none → GivesC .dictfence s { s.c with dictOld := [] } ∧
      GivesG (.dictrd d a b) s d (Table.get 0 s.c.dict (64 * b.toNat + (s.g a).toNat % 64))) ∧
    GivesC (.dictsel b) s { s.c with dactive := b } ∧
    (c.saved = false → Runs (.dictionaryLoadComplete r) s fun t => OnlyCtx s t r { c with dload := none }) ∧
    (c.saved = true → GivesNothing (.dictionaryLoadComplete r) s) ∧
    (c.st = .stopped → c.dload = none → c.saved = false →
      Runs (.debugDictionaryWrite r bank idx v) s fun t => written t ∧ t = { s with ctxs := t.ctxs }) ∧
    (c.st = .stopped → c.dload = none → c.saved = true → RealCtx r → r.site < 64 → bank < 4 → idx < 64 →
      Runs (.debugDictionaryWrite r bank idx v) s fun t => written t ∧
        StoredAt s t (savePa r (0x800 + 8 * (64 * bank + idx))) (toBytes 8 v.toNat) ∧
        t = { s with ctxs := t.ctxs, mem := t.mem, watches := t.watches }) ∧
    (c.st ≠ .stopped ∨ c.dload ≠ none → GivesNothing (.debugDictionaryWrite r bank idx v) s)

/-- R401 to R405: `lease` answers its status and starts the ramp only with status 0, `leaseq` reads the lease, `leaseend` ends the
lease of its own ASID only: the lease goes to RAMPDOWN, and cause 0x21 with TVAL 1 becomes pending in the cluster's other contexts of
that ASID. -/
def Obligations.LeaseResults : Prop :=
  ∀ (s : State) (d a : BitVec 5),
    let cl := s.cur.core / 64
    let v := s.g a
    let cfg := s.sreg s.cur.site 0x5008
    let l := (s.die s.cur.site).leaseOf cl
    let bad := bits v 13 51 ≠ 0 ∨ bits v 0 13 = 0 ∨ 5000 < bits v 0 13
    let cold := s.throttled s.cur.site = false ∧ s.refreeze s.cur.site = false
    let answers := fun n : Nat => GivesG (.lease d a) s d (BitVec.ofNat 64 n)
    (bit cfg 0 = false → answers 6) ∧ (bit cfg 0 = true → bad → answers 4) ∧
    (bit cfg 0 = true → ¬ bad → s.throttled s.cur.site = true → answers 5) ∧
    (bit cfg 0 = true → ¬ bad → s.throttled s.cur.site = false → s.refreeze s.cur.site = true → answers 2) ∧
    (bit cfg 0 = true → ¬ bad → cold → bits cfg 1 10 ≤ s.meltFrac s.cur.site → answers 1) ∧
    (bit cfg 0 = true → ¬ bad → cold → s.meltFrac s.cur.site < bits cfg 1 10 → l.st ≠ .idle → answers 3) ∧
    (bit cfg 0 = true → ¬ bad → cold → s.meltFrac s.cur.site < bits cfg 1 10 → l.st = .idle → cl < 4 →
      Runs (.lease d a) s fun t => t.g d = 0 ∧ OnlyG s t d ∧
        (t.die s.cur.site).leaseOf cl = ⟨.rampup, s.c.asid, bits v 0 13⟩ ∧ t.mem = s.mem) ∧
    GivesG (.leaseq d) s d (s.leasestat s.cur.site cl) ∧
    (l.live = false → GivesG (.leaseend d) s d 1) ∧
    (l.live = true → l.asid ≠ s.c.asid → GivesG (.leaseend d) s d 2) ∧
    (l.live = true → l.asid = s.c.asid → cl < 4 → Runs (.leaseend d) s fun t =>
      t.g d = 0 ∧ (∀ b, b ≠ d → t.g b = s.g b) ∧ t.mem = s.mem ∧
      (t.die s.cur.site).leaseOf cl = { l with st := .rampdown } ∧
      (∀ k, k < 4 → k ≠ cl → (t.die s.cur.site).leaseOf k = (s.die s.cur.site).leaseOf k) ∧
      ∀ r, RealCtx r → r.site = s.cur.site → r.core / 64 = cl → r ≠ s.cur → (s.ctx r).st ≠ .free → (s.ctx r).st ≠ .halting →
        (s.ctx r).asid = l.asid → Table.find (t.ctx r).pendAsync 0x21 = some 1)

/-! ### Contexts, gangs and launches (R179 to R187, R198, R263 to R266) -/

/-- R263 to R266: `yield` hands the core to the next READY context and changes nothing where there is none; `halt` and `halt.ret`
end their bundle and make the context HALTING; `gang` waits for the three others, answers 0 to all four where they fit and 3
where they do not, and 3 within a gang, which it leaves; `split` leaves a gang; `larm` arms a record with status 0. -/
def Obligations.SchedulingInstructionResults : Prop :=
  ∀ (s : State) (d a : BitVec 5),
    let r := s.cur
    let c := s.c
    let os := quadOthers r
    let waits := fun o : CtxRef => (s.ctx o).st = .waiting ∧ (s.ctx o).wait = .gang
    let halts := fun (i : Instr) (succ : Option (BitVec 16)) => Runs i s fun t =>
      t.c = { c with st := .halting, retain := succ, ocs := t.c.ocs, gang := false, preReq := false, testReq := false } ∧
        (c.inHandler = false → t.c.ocs = c.ocs) ∧ t.issue.flow = .ended ∧ t.mem = s.mem ∧ t.reqs = s.reqs
    let n := (s.g a).toNat
    let rec0 := s.recDw n 0
    let mine := n < 65536 ∧ n < s.recCount ∧ bits rec0 32 16 = c.asid.toNat ∧ bit rec0 3 = true
    let ready := s.drained r = true
    let apart := fun t : State => t = { s with ctxs := t.ctxs, cores := t.cores } ∧ ∀ q, CtxRef.key q ≠ CtxRef.key r → t.ctx q = s.ctx q
    (s.nextReady r.site r.core r.ctx = none → GivesNothing .yield s) ∧
    (∀ n, s.nextReady r.site r.core r.ctx = some n → r.ctx < 4 → (s.core r.site r.core).owner = some r.ctx →
      Runs .yield s fun t => t.c = { c with st := .ready } ∧
        t.ctx ⟨r.site, r.core, n⟩ = { s.ctx ⟨r.site, r.core, n⟩ with st := .running } ∧
        (t.core r.site r.core).owner = some n ∧ t = { s with ctxs := t.ctxs, cores := t.cores }) ∧
    halts .halt none ∧
    (bits (s.g a) 16 48 = 0 → halts (.haltRet a) (some ((s.g a).setWidth 16))) ∧
    (bits (s.g a) 16 48 ≠ 0 → MayTrap s → s.issue.dict = none →
      Traps (.haltRet a) s 0x02 (BitVec.ofNat 64 s.issue.word.toNat)) ∧
    (c.gang = true → Runs (.gang d) s fun t =>
      t.g d = (if d = 0 then 0 else 3) ∧ (∀ b, b ≠ d → t.g b = s.g b) ∧ t.c = { c with g := t.c.g, gang := false } ∧ apart t) ∧
    (c.gang = false → c.fired = none → (∃ o ∈ os, ¬ waits o) → Runs (.gang d) s fun t => WaitsFor s t .gang) ∧
    (c.gang = false → c.fired = none → c.st = .running → (∀ o ∈ os, waits o) → s.gangFits r = true → Runs (.gang d) s fun t =>
      t.g d = 0 ∧ (∀ b, b ≠ d → t.g b = s.g b) ∧ t.c.st = .waiting ∧ t.issue.flow = .park ∧ (∀ o ∈ os, (t.ctx o).fired = some 0) ∧
        t.mem = s.mem) ∧
    (c.gang = false → c.fired = none → c.st = .running → (∀ o ∈ os, waits o) → s.gangFits r = false → Runs (.gang d) s fun t =>
      t.g d = (if d = 0 then 0 else 3) ∧ OnlyG s t d ∧ (∀ o ∈ os, (t.ctx o).fired = some 3) ∧ t.mem = s.mem) ∧
    (c.gang = false → c.fired = some 0 → (∀ o ∈ os, (s.ctx o).wait = .gangDone) → Runs (.gang d) s fun t =>
      t.g d = 0 ∧ t.c.gang = true ∧ t.c.fired = none ∧ (∀ o ∈ os, (t.ctx o).gang = true) ∧ t.mem = s.mem) ∧
    (∀ v, c.gang = false → c.fired = some v → v ≠ 0 → Runs (.gang d) s fun t =>
      t.g d = (if d = 0 then 0 else BitVec.ofNat 64 v) ∧ t.c = { c with fired := none, g := t.c.g } ∧
        (∀ b, b ≠ d → t.g b = s.g b) ∧ Kept s t 0 s.issue.flow) ∧
    (c.gang = true → Runs .split s fun t => t.c = { c with gang := false } ∧ apart t) ∧
    (c.gang = false → MayTrap s → s.issue.dict = none → Traps .split s 0x02 (BitVec.ofNat 64 s.issue.word.toNat)) ∧
    (¬ ready → GivesF (.larm d a) s c .stall) ∧
    (ready → AtHome s → 65536 ≤ n ∨ s.recCount ≤ n → GivesG (.larm d a) s d 3) ∧
    (ready → AtHome s → n < 65536 → n < s.recCount → bits rec0 32 16 ≠ c.asid.toNat ∨ bit rec0 3 = false → GivesG (.larm d a) s d 2) ∧
    (ready → AtHome s → mine → s.recIdle n = false → GivesG (.larm d a) s d 1) ∧
    (ready → HostFree s → mine → s.recIdle n = true → (∀ l ∈ s.launches, l.lser < s.nextLser) → Runs (.larm d a) s fun t =>
      t.g d = 0 ∧ OnlyG s t d ∧ t.nextLser = s.nextLser + 1 ∧ ∃ l ∈ t.launches, l.lrec = n ∧ l.lser = s.nextLser)

/-- R357, R359 to R361: a record is armed once, when it is IDLE; a launch whose tasks are over leaves, and no task of it is left to
dispatch; the next block of a launch goes to the bridle of its die, a record for each stage, and a launch whose start had to wait
starts first; a task record that can be placed is
dispatched, in user mode (log entry 42). Where an event's premise does not hold it changes nothing: the model's choice (log entry
8). -/
def Obligations.LaunchEvents : Prop :=
  ∀ (s : State) (n site : Nat) (l : Launch),
    let start := s.launches.find? (fun x => x.lrec = n ∧ x.inflight ∧ x.code = 0 ∧ x.nextBlock < x.blocks)
    let d := (s.launchDies l).getD ((l.lseq + l.nextBlock) % (s.launchDies l).length) 0
    let tasks := (s.hub (s.phys d)).tasks
    (HostFree s → n < s.recCount → s.recIdle n = true → (∀ l ∈ s.launches, l.lser < s.nextLser) → Runs (.arm n) s fun t =>
      t.ctxs = s.ctxs ∧ t.nextLser = s.nextLser + 1 ∧ ∃ l ∈ t.launches, l.lrec = n ∧ l.lser = s.nextLser) ∧
    (AtHome s → s.recCount ≤ n ∨ s.recIdle n = false → GivesNothing (.arm n) s) ∧
    (HostFree s → s.launches.find? (fun x => x.lrec = n ∧ s.launchDone x) = some l → Runs (.complete n) s fun t =>
      t.ctxs = s.ctxs ∧ (∀ x ∈ t.launches, x.lser ≠ l.lser) ∧ ∀ h, ∀ k ∈ (t.hub h).tasks, k.lser ≠ l.lser) ∧
    (s.launches.find? (fun x => x.lrec = n ∧ s.launchDone x) = none → GivesNothing (.complete n) s) ∧
    (s.startDue n = none → start = some l → s.launchDies l ≠ [] → s.everPlaced d l = true → tasks.length + l.nstm1 + 1 ≤ 4096 →
      Runs (.blockDeal n) s fun t =>
        Aside s t ∧ (t.hub (s.phys d)).tasks = tasks ++ (List.range (l.nstm1 + 1)).map (fun st => ⟨n, l.lser, l.nextBlock, st⟩) ∧
        (∀ x ∈ t.launches, x.lser = l.lser → ∃ y ∈ s.launches, x = { y with nextBlock := y.nextBlock + 1 })) ∧
    (s.startDue n = none → start = some l → s.launchDies l ≠ [] → s.everPlaced d l = false → Runs (.blockDeal n) s fun t =>
      Aside s t ∧ t.hubs = s.hubs ∧ ∀ x ∈ t.launches, x.lser = l.lser → x.code ≠ 0 ∧ x.code ≤ 4) ∧
    (s.startDue n = none → start = none → GivesNothing (.blockDeal n) s) ∧
    (HostFree s → s.startDue n = some l → s.launch l.lser = some l → l.bcnt = 0 → bit (s.recDw n 1) 41 = false →
      Runs (.blockDeal n) s fun t => t.ctxs = s.ctxs ∧ ∃ x ∈ t.launches, x.lser = l.lser ∧ x.inflight = true) ∧
    (bit (s.sreg site 0x3608) 4 = true → GivesNothing (.dispatch site) s) ∧
    (bit (s.sreg site 0x3608) 4 = false → s.firstPlaced site (s.candidates site) = none → GivesNothing (.dispatch site) s) ∧
    (∀ task core k, bit (s.sreg site 0x3608) 4 = false → s.firstPlaced site (s.candidates site) = some (l, task, [(core, k)]) →
      l.fps = [] → k < 4 → Runs (.dispatch site) s fun t =>
        let c := t.ctx ⟨site, core, k⟩
        task ∉ (t.hub (s.phys site)).tasks ∧ c.pc = putBits (l.dw 2) 0 3 0 ∧ c.asid = l.asid ∧ c.sys = false ∧ c.slot = 0 ∧
          (c.st = .ready ∨ c.st = .running) ∧ c.task = some ⟨l.lrec, l.lser, task.block, task.stage, 0⟩ ∧
          ∀ r, CtxRef.key r ≠ CtxRef.key ⟨site, core, k⟩ → t.ctx r = s.ctx r)

/-- R367 to R369, R381: what a host queue does with its entries and with writes of its registers, and a write of TQCONS. Where an
event's premise does not hold it changes nothing: the model's choice (log entry 8). What a slot does in ERROR, while it is switched
and with a tail too far ahead follows log entry 40. -/
def Obligations.HostQueueEvents : Prop :=
  ∀ (s : State) (site slot pa n : Nat) (v : W64),
    let h := s.phys site
    let q := s.hqRun site slot
    let st := s.hqState site slot
    let prog := bits (s.hqReg site slot 0x18) 0 32
    let size := bits (s.hqReg site slot 0x08) 1 5
    let kind := bits (s.dword pa) 0 4
    let here := AtHome s ∧ s.hqNext site slot = some (n, pa)
    let rec0 := bits (s.dword pa) 16 16
    let a := (s.dword (pa + 8)).toNat / 8 * 8 % 4503599627370496
    let retired := fun t : State => (t.hqRun site slot).next = q.next + 1 ∧ (t.hqRun site slot).items = [] ∧
      t.hqReg site slot 0x18 = BitVec.ofNat 64 ((prog + 1) % 4294967296) ∧ t.ctxs = s.ctxs
    let ends := fun (i : Instr) (x : Nat) => Runs i s fun t => OnlyReg s t h (hqOff slot 0x28) (BitVec.ofNat 64 x)
    (here → kind = 0 → q.items = [] → Runs (.nopEntry site slot) s fun t => retired t ∧ t.mem = s.mem) ∧
    (here → 2 < kind → ends (.nopEntry site slot) 0x103 ∧ ends (.launchEntry site slot) 0x103 ∧ ends (.signalEntry site slot) 0x103) ∧
    (here → kind = 1 → s.recCount ≤ rec0 → ends (.launchEntry site slot) 0x203) ∧
    (here → kind = 1 → rec0 < s.recCount → s.recIdle rec0 = false → GivesNothing (.launchEntry site slot) s) ∧
    (here → kind = 1 → rec0 < s.recCount → s.recIdle rec0 = true → q.items = [] → (∀ l ∈ s.launches, l.lser < s.nextLser) →
      Runs (.launchEntry site slot) s fun t => (t.hqRun site slot).next = q.next + 1 ∧ t.ctxs = s.ctxs ∧
        (t.hqRun site slot).items = [.launch rec0 s.nextLser false] ∧
        ∃ l ∈ t.launches, l.lrec = rec0 ∧ l.lser = s.nextLser ∧ l.queue = some (site, slot)) ∧
    (here → kind = 2 → q.items ≠ [] → GivesNothing (.signalEntry site slot) s) ∧
    (here → s.Unlogged → kind = 2 → q.items = [] → s.hasTarget a = true → paRegion a = 0 →
      Runs (.signalEntry site slot) s fun t =>
        retired t ∧ StoredAt s t a (toBytes 8 (s.dword (pa + 16)).toNat)) ∧
    (slot < 4 → st = 0 ∨ st = 3 → Runs (.hqtailWrite site slot v) s fun t => OnlyReg s t h (hqOff slot 0x10) (v &&& 0xFFFFFFFF)) ∧
    (slot < 4 → st = 1 → (bits v 0 32 + 4294967296 - prog) % 4294967296 ≤ 2 ^ size → Runs (.hqtailWrite site slot v) s fun t =>
      OnlyReg s t h (hqOff slot 0x10) (v &&& 0xFFFFFFFF)) ∧
    (slot < 4 → st = 1 → 2 ^ size < (bits v 0 32 + 4294967296 - prog) % 4294967296 → Runs (.hqtailWrite site slot v) s fun t =>
      t.hqReg site slot 0x10 = v &&& 0xFFFFFFFF ∧ t.hqReg site slot 0x28 = 0x403 ∧ t = { s with hubs := t.hubs }) ∧
    (slot < 4 → st ≠ 2 → Runs (.hqctlWrite site slot v) s fun t =>
      t.hqReg site slot 0x08 = v &&& 0x3F ∧ t = { s with hubs := t.hubs } ∧
        (bit v 0 = false → t.hqReg site slot 0x28 = 0) ∧
        (bit v 0 = true → bits v 1 5 = 0 ∨ 16 < bits v 1 5 → t.hqReg site slot 0x28 = 0x303)) ∧
    (st = 2 → GivesNothing (.hqctlWrite site slot v) s ∧ GivesNothing (.hqdescWrite site slot v) s) ∧
    (slot < 4 → st ≠ 2 → q.desc = none → Runs (.hqdescWrite site slot v) s fun t =>
      t.hqReg site slot 0x20 = v &&& 0xFFFFFFFFFFFC1 ∧ t.hqReg site slot 0x28 = 2 ∧ (t.hqRun site slot).items = [] ∧
        t = { s with hubs := t.hubs }) ∧
    (slot < 4 → st = 2 → q.switch = some v → bit v 0 = false → Runs (.queueSwitchComplete site slot) s fun t =>
      t.hqReg site slot 0x28 = 0 ∧ t.hqReg site slot 0x00 = 0 ∧ (t.hqRun site slot).desc = none ∧ t = { s with hubs := t.hubs }) ∧
    (slot < 4 → st = 2 → q.switch = some v → bit v 0 = true → AtHome s → s.reqs = [] → (∀ k, (s.die k).rdc = []) →
      paRegion (bits v 6 46 * 64) < 3 → Runs (.queueSwitchComplete site slot) s fun t =>
      let d := bits v 6 46 * 64
      t.hqReg site slot 0x00 = s.dword d &&& 0xFFFFFFFFFFFC0 ∧ t.hqReg site slot 0x08 = s.dword (d + 8) &&& 0x3F ∧
        t.hqReg site slot 0x10 = s.dword (d + 16) &&& 0xFFFFFFFF ∧ t.hqReg site slot 0x18 = s.dword (d + 24) &&& 0xFFFFFFFF ∧
        (t.hqRun site slot).next = (s.dword (d + 32)).setWidth 32 ∧ (t.hqRun site slot).desc = some d ∧ t = { s with hubs := t.hubs }) ∧
    (∀ w, (s.die site).tqheld = [] → Runs (.tqconsWrite site w) s fun t =>
      OnlyDie s t site { s.die site with tqcons := w.setWidth 32 })

/-- R178 to R187, R196, R291, R371 to R380, R383: the events of a context: a cause at a bundle boundary, the end of a context, the
acceptance of a pre-emption and the resumption from the save area, the halt sequence, and the ends of waits. Where an event's
premise does not hold it changes nothing: the model's choice (log entry 8). That floor issue takes the context's turn from the
agenda is the model's too (log entry 1). -/
def Obligations.ContextEvents : Prop :=
  ∀ (s : State) (r : CtxRef) (code : Nat) (v : W64),
    let c := s.ctx r
    let d := s.die r.site
    let hidden := bits d.tqctl 0 3 = 0
    let alone := c.gang = false
    let lone := alone ∧ hidden ∧ c.inTrap = false
    let boundary := (c.st = .running ∨ c.st = .ready) ∧ c.mid = false ∧ c.redo = false ∧ c.fired = none
    let entered := fun (t : State) (cause : Nat) (w : W64) => t.ctx r = { c with
      pendAsync := (t.ctx r).pendAsync, pendStore := (t.ctx r).pendStore, st := (t.ctx r).st, wait := (t.ctx r).wait,
      trappc := putBits c.pc 0 3 c.slot.toNat, tstat := (if c.sys then 3#64 else 2#64), tcause := BitVec.ofNat 64 cause,
      tval := w, sys := true, pc := putBits c.tvec 0 3 0, slot := 0, mid := false, walkFault := none, fired := none,
      handler := true, redo := false, ahead := none }
    let same := fun t : State => t = { s with ctxs := t.ctxs } ∧ ∀ q, CtxRef.key q ≠ CtxRef.key r → t.ctx q = s.ctx q
    let quietEnd := alone ∧ s.cgroup c.asid.toNat = 0 ∧ bit (s.hreg (s.phys r.site) 0x3608) 3 = false
    let ended := fun t : State => t.ctx r = Ctx.reset ∧
      (d.tqUse < 64 → d.tqwait = [] → HostFree s → (t.die r.site).tqprod = d.tqprod + 1) ∧
      ∀ tk, c.task = some tk → ∀ x ∈ t.launches, x.lser = tk.lser → x.code ≠ 0 ∧ x.code ≤ 6
    let lim := if bits d.nplim 0 32 = 0 then 65536 else bits d.nplim 0 32
    let awake := fun t : State => (t.ctx r).st = .ready ∨ (t.ctx r).st = .running
    let s1 := (s.reserve r.site (octetOf r.core)).reserveSlots r
    let asked := c.preReq = true ∨ c.testReq = true
    let unasked := c.preReq = false ∧ c.testReq = false
    let saved := fun (t : State) (off : Nat) => t.dword (savePa r off)
    let masked := fun (off : Nat) (m : W64) => s.dword (savePa r off) &&& m
    (lone → boundary → NoneParked s r → unasked → c.pendStore = [] → (code, v) ∈ c.pendAsync → (∀ x ∈ c.pendAsync, x = (code, v) ∨ code < x.1) →
      Runs (.trapEntry r) s fun t => entered t (code % 64 + 64) v ∧ same t ∧ (t.ctx r).st = c.st ∧ (t.ctx r).wait = c.wait ∧
        (∀ x ∈ (t.ctx r).pendAsync, x.1 ≠ code) ∧ (t.ctx r).pendStore = []) ∧
    (∀ rest, lone → boundary → NoneParked s r → c.pendStore = (code, v) :: rest → (∀ x ∈ rest, code ≤ x.1) →
      Runs (.trapEntry r) s fun t => entered t (code % 64) v ∧ same t ∧ (t.ctx r).st = c.st ∧ (t.ctx r).wait = c.wait ∧
        (t.ctx r).pendStore = rest ∧ (t.ctx r).pendAsync = c.pendAsync) ∧
    (alone → unasked → c.pendStore = [] → c.pendAsync = [] → GivesNothing (.trapEntry r) s) ∧
    (alone → boundary → asked → s.mayPreempt r = true → c.pendStore = [] → Runs (.trapEntry r) s fun t =>
      (t.ctx r).st = .preempted ∧ (t.ctx r).pendAsync = c.pendAsync) ∧
    (c.fatal = some (code, v) → c.st ≠ .free → quietEnd → Runs (.endContext r) s ended) ∧
    (c.fatal = none → GivesNothing (.endContext r) s) ∧
    (c.npsec = true → lim ≤ c.npcount.toNat → c.st ≠ .free → c.st ≠ .stopped → quietEnd → Runs (.npcountLimit r) s ended) ∧
    (c.npcount.toNat < lim ∨ c.npsec = false → GivesNothing (.npcountLimit r) s) ∧
    (alone → asked → s.mayPreempt r = true → Runs (.preemptionAccept r) s fun t =>
      (t.ctx r).st = .preempted ∧ (t.ctx r).held = [] ∧ (t.ctx r).savedClaim = c.claim ∧ (t.ctx r).preReq = false ∧
        (t.ctx r).testReq = false ∧ (t.ctx r).hold = (c.preReq && c.preHold) ∧ (t.ctx r).testHold = c.testReq ∧
        (t.ctx r).chosen = (!(c.preReq && c.preHold) && !c.testReq) ∧
        (RealCtx r → r.site < 64 → c.claim ≤ 8 → (∀ q ∈ (s.octet r.site (octetOf r.core)).sfuq, q.who ≠ r) →
          (∀ i : BitVec 5, saved t (8 * i.toNat) = c.rg i) ∧ (∀ i, i < 4 → saved t (0x100 + 8 * i) = c.ls.toList.getD i 0 ∧
            saved t (0x120 + 8 * i) = c.le.toList.getD i 0) ∧
          saved t 0x150 = c.ja0 ∧ saved t 0x158 = c.ja1 ∧ saved t 0x160 = c.lr ∧ saved t 0x168 = putBits c.pc 0 3 c.slot.toNat ∧
          saved t 0x180 = c.asid.setWidth 64 ∧ saved t 0x188 = c.tcause ∧ saved t 0x190 = c.tval ∧ saved t 0x198 = c.trappc ∧
          saved t 0x1A0 = c.tstat ∧ saved t 0x1A8 = c.tvec ∧ (∀ i, i < 256 → saved t (0x800 + 8 * i) = Table.get 0 c.dict i) ∧
          ∀ (x : BitVec 4) (i : Nat), i < 32 * c.claim → i < (c.rv x).length →
            t.word (savePa r (0x1000 + 0x400 * x.toNat + 4 * i)) = lane (c.rv x) i)) ∧
    (alone → unasked ∨ s.mayPreempt r = false → GivesNothing (.preemptionAccept r) s) ∧
    (alone → c.st = .preempted → c.chosen = true → (s.core r.site r.core).retired = false → s1.reserved r = true → s1.resumeRoom [r] = true →
      Runs (.resumption r) s fun t => awake t ∧ (t.ctx r).chosen = false ∧ t.mem = s.mem ∧
        (∀ i, (t.ctx r).rg i = if i = 0 then 0 else s.dword (savePa r (8 * i.toNat))) ∧
        (t.ctx r).pc = putBits (s.dword (savePa r 0x168)) 0 3 0 ∧ (t.ctx r).lr = s.dword (savePa r 0x160) ∧
        (t.ctx r).tcause = masked 0x188 0x7F ∧ (t.ctx r).tval = s.dword (savePa r 0x190) ∧
        (t.ctx r).trappc = masked 0x198 0xFFFFFFFFFFFFFFFB ∧ (t.ctx r).tstat = masked 0x1A0 7 ∧
        (t.ctx r).tvec = masked 0x1A8 0xFFFFFFFFFFFFFFF8) ∧
    (c.st ≠ .preempted ∨ c.chosen = false → GivesNothing (.resumption r) s) ∧
    (HostFree s → c.st = .halting → s.quiet r = true → Runs (.haltSequence r) s fun t => t.ctx r = Ctx.reset) ∧
    (c.st ≠ .halting ∨ s.quiet r = false → GivesNothing (.haltSequence r) s) ∧
    (c.st = .waiting → c.wait = .gang → Runs (.gangTimeout r) s fun t => (t.ctx r).fired = some 2 ∧ t.mem = s.mem) ∧
    (∀ g : BitVec 3, lone → c.st = .waiting → c.wait = .waitb g → bits (d.girthTo.toList.getD g.toNat 0) 0 32 ≠ 0 →
      Runs (.girthTimeout r) s fun t => entered t 0x10 (s.gmissing r.site g.toNat) ∧ awake t ∧ t.mem = s.mem) ∧
    (∀ k : BitVec 3, alone → c.st = .waiting → c.wait = .waita k → k ≠ 0 → Runs (.waitaTimeout r) s fun t =>
      (t.ctx r).fired = some 4 ∧ awake t ∧ t.mem = s.mem) ∧
    (c.wait = .waita 0 → GivesNothing (.waitaTimeout r) s) ∧
    (∀ i k, alone → c.st = .waiting → c.wait = .waita k → s.firstWatch r (fun w => w.held && w.seen) = some i →
      Runs (.watchNotify r) s fun t => (t.ctx r).fired = some i ∧ awake t ∧ t.mem = s.mem) ∧
    (∀ i k, alone → s.watchReady r ((s.watches.filter fun w => w.who == r && !w.held).map (·.pa)) = (s, true) →
      c.st = .waiting → c.wait = .waita k → s.firstWatch r (fun w => !w.held && s.watchValue w.pa != w.expect) = some i →
      Runs (.watchPoll r) s fun t => (t.ctx r).fired = some i ∧ awake t ∧ t.mem = s.mem) ∧
    (c.st = .ready → (s.core r.site r.core).owner ≠ none → Runs (.floorIssue r) s fun t =>
      t = { s with agenda := .issue r :: s.agenda }) ∧
    (c.st ≠ .ready ∨ (s.core r.site r.core).owner = none → GivesNothing (.floorIssue r) s)

/-- R374, R379, R384 to R388: the pre-emption register, the halt tree, the roving self-test, checkpoint intervals, rollback and the
copies between DRAM and the keep tier: a rollback restores the lines of the group's undo records and no others, and a copy waits for
the lines that the host holds. Where an event's premise does not hold it changes nothing: the model's choice (log entry 8). That a
context within a dictionary bundle stops at its end is log entry 72, that the copy waits for the host log entry 83. -/
def Obligations.DieControlEvents : Prop :=
  ∀ (s : State) (site core g : Nat) (m : BitVec 4),
    let h := s.phys site
    let d := s.die site
    let at_ := fun i : Nat => (⟨site, core, i⟩ : CtxRef)
    let ofCore := fun x i : Nat => (⟨site, x, i⟩ : CtxRef)
    let word := fun op : Nat => core % 256 + m.toNat * 256 + op * 4096
    let gone := fun c : Ctx => c.st = .free ∨ c.st = .halting
    let asks := fun (i : Instr) (hold : Bool) =>
      (s.inRect site core = true → Runs i s fun t => t.sreg site 0x3600 = BitVec.ofNat 64 (word (if hold then 1 else 0)) ∧
        (∀ i, i < 4 → m.getLsbD i = true → ¬ gone (s.ctx (at_ i)) →
          t.ctx (at_ i) = { s.ctx (at_ i) with preReq := true, preHold := hold }) ∧
        (∀ r, (∀ i, i < 4 → m.getLsbD i = true → CtxRef.key r ≠ CtxRef.key (at_ i)) → t.ctx r = s.ctx r) ∧ t.mem = s.mem) ∧
      (s.inRect site core = false → Runs i s fun t =>
        OnlyReg s t h 0x3600 (BitVec.ofNat 64 (word (if hold then 1 else 0) + 65536)))
    let result := fun (t : State) (x : Nat) => bits (t.sreg site 0x3618) 16 2 = x
    let group := fun t : State => Table.get (⟨0, false⟩ : CkGroup) t.groups g
    let ck := fun op x : Nat => BitVec.ofNat 64 (g % 4096 + op * 4096 + x * 65536)
    let cell := fun (t : State) (k : Nat) => Table.get (0 : Byte) t.mem k
    let unmerged := ∀ q ∈ s.reqs, ∀ o dbl v l, q.kind ≠ .reduce o dbl v l
    let vacant := ∀ r ∈ s.liveCtxs, s.cgroup (s.ctx r).asid.toNat ≠ g
    let undone := s.hubs.flatMap fun e => e.2.undo.filter fun u => u.group = g && !u.dead
    let waits := fun t : State => result t 0 ∧ Aside s t ∧ (t.hub h).ckBusy = true ∧ (t.hub h).ckWait = true
    let copies := fun (t : State) (off : Nat) => result t 0 ∧ t.ctxs = s.ctxs ∧ (t.hub h).ckBusy = true ∧ (t.hub h).ckWait = false ∧
      ∀ k, k < 281474976710656 → cell t k = cell s (k + off) ∧ cell t (k + 281474976710656) = cell s (k + off)
    asks (.preEmpt site core m) false ∧ asks (.preEmptAndHold site core m) true ∧
    (s.inRect site core = true → Runs (.resumeHeldContexts site core m) s fun t => t.mem = s.mem ∧
      ∀ i, i < 4 → m.getLsbD i = true → (s.ctx (at_ i)).gang = false →
        t.ctx (at_ i) = { s.ctx (at_ i) with
          hold := false, preHold := false,
          chosen := (s.ctx (at_ i)).chosen || ((s.ctx (at_ i)).saved && !(s.ctx (at_ i)).testHold) }) ∧
    (Runs (.haltTreeStop site) s fun t => t.mem = s.mem ∧ ∀ r, RealCtx r →
      (r.site ∉ s.htDies h → t.ctx r = s.ctx r) ∧
      (r.site ∈ s.htDies h → (s.ctx r).st ≠ .free → (s.ctx r).st ≠ .stopped → (s.ctx r).mid = false →
        t.ctx r = { s.ctx r with prior := (s.ctx r).st, st := .stopped } ∧ (t.core r.site r.core).owner ≠ some r.ctx ∧
          bit (t.sreg r.site 0x3608) 4 = true) ∧
      (r.site ∈ s.htDies h → (s.ctx r).st ≠ .stopped → (s.ctx r).mid = true →
        (t.ctx r).st ≠ .stopped ∧ (t.ctx r).pc = (s.ctx r).pc ∧ (t.ctx r).slot = (s.ctx r).slot)) ∧
    (Runs (.haltTreeRelease site) s fun t => t.mem = s.mem ∧ ∀ r, RealCtx r → r.site ∈ s.htDies h → (s.ctx r).st = .stopped →
      (s.ctx r).prior ≠ .stopped → (t.ctx r).st ≠ .stopped ∧ bit (t.sreg r.site 0x3608) 4 = false) ∧
    (∀ c, bit d.stctl 0 = true → d.testing = none → s.nextTested site = some c → Runs (.selfTestStart site) s fun t =>
      (t.die site).testing.map (·.1) = some c ∧ bits (t.die site).ststat 0 9 = c + 256 ∧ t.mem = s.mem ∧
        ∀ i, i < 4 → ¬ gone (s.ctx (ofCore c i)) → t.ctx (ofCore c i) = if (s.ctx (ofCore c i)).saved then
          { s.ctx (ofCore c i) with testHold := true, chosen := false } else { s.ctx (ofCore c i) with testReq := true }) ∧
    (bit d.stctl 0 = false ∨ d.testing ≠ none → GivesNothing (.selfTestStart site) s) ∧
    (∀ c l, d.testing = some (c, l) → s.testReady site c = false → Runs (.selfTestWithdraw site) s fun t =>
      (t.die site).testing = none ∧ t.mem = s.mem ∧
        (t.die site).ststat = putBits (putBits d.ststat 8 1 0) 9 7 (min 127 (bits d.ststat 9 7 + 1))) ∧
    (∀ c l, d.testing = some (c, l) → s.testReady site c = true → Runs (.selfTestResult site true) s fun t =>
      (t.die site).testing = none ∧ t.mem = s.mem ∧
        (t.die site).ststat = putBits (putBits d.ststat 8 1 0) 32 32 (bits d.ststat 32 32 + 1)) ∧
    (∀ c l, d.testing = some (c, l) → s.testReady site c = true → Runs (.selfTestResult site false) s fun t =>
      (t.die site).testing = none ∧ (t.core site c).retired = true ∧
        (t.die site).ststat = putBits (putBits d.ststat 8 1 0) 16 16 (bits d.ststat 16 16 + 1)) ∧
    (g ≠ 0 → s.groupLive g = false → Runs (.openInterval site g) s fun t => Aside s t ∧ group t = ⟨1, false⟩ ∧ t.sreg site 0x3618 = ck 1 1) ∧
    (g ≠ 0 → s.groupLive g = true → Runs (.openInterval site g) s fun t => OnlyReg s t h 0x3618 (ck 1 3)) ∧
    (Runs (.closeInterval site g) s fun t => Aside s t ∧ t.sreg site 0x3618 = ck 2 1 ∧
      ((group s).st = 1 → group t = ⟨0, (group s).ovf⟩)) ∧
    (0 ∉ s.rollbacks → Runs (.rollBack site 0) s fun t => OnlyReg s t h 0x3618 (BitVec.ofNat 64 (3 * 4096 + 65536))) ∧
    (g ≠ 0 → unmerged → Runs (.rollBack site g) s fun t => result t 1 ∧
      (vacant → (group t).st = if (group s).ovf = true ∨ (group s).st = 0 then 3 else 2) ∧
      (vacant → (group s).st = 1 → (group s).ovf = false → (∀ e ∈ s.dies, e.2.tqwait = []) →
        (∀ u ∈ undone, u.data.length = 128) → (undone.Pairwise fun u x => ∀ i j, i < 128 → j < 128 →
          s.canon (u.line * 128 + i) ≠ s.canon (x.line * 128 + j)) →
        (∀ u ∈ undone, ∀ i, i < 128 → t.byte (u.line * 128 + i) = u.data.getD i 0) ∧
        ∀ x, (∀ u ∈ undone, ∀ i, i < 128 → s.canon x ≠ s.canon (u.line * 128 + i)) → t.byte x = s.byte x) ∧
      ∀ r, RealCtx r → (s.ctx r).st ≠ .free → s.cgroup (s.ctx r).asid.toNat = g → t.ctx r = Ctx.reset) ∧
    (s.busyTasks = true → Runs (.copyDramToKeep site) s (fun t => result t 3 ∧ Aside s t) ∧
      Runs (.copyKeepToDram site) s (fun t => result t 3 ∧ Aside s t)) ∧
    (State.Inv s → s.busyTasks = false → s.ckHeld = [] → Runs (.copyDramToKeep site) s (fun t => copies t 0) ∧
      Runs (.copyKeepToDram site) s (fun t => copies t 281474976710656)) ∧
    (s.busyTasks = false → s.ckHeld ≠ [] → Runs (.copyDramToKeep site) s waits ∧ Runs (.copyKeepToDram site) s waits) ∧
    ((s.hub h).ckBusy = true → s.rollbacks = [] → (s.hub h).ckWait = false → Runs (.checkpointOpDone site) s fun t => result t 1 ∧ (t.hub h).ckBusy = false ∧ t = { s with hubs := t.hubs }) ∧
    ((s.hub h).ckBusy = false ∨ s.rollbacks ≠ [] → GivesNothing (.checkpointOpDone site) s)

/-- R94 to R96, R193, R298, R419: memory errors and the patrol scrub, and the barrier's phase, packets and multicast. Where an event's
premise does not hold it changes nothing: the model's choice (log entry 8). -/
def Obligations.ErrorAndBarrierEvents : Prop :=
  ∀ (s : State) (site core line g src id : Nat) (q : Mcast),
    let d := s.die site
    let home := lineHome line
    let up := fun (h off field : Nat) => putBits (s.sreg h off) (16 * field) 16 (min 65535 (bits (s.sreg h off) (16 * field) 16 + 1))
    let v := s.sreg site 0x2008
    let n := bits v 7 29
    let seen := s.mcasts.find? (fun m => m.id = id) = some q
    let poisoned := fun (t : State) (line home : Nat) => line ∈ t.poison ∧ (∀ x, x ≠ line → (x ∈ t.poison ↔ x ∈ s.poison)) ∧
      t.sreg home 0x2020 = BitVec.ofNat 64 (1 + line % 35184372088832 * 128)
    let scrubbed := fun t : State => t.sreg site 0x2008 =
      if n < 536870911 then putBits v 7 29 (n + 1) else putBits (putBits v 7 29 0) 36 12 (bits v 36 12 + 1)
    let regs := fun (t : State) (l : List Nat) => (∀ o, o ≠ 0x2008 → o ∉ l → t.sreg site o = s.sreg site o) ∧
      ∀ k, k ≠ s.phys site → t.hub k = s.hub k
    let e := (s.core site core).region g
    let fatal := fun (t : State) (r : CtxRef) (pa : Nat) =>
      (s.ctx r).st ≠ .free → (t.ctx r).fatal = some (0x30, BitVec.ofNat 64 pa)
    (Runs (.uncorrectableError (.memLine line)) s fun t => poisoned t line home ∧
      t.sreg home 0x2018 = up home 0x2018 (if paRegion (line * 128) = 1 then 3 else 2) ∧
      t = { s with poison := t.poison, hubs := t.hubs }) ∧
    (Runs (.uncorrectableError (.l1Line site core line)) s fun t => (t.core site core).l1 = (s.core site core).l1.filter (·.line ≠ line) ∧
      t.sreg site 0x2010 = up site 0x2010 1 ∧ t = { s with cores := t.cores, hubs := t.hubs }) ∧
    (Runs (.uncorrectableError (.icLine site core line)) s fun t => (t.core site core).ic = (s.core site core).ic.filter (·.line ≠ line) ∧
      t.sreg site 0x2010 = up site 0x2010 1 ∧ t = { s with cores := t.cores, hubs := t.hubs }) ∧
    (∀ l, s.rdcFind site line = some l → Runs (.uncorrectableError (.rdcLine site line)) s fun t =>
      (t.die site).rdc = (s.die site).rdc.filter (·.line ≠ line) ∧
        (∀ k, k < 256 → (t.core site k).l1 = (s.core site k).l1.filter (·.line ≠ line)) ∧
        (l.dirty.any id = true → poisoned t line l.home ∧ t.sreg site 0x2018 = up site 0x2018 1) ∧
        (l.dirty.any id = false → t.poison = s.poison ∧ t.sreg site 0x2010 = up site 0x2010 1) ∧
        t = { s with dies := t.dies, cores := t.cores, poison := t.poison, hubs := t.hubs }) ∧
    (s.rdcFind site line = none → GivesNothing (.uncorrectableError (.rdcLine site line)) s) ∧
    (∀ l, s.l2.find? (fun x => x.line = line) = some l → Runs (.uncorrectableError (.l2Line line)) s fun t =>
      (l.dirty = true → poisoned t line l.home ∧ t.sreg l.home 0x2018 = up l.home 0x2018 1) ∧
        (l.dirty = false → t.poison = s.poison ∧ t.sreg l.home 0x2010 = up l.home 0x2010 1) ∧
        (l.host = false → s.ownerOf line = none → t.l2 = s.l2.filter (·.line ≠ line)) ∧
        t = { s with l2 := t.l2, poison := t.poison, hubs := t.hubs }) ∧
    (s.inL2 line = false → GivesNothing (.uncorrectableError (.l2Line line)) s) ∧
    (∀ off, off % 8 = 0 → off < 524288 → Runs (.uncorrectableError (.localWord site core off)) s fun t =>
      t.sreg site 0x2018 = up site 0x2018 0 ∧
        (0x16000 ≤ off → (s.core site core).overlaps (off / 64) 1 = false → site < 64 → core < 256 →
          StoredAt s t (lmemPa site core off) (toBytes 8 0) ∧ t.ctxs = s.ctxs) ∧
        (off < 0x2000 → fatal t ⟨site, core, off / 0x800⟩ (lmemPa site core off))) ∧
    (e.used = true → Runs (.uncorrectableError (.regionEntry site core g)) s fun t =>
      (t.core site core).region g = e.freed ∧ t.sreg site 0x2018 = up site 0x2018 0 ∧ t.mem = s.mem ∧
        ∀ x ∈ e.holders, fatal t (holderRef site core x) (lmemPa site core (64 * e.base))) ∧
    (e.used = false → GivesNothing (.uncorrectableError (.regionEntry site core g)) s) ∧
    (bit (s.sreg site 0x2000) 0 = false → ∀ f, GivesNothing (.patrolScrub site f) s) ∧
    (bit (s.sreg site 0x2000) 0 = true →
      Runs (.patrolScrub site .clean) s (fun t => scrubbed t ∧ regs t [] ∧ t = { s with hubs := t.hubs, tick := s.tick + 1 }) ∧
      Runs (.patrolScrub site .corrected) s (fun t => scrubbed t ∧ regs t [0x2010] ∧ t.sreg site 0x2010 = up site 0x2010 2 ∧
        t = { s with hubs := t.hubs, tick := s.tick + 1 }) ∧
      Runs (.patrolScrub site .uncorrectable) s (fun t => scrubbed t ∧ regs t [0x2018, 0x2020] ∧
        t.sreg site 0x2018 = up site 0x2018 2 ∧ poisoned t (mkPa 0 site (128 * n) / 128) site ∧
        t = { s with hubs := t.hubs, poison := t.poison, tick := s.tick + 1 })) ∧
    (s.gmoduleDone site g = true → (∀ m ∈ s.gmods site g, d.reported g (64 + m + 32 * d.gphase g) = true) →
      (s.gspans site g = false ∨ d.reported g site = true) → Runs (.phaseComplete site g) s fun t =>
        (t.die site).girthPhase = d.girthPhase ^^^ (1#8 <<< g) ∧ t.mem = s.mem ∧
        ∀ r x, RealCtx r → r.site = site → (s.ctx r).st = .waiting → (s.ctx r).wait = .waitb x → x.toNat = g → (t.ctx r).fired = some 0) ∧
    (s.gmoduleDone site g = false → GivesNothing (.phaseComplete site g) s) ∧
    (q ∈ s.mcasts → q.msg = .barrier g src → q.hub = s.phys site → site ∈ q.dests → q.path = [] → s.mcastFirst q = true →
      Runs (.barrierPacket site g src) s fun t => Aside s t ∧ (g, src) ∈ (t.die site).barrier) ∧
    (∀ k x rest, seen → s.mcastFirst q = true → q.path = x :: rest → Runs (.multicastBranch ⟨id, k⟩) s fun t =>
      t = { s with mcasts := (s.mcasts.filter fun m => m.id != id) ++
        [{ q with hub := x.hub, from_ := q.hub, y := x.y, relay := x.relay, path := rest }] }) ∧
    (∀ k y, seen → s.mcastFirst q = true → q.path = [] → (s.mcastPorts q)[k]? = some y →
      let part := q.dests.filter fun x => s.phys x ≠ q.hub ∧ nextHop q.hub (s.phys x) = y
      Runs (.multicastBranch ⟨id, k⟩) s fun t => t = { s with mcasts := t.mcasts, nextId := s.nextId + 1 } ∧
        t.mcasts.getLast? = some ⟨s.nextId, q.msg, y, q.hub, q.y, q.relay, part, []⟩ ∧
        ∀ m ∈ t.mcasts, m.id = id → m.id ≠ s.nextId → ∀ x ∈ part, x ∉ m.dests) ∧
    (∀ k, seen → s.mcastFirst q = true → q.path = [] → (s.mcastPorts q)[k]? = none → GivesNothing (.multicastBranch ⟨id, k⟩) s) ∧
    (∀ k, seen → s.mcastFirst q = false → GivesNothing (.multicastBranch ⟨id, k⟩) s)

/-- R389 to R396, R401, R402, R406 to R412: the events of a site's power control: voltage steps, stall samples, the ends of leases and
of their ramps, melt and throttle, row withholding (a row at TWH, and over the budget the hottest row that is still open), the energy
flush and the die's gate. Where an event's premise does not hold it changes nothing: the model's choice (log entry 8). -/
def Obligations.PowerEvents : Prop :=
  ∀ (s : State) (site core cl row n : Nat) (v : W64),
    let h := s.phys site
    let l := (s.die site).leaseOf cl
    let lease := fun t : State => (t.die site).leaseOf cl
    let told := fun (t : State) (why : Nat) => ∀ r, RealCtx r → r.site = site → clusterOf r.core = cl → (s.ctx r).asid = l.asid →
      (s.ctx r).st ≠ .free → (s.ctx r).st ≠ .halting → Table.find (t.ctx r).pendAsync 0x21 = some (BitVec.ofNat 64 why)
    let noLease := fun t : State => ∀ k, ((t.die site).leaseOf k).live = false
    let rows := fun r : Nat => s.vcode site (4 * cl + r) = s.rowTarget site (4 * cl + r)
    let tgt := s.rowTarget site row
    let code := s.vcode site row
    let cfg := s.sreg site 0x5008
    let refreezes := if s.refreeze site then ¬ min 1000 n < bits cfg 21 10 else bits cfg 11 10 < min 1000 n
    let thr := s.sreg site 0x5018
    let ordered := bits v 21 10 < bits v 1 10 ∧ bits v 1 10 ≤ bits v 11 10 ∧ bits v 11 10 ≤ 1000
    let twh := bits (s.sreg site 0x5020) 20 7
    let cool := fun temp power : Nat => temp + 5 ≤ twh ∧ 10 * power < 9 * s.budget site
    let w := s.sreg site 0x3400
    let closed := fun temp : Nat => if twh ≤ temp then putBits w row 1 1 else w
    let reads := fun temp x : Nat => if x = row then temp else Table.get 0 (s.die site).rowTemp x
    let rowW := fun (temp power : Nat) (x : W64) => Runs (.rowWithhold site row temp power) s fun t =>
      t = { s with hubs := t.hubs, dies := t.dies } ∧ t.sreg site 0x3400 = x ∧ (∀ o, o ≠ 0x3400 → t.sreg site o = s.sreg site o) ∧
        t.die site = { s.die site with rowTemp := Table.set 0 (s.die site).rowTemp row temp } ∧ ∀ k, k ≠ site → t.die k = s.die k
    let now := fun (temp : Nat) (cur ext : Bool) => s.alarms site (s.junction site temp) cur ext
    let left := s.alarms site (bit thr 1) (bit thr 2) (bit thr 4)
    let apart := ∀ d, d < s.nSites → d ≠ site → s.phys d ≠ h
    (code < tgt → tgt < 64 → Runs (.voltageStep site row) s fun t => t.vcode site row = code + 1 ∧ Aside s t) ∧
    (tgt < code → Runs (.voltageStep site row) s fun t => t.vcode site row = code - 1 ∧ Aside s t) ∧
    (code = tgt → Runs (.voltageStep site row) s fun t => t = { s with cores := t.cores }) ∧
    (∀ idle cycles, Runs (.stallSample site core idle cycles 0) s fun t =>
      (t.core site core).stall = min 255 (256 * idle / cycles) ∧ t.mem = s.mem) ∧
    (∀ idle cycles, s.busyCtxs site core = [] → n ≠ 0 → Runs (.stallSample site core idle cycles n) s fun t =>
      Table.get 0 (t.hub h).energy 0 = Table.get 0 (s.hub h).energy 0 + n + Config.energy s.tick ∧ Aside s t) ∧
    (l.live = true → Runs (.leaseTimerExpiry site cl) s fun t => lease t = { l with st := .rampdown } ∧ told t 0 ∧ t.mem = s.mem) ∧
    (l.live = false → GivesNothing (.leaseTimerExpiry site cl) s) ∧
    (cl < 4 → l.st = .rampup → (∀ r, r < 4 → rows r) → Runs (.rampupComplete site cl) s fun t =>
      lease t = { l with st := .sprint } ∧ Aside s t) ∧
    (cl < 4 → l.st = .rampdown → (∀ r, r < 4 → rows r) → (∀ k, k < 64 → 1 ≤ (s.core site (64 * cl + k)).div) →
      Runs (.rampdownComplete site cl) s fun t => lease t = { l with st := .idle } ∧ t = { s with dies := t.dies, hubs := t.hubs, tick := t.tick }) ∧
    (¬ (∀ r, r < 4 → rows r) → GivesNothing (.rampupComplete site cl) s ∧ GivesNothing (.rampdownComplete site cl) s) ∧
    (refreezes → Runs (.meltEstimate site n) s fun t => t.sreg site 0x5000 = BitVec.ofNat 64 (min 1000 n + 1024) ∧ t.mem = s.mem ∧
      (s.refreeze site = false → noLease t)) ∧
    (¬ refreezes → Runs (.meltEstimate site n) s fun t => OnlyReg s t h 0x5000 (BitVec.ofNat 64 (min 1000 n))) ∧
    (∀ temp cur ext, bit thr 0 = false → now temp cur ext ≠ 0 → apart → Runs (.throttleStart site ⟨temp, cur, ext⟩) s fun t =>
      t.sreg site 0x5018 = BitVec.ofNat 64 (1 + now temp cur ext * 2 + (bits thr 16 16 + 1) % 65536 * 65536) ∧ noLease t ∧ t.mem = s.mem) ∧
    (∀ temp cur ext, bit thr 0 = true → apart → Runs (.throttleStart site ⟨temp, cur, ext⟩) s fun t =>
      t.sreg site 0x5018 = putBits thr 1 5 (now temp cur ext) ∧ t.die site = s.die site ∧ t.mem = s.mem) ∧
    (∀ temp cur, Runs (.throttleStart site ⟨temp, cur, true⟩) s fun t =>
      t.mem = s.mem ∧ ∀ k, k < s.nSites → bit (t.sreg k 0x5018) 0 = true) ∧
    (bit thr 0 = true → left = 0 → Runs (.throttleEnd site) s fun t =>
      t.sreg site 0x5018 = putBits thr 0 6 0 ∧ t.mem = s.mem ∧ ∀ r, RealCtx r → r.site = site → (s.ctx r).st ≠ .free →
        (s.ctx r).st ≠ .halting → bit (s.ctx r).pwrreq 8 = true → Table.find (t.ctx r).pendAsync 0x22 = some 3) ∧
    (bit thr 0 = false ∨ left ≠ 0 → GivesNothing (.throttleEnd site) s) ∧
    (ordered → Runs (.leasecfgKill site v) s fun t => t.sreg site 0x5008 = v &&& 0x7FFFFFFF ∧ t.mem = s.mem ∧ (bit v 31 = true → noLease t)) ∧
    (¬ ordered → GivesNothing (.leasecfgKill site v) s) ∧
    (∀ temp power, s.budget site < power → (∀ x, x < 16 → x ≠ row → bit w x = true) → bit (closed temp) row = true →
      rowW temp power (closed temp)) ∧
    (∀ temp power r, row < 16 → r < 16 → s.budget site < power → bit (closed temp) r = false →
      (∀ x, x < 16 → x ≠ r → bit (closed temp) x = false → reads temp x < reads temp r) →
      rowW temp power (putBits (closed temp) r 1 1)) ∧
    (∀ temp power, power ≤ s.budget site → cool temp power → rowW temp power (putBits w row 1 0)) ∧
    (∀ temp power, power ≤ s.budget site → ¬ cool temp power → rowW temp power (closed temp)) ∧
    (HostFree s → bit (s.sreg site 0x5038) 0 = true → Runs (.energyFlush site) s fun t => (t.hub h).energy = [] ∧ t.ctxs = s.ctxs) ∧
    (bit (s.sreg site 0x5038) 0 = false → GivesNothing (.energyFlush site) s) ∧
    (∀ a k, let pa := bits (s.sreg site 0x5038) 12 40 * 4096 + 8 * a
      State.Inv s → HostFree s → s.Unlogged → bit (s.sreg site 0x5038) 0 = true → (s.hub h).energy = [(a, k)] → paRegion pa = 0 →
        s.hasTarget pa = true → 
        Runs (.energyFlush site) s fun t => t.dword pa = s.dword pa + BitVec.ofNat 64 k) ∧
    (State.Inv s → site < 64 → bit (s.sreg site 0x5030) 0 = true → (s.die site).gated = false → s.dieIdle site = true →
      Runs (.dieGate site) s fun t => (t.die site).gated = true ∧ (t.die site).tlb = [] ∧ t.ctxs = s.ctxs ∧
        ∀ o, o < 134217728 → t.byte (mkPa 3 site o) = 0) ∧
    (s.dieIdle site = false → GivesNothing (.dieGate site) s) ∧
    ((s.hub h).tasks ≠ [] → Runs (.dieWake site) s fun t => OnlyDie s t site { s.die site with gated := false })

/-- R91, R413, R422 to R429, R436: the start of the module, its failures and power events; each hub's way from OFF through the stitch
wave, test, COMMIT and SERVE; writes of hub registers; quotes. Where an event's premise does not hold it changes nothing: the
model's choice (log entry 8). The quote and the check of the manifest are free values (log entry 7); what a start leaves follows log
entry 51, which of several offers of clock counts as the first log entry 74. -/
def Obligations.BringUpEvents : Prop :=
  ∀ (s : State) (hub off port : Nat) (v : W64),
    let u := s.hub hub
    let live := s.mainPower = true ∧ s.halter = false
    let begun := fun t : State => t.mainPower = true ∧ t.starting = true ∧ t.stage = 1 ∧ t.sites = [] ∧
      (∀ k, k < 64 → (t.hub k).st = .off) ∧ bits t.bootstat 16 32 = (bits s.bootstat 16 32 + 1) % 4294967296 ∧
      ∀ r, t.ctx r = State.reset.ctx r
    let becomes := fun (t : State) (x : Hub) => t.hub hub = x ∧ (∀ k, k ≠ hub → t.hub k = s.hub k) ∧
      t = { s with hubs := t.hubs, stage := t.stage }
    let turns := fun (i : Instr) (x : Hub) => Runs i s fun t => becomes t x
    let m := s.manifestBytes hub
    let hash := fun k : Nat => part m (104 + 32 * k) 32
    let named := s.namedBy hub
    let masked := fun rw : W64 => (s.hreg hub off &&& ~~~rw) ||| (v &&& rw)
    let locks := fun p : Nat => Runs (.clockLock hub) s fun t => t.hub hub = { u with st := .clocked, parent := p } ∧
      t = { s with hubs := t.hubs, stage := t.stage } ∧
      (∀ n ∈ neighbours hub, (s.hub n.2).st = .off → (s.hub n.2).offer = none →
        (t.hub n.2).offer = some (oppositeCode n.1, s.tick)) ∧
      ∀ k, k ≠ hub → t.hub k = { s.hub k with offer := (t.hub k).offer }
    let tests := fun (lg : Bool) (l : List W64) (st : HubState) => Runs (.hubTestResult hub lg l) s fun t =>
      (t.hub hub).st = st ∧ (∀ i, i < 12 → t.hreg hub (0x200 + 8 * i) = l.getD i 0) ∧ bit (t.hreg hub 0x268) 0 = lg ∧ (∀ k, k ≠ hub → t.hub k = s.hub k) ∧
        t = { s with hubs := t.hubs, stage := t.stage }
    let site := s.siteOf hub
    (s.mainPower = true → GivesNothing .powerOn s) ∧
    (s.mainPower = false → s.halter = false → s.starting = false → Runs .powerOn s begun) ∧
    (s.mainPower = false → s.halter = true → Runs .powerOn s fun t => t.mainPower = true ∧
      ∀ k, k < 64 → (t.hub k).st = if edgeHub k then .linked else .off) ∧
    (edgeHub hub = true → live → s.starting = false → Runs (.bootcmdStart hub) s begun) ∧
    (edgeHub hub = false ∨ s.mainPower = false ∨ s.halter = true → GivesNothing (.bootcmdStart hub) s) ∧
    (live → u.st = .off → hub < 64 → edgeHub hub = true → locks 0) ∧
    (∀ n ∈ neighbours hub, ∀ t0, live → u.st = .off → hub < 64 → edgeHub hub = false → u.offer = some (n.1, t0) →
      (s.hub n.2).st.offers = true → locks n.1) ∧
    (∀ n, live → u.st = .off → hub < 64 → edgeHub hub = false → u.offer = none →
      (neighbours hub).find? (fun n => (s.hub n.2).st.offers) = some n → locks n.1) ∧
    (u.st ≠ .off ∨ (edgeHub hub = false ∧ ∀ n ∈ neighbours hub, (s.hub n.2).st.offers = false) → GivesNothing (.clockLock hub) s) ∧
    (u.st = .clocked → turns (.linkTrain hub) { u with st := .linked, linked := true } ∧ turns (.clockedTimeout hub) { u with st := .failed }) ∧
    (u.st ≠ .clocked → GivesNothing (.linkTrain hub) s ∧ GivesNothing (.clockedTimeout hub) s) ∧
    (∀ lg l, u.st = .linked → s.halter = false → hubGood lg l = false → tests lg l .failed) ∧
    (∀ lg l, u.st = .linked → s.halter = false → hubGood lg l = true → s.badPairs hub l = [] → tests lg l .tested) ∧
    (∀ lg l, u.st = .linked → s.halter = false → hubGood lg l = true → s.badPairs hub l ≠ [] →
      (∀ k ∈ s.badPairs hub l, (s.hub k).st ≠ .linked) → tests lg l .failed) ∧
    (∀ lg l, u.st = .linked → s.halter = false → hubGood lg l = true → (∃ k ∈ s.badPairs hub l, (s.hub k).st = .linked) →
      GivesNothing (.hubTestResult hub lg l) s) ∧
    (u.st = .linked → s.halter = false → turns (.hubTestTimeout hub) { u with st := .failed }) ∧
    (∀ e, s.bootHears hub = true → s.manifestErr hub m = some e → turns (.commit hub) { u with cfgerr := e }) ∧
    (s.bootHears hub = true → s.manifestErr hub m = none → s.halter = false → Runs (.commit hub) s fun t =>
      t.manifest = Config.sha256 (part m 0 2152) ∧ t.ctxs = s.ctxs ∧ t.mem = s.mem ∧ ∀ k, k < 64 → (s.hub k).st = .tested →
        (t.hub k).st = if hash k = s.configHash k then .configured else .tested) ∧
    (s.bootHears hub = false → GivesNothing (.commit hub) s ∧ GivesNothing (.serve hub) s) ∧
    (s.bootHears hub = true → s.halter = false → u.st = .configured → named ≠ [] → (∀ k ∈ hub :: named, s.serveErr named k = none) →
      Runs (.serve hub) s fun t => t.starting = false ∧ Aside s t ∧
        t.sites = ((List.range (bits (s.hreg hub 0x1200) 0 7)).map fun i => (s.remapOf hub i).2) ∧
        ∀ k, (s.hub k).st = .configured → (t.hub k).st = if k ∈ named then .serving else .off) ∧
    (s.bootHears hub = true → s.halter = false → u.st ≠ .configured → turns (.serve hub) { u with cfgerr := 5 }) ∧
    (∀ e, off ∈ configOffs → hubReg off = some e → u.st = .tested → Runs (.configSetWrite hub off v) s fun t =>
      OnlyReg s t hub off (masked e.rw)) ∧
    (∀ e, off ∈ configOffs → hubReg off = some e → u.st = .configured → Runs (.configSetWrite hub off v) s fun t =>
      (t.hub hub).st = .tested ∧ t.hreg hub off = masked e.rw ∧ t = { s with hubs := t.hubs }) ∧
    (off ∉ configOffs ∨ (u.st ≠ .tested ∧ u.st ≠ .configured) → GivesNothing (.configSetWrite hub off v) s) ∧
    (∀ x ∈ ([(0x2000, 0xFF), (0x3628, 0xFFFFFFFFFFFFF), (0x3630, 0xFFFFFFFFFF), (0x3640, 0xFFFFFFFFFFFFFFFF),
        (0x5010, 0xFFFFFF), (0x5020, 0x7FFFFFF), (0x5028, 0x7F), (0x5030, 0x1FFFF)] : List (Nat × W64)),
      off = x.1 → Runs (.registerWrite hub off v) s fun t => OnlyReg s t hub off (masked x.2)) ∧
    (off = 0x2028 → bits v 0 16 ≠ 0 → Runs (.registerWrite hub off v) s fun t => OnlyReg s t hub off (masked 0xFFFF)) ∧
    (off = 0x2028 → bits v 0 16 = 0 → Runs (.registerWrite hub off v) s fun t => t.hreg hub off = masked 0xFFFF ∧
      t = { s with hubs := t.hubs, cores := t.cores } ∧ ∀ core k n, core < 256 → ((s.core site core).region k).state = .retained n →
        (t.core site core).region k = ((s.core site core).region k).freed) ∧
    (hubReg off = none → GivesNothing (.registerWrite hub off v) s) ∧
    (Runs (.huberrErrntClear hub) s fun t => OnlyReg s t hub 0x1800 (s.hreg hub 0x1800 &&& ~~~1)) ∧
    (Runs (.poisonaddrValidClear hub) s fun t => OnlyReg s t hub 0x2020 (s.hreg hub 0x2020 &&& ~~~1)) ∧
    (s.starting = true → bits s.bootstat 4 2 < 2 → Runs .startFailure s fun t => t = { s with
      bootstat := putBits (putBits s.bootstat 0 4 s.stage) 4 2 (bits s.bootstat 4 2 + 1), starting := false }) ∧
    (s.starting = true → 2 ≤ bits s.bootstat 4 2 → Runs .startFailure s fun t => t.halter = true ∧ t.starting = false ∧ t.sites = []) ∧
    (s.starting = false → GivesNothing .startFailure s) ∧
    (Runs .standbyPowerRemoval s fun t => t = { s with standby := false, bootstat := 0 }) ∧
    (s.standby = false → Runs .standbyPowerApplied s fun t => t = { s with standby := true, bootstat := 0 }) ∧
    (s.standby = true → GivesNothing .standbyPowerApplied s) ∧
    (Runs .mainPowerLoss s fun t => t.mainPower = false ∧ t.starting = false ∧ t.standby = s.standby ∧ t.ctxs = State.reset.ctxs ∧
      ∀ k, Table.get (0 : Byte) t.mem k = if k / 281474976710656 = 1 ∨ 8 ≤ k / 281474976710656 then Table.get (0 : Byte) s.mem k else 0) ∧
    (port < 16 → Runs (.hostPortTrain port false) s fun t => t = { s with ports := s.ports &&& ~~~(1#16 <<< port) }) ∧
    (port < 16 → (s.hub (cxlHub port)).st ≠ .failed → s.mainPower = true → Runs (.hostPortTrain port true) s fun t =>
      t = { s with ports := s.ports ||| (1#16 <<< port) }) ∧
    (16 ≤ port ∨ (s.hub (cxlHub port)).st = .failed → GivesNothing (.hostPortTrain port true) s) ∧
    (edgeHub hub = true → bit (s.hreg hub 0x6030) 2 = false → Runs (.quote hub) s fun t => t.hreg hub 0x6030 = 4 ∧
      t = { s with hubs := t.hubs } ∧
      ∀ i, i < 29 → t.hreg hub (0x10000 + 8 * i) = BitVec.ofNat 64 (ofBytes (part (s.quoteBody hub) (8 * i) 8))) ∧
    (edgeHub hub = true → bit (s.hreg hub 0x6030) 2 = true → GivesNothing (.quote hub) s ∧
      Runs (.quoteDone hub) s fun t => OnlyReg s t hub 0x6030 2)

/-- R14, R138, R352, R420, R421, R430 to R433, R437: host and test-port accesses, the answers that go out, messages of the sideband, and
module links. Where an event's premise does not hold it changes nothing: the model's choice (log entry 8). The answers of standard
protocols follow log entry 53, the decoders of the host's ports log entry 87. -/
def Obligations.HostAndLinkEvents : Prop :=
  ∀ (s : State) (port addr pa off hub id : Nat),
    let line := s.lineOf pa
    let decoded := s.portUp port = true ∧ s.halter = false ∧ s.hdmPa port addr = some pa
    let there := decoded ∧ paRegion pa = 0 ∧ s.hasTarget pa = true ∧ s.ownerOf line = none
    let nowhere := decoded ∧ s.hasTarget pa = false
    let calm := ∀ e ∈ s.dies, e.2.tqwait = []
    let entry := bits (s.sreg 0 (0x1B80 + 8 * (s.link port).peer)) 0 5
    let sends := fun (i : Instr) (o : Out) => Runs i s fun t => t = { s with out := s.out ++ [o] }
    let word := fun w : W64 => Out.reply (toBytes 8 w.toNat)
    let k := off / 16777216 % 64
    let o := off % 16777216
    let ap := s.portUp port = true ∧ off / 2147483648 % 2 = 1
    let up := s.treeReach 64 k = true
    let b2 := bar2Pa off
    let local_ := fun n : Nat => s.portUp port = true ∧ (n = 1 ∨ n = 2 ∨ n = 4 ∨ n = 8) ∧ off % n = 0 ∧ off < 68719476736 ∧
      s.hasTarget b2 = true ∧ off / 134217728 % 8 = 0
    let band := (hub = 0 ∨ hub = 63) ∧ s.standby = true
    let taken := s.linkTakes port = true
    let asked := fun (t : State) (q : Req) (n : Nat) => t = { s with reqs := s.reqs ++ [q], nextId := s.nextId + 1 } ∧
      q.id = s.nextId ∧ q.ext = some (port, id) ∧ q.pa = pa ∧ q.page = n ∧ q.stage = .sent ∧ q.home = paSite (s.plain pa)
    (∀ n mo, there → sends (.hostMemAccess port addr (.read n false mo)) (.reply (s.bytes pa n))) ∧
    (∀ n mo, there → Runs (.hostMemAccess port addr (.read n true mo)) s fun t =>
      t = { s with out := s.out ++ [.reply (s.bytes pa n)], l2 := t.l2, cores := t.cores, reqs := t.reqs } ∧ t.hostHolds line = true ∧
        ∀ k, k < 256 → ∀ x ∈ (t.core (paSite pa) k).l1, x.line ≠ line) ∧
    (∀ l, there → s.Unlogged → State.Inv s → Runs (.hostMemAccess port addr (.write l)) s fun t =>
      StoredAt s t pa (l.take (128 - pa % 128)) ∧ t.ctxs = s.ctxs ∧ t.out = s.out) ∧
    (there → calm → Runs (.hostMemAccess port addr (.evict none)) s fun t => t.hostHolds line = false ∧ Aside s t) ∧
    (s.hdmPa port addr = none → ∀ n ho mo l, GivesNothing (.hostMemAccess port addr (.read n ho mo)) s ∧
      GivesNothing (.hostMemAccess port addr (.write l)) s) ∧
    (∀ i x, i < 2 → hdmOk x = true → s.portUp port = true → s.halter = false → Runs (.hostMemAccess port addr (.decoder i x)) s fun t =>
      t = { s with hdm := Table.put s.hdm (2 * port + i) x }) ∧
    (∀ n ho mo, nowhere → Runs (.hostMemAccess port addr (.read n ho mo)) s fun t =>
      t = { s with out := s.out ++ [.reply (List.replicate n 0xFF)], hubs := t.hubs } ∧
        bit (t.hreg (s.logHub port pa) 0x1800) 0 = true) ∧
    (calm → (∃ l ∈ s.l2, l.line = off ∧ l.snooped = true) → Runs (.bisnpResponse off none) s fun t =>
      t.hostHolds off = false ∧ Aside s t ∧ ∀ q ∈ t.reqs, q.stage = .snoop → s.lineOf q.pa ≠ off) ∧
    (ap → up → sends (.hostBar0Access port off none) (word ((s.hubRead k o).getD 0xFFFFFFFFFFFFFFFF))) ∧
    (ap → ¬ up → sends (.hostBar0Access port off none) (word 0xFFFFFFFFFFFFFFFF) ∧
      ∀ v, GivesNothing (.hostBar0Access port off (some v)) s) ∧
    (∀ v, s.portUp port = true → off / 2147483648 % 2 = 0 → s.hasTarget (mkPa 5 k o) = true → s.hubRead (s.phys k) o = some v →
      sends (.hostBar0Access port off none) (word v)) ∧
    (∀ n, local_ n → Runs (.hostBar2Access port off n none) s fun t =>
      t = { s with out := s.out ++ [.reply (s.bytes b2 n)], dies := t.dies, cores := t.cores }) ∧
    (∀ n v, local_ n → State.Inv s → Runs (.hostBar2Access port off n (some v)) s fun t =>
      StoredAt s t b2 (toBytes n v.toNat) ∧ t.ctxs = s.ctxs) ∧
    (s.mainPower = true → hub < 64 → s.treeReach 64 hub = true → off < 16777216 →
      sends (.testPortAccess hub off none) (word ((s.hubRead hub off).getD 0xFFFFFFFFFFFFFFFF))) ∧
    (s.mainPower = false → GivesNothing (.testPortAccess hub off none) s) ∧
    (∀ n, band → Runs (.mctpControl hub n) s fun t =>
      t = { s with out := s.out ++ [word (Config.freeWord s.tick)], tick := s.tick + 1 }) ∧
    (∀ v, band → sends (.pldmSensorRead hub (.coolantIn v)) (word v)) ∧
    (∀ site, band → sends (.pldmSensorRead hub (.melt site)) (word (s.sreg site 0x5000)) ∧
      sends (.pldmSensorRead hub (.thrstat site)) (word (s.thrstat (s.phys site)))) ∧
    (∀ on, band → Runs (.coolantAlarmEffecter hub on) s fun t => t = { s with coolant := on }) ∧
    (∀ on, ¬ band → GivesNothing (.coolantAlarmEffecter hub on) s) ∧
    (band → sends (.vendorMessage hub .bootstat) (word s.bootstatNow) ∧ sends (.vendorMessage hub (.hubstate off)) (word (s.hubState off)) ∧
      sends (.vendorMessage hub .certificate) (.reply Config.certificate) ∧
      sends (.vendorMessage hub .identityKey) (.reply (part (Config.identityKey ++ List.replicate 32 0) 0 32)) ∧
      ∀ i, i < 32 → sends (.vendorMessage hub (.testres off i)) (word (s.hreg off (0x200 + 8 * i)))) ∧
    (∀ n, taken → s.peerMay pa n = true → Runs (.moduleLinkFlit port true (.copyReadReq id pa n)) s fun t =>
      ∃ q, asked t q n ∧ q.kind = .load .ahead) ∧
    (∀ l, taken → s.peerMay pa (List.length l) = true → Runs (.moduleLinkFlit port true (.copyWriteReq id pa l)) s fun t =>
      ∃ q, asked t q l.length ∧ q.kind = .writeback (runAt (pa % 128) l) 64) ∧
    (∀ n, taken → s.peerMay pa n = false → sends (.moduleLinkFlit port true (.copyReadReq id pa n)) (.flit port (.copyRefused id))) ∧
    (∀ l, taken → s.peerMay pa (List.length l) = false →
      sends (.moduleLinkFlit port true (.copyWriteReq id pa l)) (.flit port (.copyRefused id))) ∧
    (∀ st v, taken → Runs (.moduleLinkFlit port true (.exchangeReply id st v)) s fun t => t = { s with
      reqs := s.reqs.map fun q => if q.id = id ∧ q.stage = .peer then { q with stage := .done, status := st, value := v } else q }) ∧
    (∀ f, GivesNothing (.moduleLinkFlit port false f) s) ∧
    ((s.link port).up = true → Runs (.moduleLinkDown port) s fun t => t.link port = { s.link port with up := false } ∧
      ((∀ e ∈ s.cores, e.2.chunks = []) → t.mem = s.mem) ∧ t.reqs = s.reqs ∧ (∀ p, p ≠ port → t.link p = s.link p) ∧
      (entry ≠ port → t = { s with links := t.links }) ∧ (entry = port → ∀ x y, ∀ c ∈ (t.core x y).chunks, ¬ (c.awaits = true ∧ c.pmod = (s.link port).peer))) ∧
    ((s.link port).up = false → GivesNothing (.moduleLinkDown port) s) ∧
    (∀ p, s.halter = false → Runs (.moduleLinkRetrain port p) s fun t => t.link port = ⟨true, p⟩ ∧ Aside s t ∧
      ∀ x, x ≠ port → t.link x = s.link x) ∧
    (∀ q w, s.req id = some q → q.stage = .peer → s.peerWin q.pa = some w → s.linkUp w.1 = false → (s.ctx q.who).st ≠ .free →
      Runs (.peerReplyTimeout id) s fun t => t.reqs = s.reqs.filter (·.id ≠ id) ∧
        t.ctx q.who = { s.ctx q.who with fatal := some (0x30, BitVec.ofNat 64 q.pa) } ∧ t.mem = s.mem)

/-- R36 to R41, R84, R85, R130, R144 to R148, R152 to R155, R276: requests at a slice, far atomics and reductions at their home, what
comes back to a core, walks, owned lines, and the replay queue. Where an event's premise does not hold it changes nothing: the
model's choice (log entry 8). -/
def Obligations.MemoryEvents : Prop :=
  ∀ (s : State) (q : Req) (id site core idx line0 : Nat),
    let line := s.lineOf q.pa
    let k := s.sliceOfReq q
    let sl := s.slice q.home k
    let mine := s.req id = some q
    let calm := q.direct = false ∧ s.hostHolds line = false ∧ line ∉ s.poison ∧ s.ownerOf line = none ∧ paRegion q.pa < 8
    let c := s.ctx q.who
    let back := mine ∧ q.stage = .done ∧ q.orphan = false ∧ q.ext = none
    let answered := fun (i : Instr) (port : Nat) (f : Flit) => Runs i s fun t =>
      t = { s with reqs := s.reqs.filter (·.id ≠ id), out := s.out ++ [.flit port f] }
    let gone := fun t : State => t.req id = none
    let served := { q with stage := .done, data := s.targetLine (s.plain q.pa) }
    let r := q.who
    let word := fun dbl : Bool => if dbl then 8 else 4
    let old := fun dbl : Bool => ofBytes (s.bytes q.pa (word dbl))
    let plainWord := fun dbl : Bool => State.Inv s ∧ s.Unlogged ∧ mine ∧ q.stage = .queued ∧ calm ∧ paRegion q.pa = 0 ∧ q.pa % word dbl = 0
    let d := s.die site
    (∀ dst, mine → calm → q.kind = .load dst → s.mayLeave q = true → s.inL2 line = true → sl.full q = false →
      Runs (.sliceRequest id) s fun t => t.req id = some served ∧ Aside s t) ∧
    (∀ dst, mine → calm → q.kind = .load dst → s.mayLeave q = true → s.inL2 line = false → sl.full q = false →
      (∀ m ∈ sl.miss, m.line ≠ line) → sl.miss.length < 32 → Runs (.sliceRequest id) s fun t =>
        t.req id = some { q with stage := .missing } ∧ (t.slice q.home k).miss = sl.miss ++ [⟨line, []⟩] ∧ Aside s t) ∧
    (∀ dst, mine → calm → q.kind = .load dst → s.mayLeave q = true → sl.full q = true → Runs (.sliceRequest id) s fun t =>
      Aside s t ∧ ∃ n, 4 ≤ n ∧ n ≤ 255 ∧ t.req id = some { q with stage := .refused n, refusals := q.refusals + 1 }) ∧
    (mine → s.mayLeave q = false → GivesNothing (.sliceRequest id) s) ∧
    (∀ n, mine → q.stage = .refused n → Runs (.retryTimerExpiry id) s fun t =>
      t = { s with reqs := s.reqs.map fun x => if x.id = id then { x with stage := .sent } else x }) ∧
    (∀ dst, mine → calm → q.kind = .load dst → q.stage = .missing →
      s.inL2 line = true ∨ (s.l2.filter (L2Line.sameSet q.home line)).length < 16 → sl.miss.find? (fun m => m.line = line) = some ⟨line, []⟩ →
      sl.queue = [] → Runs (.missFill id) s fun t => t.req id = some served ∧ t.inL2 line = true ∧
        (t.slice q.home k).miss = sl.miss.filter (·.line ≠ line) ∧ Aside s t) ∧
    ((s.core site core).owned.any (fun o => o.line = line0) = true → Runs (.ownedLineTimeout site core line0) s (fun t =>
        (t.core site core).owned = (s.core site core).owned.filter (·.line ≠ line0) ∧ Aside s t) ∧
      ((∃ x ∈ s.reqs, s.lineOf x.pa = line0 ∧ x.stage ≠ .done) → Runs (.recall site core line0) s fun t =>
        (t.core site core).owned = (s.core site core).owned.filter (·.line ≠ line0) ∧ Aside s t ∧
          ((∃ x ∈ s.reqs, s.lineOf x.pa = line0 ∧ x.stage ≠ .done ∧ (x.who.site ≠ site ∨ x.who.core ≠ core)) →
            t.pred site line0 = min 3 (s.pred site line0 + 1)))) ∧
    ((s.core site core).owned.any (fun o => o.line = line0) = false →
      GivesNothing (.ownedLineTimeout site core line0) s ∧ GivesNothing (.recall site core line0) s) ∧
    (∀ o dbl v x ord near, plainWord dbl → q.kind = .atomic (.op o) dbl v x ord near → id ∉ sl.queue → Runs (.farAtomic id) s fun t =>
      StoredAt s t q.pa (toBytes (word dbl) (atomResult o dbl (old dbl) v.toNat)) ∧ t.ctxs = s.ctxs ∧
        t.req id = some { q with stage := .done, value := BitVec.ofNat 64 (old dbl) }) ∧
    (∀ o dbl v cs step place, mine → q.kind = .reduce o dbl v cs → cs ≠ [] → s.nextQueue q = some (step, place) →
      (∀ w ∈ s.reqs, s.mergesWith place w q = false) →
        (place ≠ none → Runs (.reductionPacketArrival id) s fun t => t.req id = some { q with stage := .onPath step s.nextId } ∧ Aside s t) ∧
        (place = none → calm → s.inL2 line = true → sl.full q = false → Runs (.reductionPacketArrival id) s fun t =>
          t.req id = some { q with stage := .queued } ∧ (t.slice q.home k).queue = sl.queue ++ [id] ∧ Aside s t)) ∧
    (∀ o dbl v cs step place w a ws, mine → q.kind = .reduce o dbl v cs → cs ≠ [] → s.nextQueue q = some (step, place) →
      s.reqs.find? (fun w => s.mergesWith place w q) = some w → w.kind = .reduce o dbl a ws → s.req w.id = some w →
      Runs (.reductionPacketArrival id) s fun t => Aside s t ∧
        (∃ x, t.req w.id = some x ∧ x.stage = w.stage ∧ x.kind = .reduce o dbl
          (BitVec.ofNat 64 (atomResult o dbl (a.toNat % 2 ^ (8 * word dbl)) v.toNat)) (ws ++ cs)) ∧
        t.req id = some { q with stage := .queued, kind := .reduce o dbl v [] }) ∧
    (∀ o dbl v, plainWord dbl → s.inL2 line = true ∨ id ∉ sl.queue → s.rollbacks = [] → q.kind = .reduce o dbl v [(id, q.who)] → Runs (.reductionApply id) s fun t =>
      StoredAt s t q.pa (toBytes (word dbl) (atomResult o dbl (old dbl) v.toNat)) ∧ t.ctxs = s.ctxs ∧
        t.req id = some { q with stage := .done }) ∧
    (∀ d m off, back → q.kind = .load (.g d m off) → s.rdcFind r.site line = none → q.fwd = [] → Runs (.replyArrival id) s fun t => gone t ∧
      (t.ctx r).rg d = (if d = 0 then 0 else loaded m (ofBytes ((q.data.drop off).take (loadedBytes m)))) ∧
      (∀ b, b ≠ d → (t.ctx r).rg b = c.rg b) ∧ (t.ctx r).ocl = c.ocl - 1) ∧
    (∀ o dbl v d ord near, back → q.kind = .atomic o dbl v d ord near → d ≠ 0 → AmoOrd.acquires ord = none →
      Runs (.replyArrival id) s fun t => gone t ∧ (t.ctx r).rg d = q.value ∧ ∀ b, b ≠ d → (t.ctx r).rg b = c.rg b) ∧
    (∀ v w d e, back → c.st ≠ .stopped → q.kind = .push v w d e → Runs (.replyArrival id) s fun t => gone t ∧
      (t.ctx r).rg d = (if d = 0 then 0 else BitVec.ofNat 64 q.status) ∧ (t.ctx r).ocs = c.ocs - 1) ∧
    (∀ dst port n, mine → q.stage = .done → q.ext = some (port, n) → q.kind = .load dst → (s.link port).up = true →
      answered (.replyArrival id) port (.copyReadReply n ((q.data.drop (q.pa % 128)).take q.page))) ∧
    (∀ bs slot port n, mine → q.stage = .done → q.ext = some (port, n) → q.kind = .writeback bs slot → (s.link port).up = true →
      answered (.writeAcknowledged id) port (.copyWriteAck n)) ∧
    (mine → q.stage ≠ .done → GivesNothing (.replyArrival id) s ∧ GivesNothing (.writeAcknowledged id) s) ∧
    (∀ bs, back → q.kind = .store bs 0 → (∀ x ∈ s.reqs, x.id ≠ id → x.who ≠ r ∨ x.grp ≠ q.grp) → Runs (.writeAcknowledged id) s fun t =>
      t.reqs = s.reqs.filter (·.id ≠ id) ∧ (t.ctx r).ocs = c.ocs - 1 ∧ (t.ctx r).g = c.g) ∧
    (∀ m pa e size, d.miss[idx]? = some m → idx ∈ walkersOf d.miss → m.setD = false → (∀ core, (s.core site core).stw = []) →
      HostFree s → s.walkVa site m.asid (m.vpn * 4096) = .leaf pa e size → Runs (.walk site idx) s fun t => (t.die site).miss = d.miss.eraseIdx idx ∧
        ⟨m.asid, m.vpn * 4096 / size * size, size, e ||| 0x20, true⟩ ∈ (t.die site).tlb) ∧
    (∀ m code, d.miss[idx]? = some m → idx ∈ walkersOf d.miss → (∀ core, (s.core site core).stw = []) →
      HostFree s → s.walkVa site m.asid (m.vpn * 4096) = .cause code → Runs (.walk site idx) s fun t => (t.die site).miss = d.miss.eraseIdx idx ∧
        (t.die site).tlb = d.tlb ∧ t.mem = s.mem ∧ ∀ r ∈ m.waiters, (s.ctx r).asid = m.asid → (s.ctx r).wait = .walk m.vpn →
          (t.ctx r).walkFault = some (m.vpn, code)) ∧
    (∀ r w, let d := s.die r.site
      d.missWait.find? (fun w => w.who = r) = some w → w.vpn < 4503599627370496 → s.tlbFind r.site r.core w.asid (w.vpn * 4096) = none →
      (∀ m ∈ d.miss, m.asid ≠ w.asid ∨ m.vpn ≠ w.vpn) → d.miss.length < 256 → Runs (.missRetry r) s fun t => OnlyDie s t r.site
        { d with missWait := d.missWait.erase w, miss := d.miss ++ [⟨w.asid, w.vpn, if w.parked then [r] else [], w.setD⟩] }) ∧
    (∀ e t0, let r : CtxRef := ⟨site, core, e.ctx⟩
      let pa := t0.pa e.va.toNat
      (s.core site core).rq[idx]? = some e → s.replayReady r ((s.core site core).rq.take idx) e = true → e.src = .store →
      s.engEntry r e.asid e.va false = (s, .entry t0) → s.hasTarget pa = true → s.noReg pa = false → leafD t0.leaf = true →
      leafFmt t0.leaf = e.win → s.storeRoom r e pa t0.leaf = true → leafCheck e.sys e.access t0.leaf pa e.va = none →
      Runs (.replayEntryIssue site core idx) s fun t => (t.core site core).rq = (s.core site core).rq.eraseIdx idx ∧ (t.ctx r).g = (s.ctx r).g)

/-- R126, R328 to R350: one step of a matrix command that has started, the start and end of commands, the output buffer, the count-down,
and the copy engine's registers and swap-in. Where an event's premise does not hold it changes nothing: the model's choice (log
entry 8). -/
def Obligations.EngineEvents : Prop :=
  ∀ (s : State) (site core i j : Nat) (m : MxCmd) (rest : List MxCmd) (w : MxRow) (r : CtxRef) (v : W64),
    let k := s.core site core
    let me : CtxRef := ⟨site, core, m.ctx⟩
    let goes := k.mxq = m :: rest ∧ m.started = true ∧ m.hold = false
    let fine := goes ∧ m.row = some w ∧ (m.spans.flatMap fun sp => s.spanFaults me sp) = []
    let slot := fun t : State => t.slotOf site core m.slot
    let acc := fun t : State => (Table.get (0 : W64) (slot t).elems (64 * i + j))
    let blocks := (m.cols + 7) / 8
    let b := m.next / m.groups
    let here := b / blocks * 8 ≤ i ∧ i < min m.rows (b / blocks * 8 + 8) ∧ b % blocks * 8 ≤ j ∧ j < min m.cols (b % blocks * 8 + 8)
    let others := rest.filter fun x => x.job ≠ m.job
    let ends := fun (t : State) (sl : Option Nat) => (t.core site core).mxq = others ∧
      (t.core site core).jobs = k.jobs ++ [⟨m.ctx, m.job, .matrix, if m.rel then scopeOf m.scope else none, sl⟩]
    let steps := fun (ev : Instr) (dist : Bool) => Runs ev s fun t => Aside s t ∧
      (t.core site core).mxq = { m with next := m.next + 1 } :: rest ∧ (slot t).state = (slot s).state ∧
      acc t = if here then BitVec.ofNat 64 (s.mxGroup me m w dist i j (m.next % m.groups) (acc s).toNat) else acc s
    let c := s.ctx r
    let kr := s.core r.site r.core
    (fine → m.opc = 1 → m.slot < 8 → i < 64 → j < 64 → m.next + 1 < m.steps → steps (.mma site core (some 1)) false) ∧
    (fine → m.opc = 2 → m.slot < 8 → i < 64 → j < 64 → m.next + 1 < m.steps → steps (.mdist site core (some 1)) true) ∧
    (fine → m.opc = 1 → m.steps ≤ m.next → Runs (.mma site core (some 1)) s fun t => ends t none ∧ Aside s t) ∧
    (fine → m.opc = 2 → m.steps ≤ m.next → Runs (.mdist site core (some 1)) s fun t => ends t none ∧ Aside s t) ∧
    (∀ x o code, fine → m.opc = 3 → State.Inv s → s.engLoc me (m.d 4) = some (x, o, code) → m.next + 1 < m.rows →
      site < 64 → x < 256 → o + m.next * m.f 3 40 20 + 8 * m.f 0 45 5 ≤ 524288 → Runs (.topk site core (some 1)) s fun t =>
        t.ctxs = s.ctxs ∧ (t.core site core).mxq = { m with next := m.next + 1 } :: rest ∧
        StoredAt s t (lmemPa site x (o + m.next * m.f 3 40 20))
          ((s.topkRow me m w m.next).flatMap fun e => toBytes 8 (e.score + e.idx * 4294967296))) ∧
    (goes → m.opc = 4 → m.slot < 8 → Runs (.acz site core) s fun t => slot t = ⟨.owned, m.ctx, m.f 0 24 2, []⟩ ∧ ends t none ∧ Aside s t) ∧
    (∀ s' tb, goes → m.opc = 5 → m.slot < 8 → s.engOut me false m.job = [] →
      s.aclRead me m m.aclEs (List.range (m.rows * m.cols)) [] true = (s', .ok (some tb)) → (s'.core site core).mxq = k.mxq →
      Runs (.acl site core) s fun t => slot t = ⟨.owned, m.ctx, m.f 0 24 2, tb⟩ ∧ (t.core site core).mxq = others) ∧
    (∀ x o, goes → m.opc = 6 → s.engLoc me (m.d 1) = some (x, o, 0) → m.next = 0 → 1 < m.rows * m.cols →
      (m.d 1).toNat % (if (slot s).type = 2 then 8 else 4) = 0 → k.obuf = [] → s.engOut me false m.job = [] →
      m.f 0 25 2 = 0 → m.f 0 27 1 = 0 → m.f 0 28 4 = 0 →
      Runs (.epi site core (some 1)) s fun t => Aside s t ∧ (t.core site core).mxq = { m with next := 1, win := 0 } :: rest ∧
        (t.core site core).obuf = [⟨m.ctx, m.asid, putBits (m.d 1) 0 7 0, runAt ((m.d 1).toNat % 128)
          (toBytes (if (slot s).type = 2 then 8 else 4) (Table.get (0 : W64) (slot s).elems 0).toNat), 0, m.job, m.tag, false⟩]) ∧
    (∀ e l s', k.obuf = e :: l → (l ≠ [] ∨ ∀ x ∈ k.mxq, x.job ≠ e.job) →
      s.engWrite ⟨site, core, e.ctx⟩ e.asid e.va e.data e.win e.job .epilogue e.tag e.dead = some (s', none) → Runs (.outputBufferDrain site core) s fun t =>
        (t.core site core).obuf = l ∧ t.mem = s'.mem ∧ t.reqs = s'.reqs) ∧
    (k.obuf = [] → GivesNothing (.outputBufferDrain site core) s) ∧
    (∀ job : Job, kr.jobs.find? (fun x => x.ctx = r.ctx ∧ s.jobClear r x) = some job → job.slot = none → job.rel = none → c.st = .running →
      (∀ l x y z, c.wait ≠ .waitc l x y z) → c.wait ≠ .sfufence → c.prior ≠ .preempted → job.kind ≠ .sfu →
      Runs (.engineCountDown r) s fun t => (t.core r.site r.core).jobs = kr.jobs.filter (fun x => x.job ≠ job.job) ∧ t.mem = s.mem ∧
        t.ctx r = match job.kind with
          | .matrix => { c with oct := c.oct - 1 }
          | _ => { c with occ := c.occ - 1 }) ∧
    (kr.jobs = [] → GivesNothing (.engineCountDown r) s) ∧
    (c.cpArmed = false → c.occ < 255 → s.startOk r = true → Runs (.cpctlGo r v) s fun t =>
      OnlyCtx s t r { c with cpctl := v &&& 0xFFFF1FFE, cpArmed := true, occ := c.occ + 1 }) ∧
    (c.cpArmed = true ∨ 255 ≤ c.occ ∨ s.startOk r = false → GivesNothing (.cpctlGo r v) s) ∧
    (∀ x, let a := s.ctx ⟨site, core, x⟩
      let run : CopyRun := ⟨x, a.asid, s.nextId, a.cpsrc, a.cpdst, a.cplen, a.cpstride, a.cpctl, 0, 0⟩
      k.cp = none → s.nextArmed site core = some x → a.savedCp = none →
      ((({ s with nextId := s.nextId + 1 } : State).modCtx ⟨site, core, x⟩ fun y => { y with cpArmed := false }).setCopy site core run).copyReasons
        ⟨site, core, x⟩ run = [] →
      bit a.cpctl 1 = false → Runs (.shadowSwapIn site core (some 0)) s fun t => (t.core site core).cp = some run ∧
        t.ctx ⟨site, core, x⟩ = { a with cpArmed := false } ∧ t.nextId = s.nextId + 1 ∧ t.mem = s.mem) ∧
    (∀ x, k.cp = none → s.nextArmed site core = some x → s.copyHeld ⟨site, core, x⟩ = true →
      GivesNothing (.shadowSwapIn site core (some 0)) s) ∧
    (Runs (.faultRecordClear r false) s fun t => OnlyCtx s t r { c with mxfault := c.mxfault &&& 0x40 }) ∧
    (Runs (.faultRecordClear r true) s fun t => OnlyCtx s t r { c with cpfault := c.cpfault &&& 0x40 })

/-! ### Encoding, steps, reset -/

/-- R200 to R211, R236: words written out from the spec's encoding tables decode to the instructions they stand for, one or more of each
family, and the formats of a bundle are told apart. -/
def Obligations.WordsDecode : Prop :=
  decodeA 0x41289002 = .ok (.ld 5 2 .w 2) ∧ decodeA 0x48485800 = .ok (.st 9 1 .d 0) ∧ decodeA 0x4330C801 = .ok (.ldxH 6 3 1) ∧
  decodeA 0x4A3907FD = .ok (.stxB 7 4 0x7FD) ∧ decodeA 0x69100005 = .ok (.movi 2 5) ∧ decodeA 0x64008001 = .ok (.loop 0 2 1) ∧
  decodeA 0x65000000 = .ok .halt ∧ decodeB 0x18312220 = .ok (.vadd 3 1 2 .rot 0 1) ∧ decodeB 0x21201200 = .ok (.vfma .s 2 0 1 2 .none 0 0) ∧
  decodeA 0x50AEBFA1 = .ok (.amo 21 26 31 (.ar .die) false .add) ∧ decodeA 0x51AEBC13 = .ok (.amoCas 21 26 15 (.rel .module) true) ∧
  decodeA 0x52057409 = .ok (.red 21 26 false .fadd) ∧ decodeA 0x53AEBE19 = .ok (.push 21 26 31 3 .cluster) ∧
  decodeA 0x54AE8C1B = .ok (.pop 21 26 6 3 .module) ∧ decodeA 0x58000000 = .ok (.fence .core) ∧ decodeA 0x58A80008 = .ok (.xfi 21) ∧
  decodeA 0x59AE800A = .ok (.acq 21 26 .die) ∧ decodeA 0x5AAEBE40 = .ok (.waitc 21 26 31 4) ∧
  decodeA 0x5A3F1771 = .ok (.waita 7 28 11 5 3) ∧ decodeA 0x5B000015 = .ok (.waitb 5) ∧ decodeA 0x61AA5A5B = .ok (.br 5 false 0xa5a5b) ∧
  decodeA 0x63000002 = .ok .ret ∧ decodeA 0x6305402B = .ok (.movLcFromG 21 3) ∧ decodeA 0x66A80000 = .ok (.gang 21) ∧
  decodeA 0x6BAEBE00 = .ok (.cstep 21 26 31) ∧ decodeA 0x6BAE8004 = .ok (.cidx 21 26) ∧ decodeA 0x70AEBE01 = .ok (.hpassX 21 26 31) ∧
  decodeA 0x70054004 = .ok (.hrecall 21) ∧ decodeA 0x71A80007 = .ok (.vclaim 21 7) ∧ decodeA 0x729D465B = .ok (.vld 9 26 2 0x65b) ∧
  decodeA 0x739D5802 = .ok (.vstG 9 26 2 2) ∧ decodeA 0x74AE8071 = .ok (.sfucmd 21 26 0 .cluster true true .rsqrt) ∧
  decodeA 0x78A80A5B = .ok (.srd 21 0xa5b) ∧ decodeA 0x78AEAA5B = .ok (.srset 21 26 0xa5b) ∧ decodeA 0x79AE8000 = .ok (.lease 21 26) ∧
  decodeA 0x7A057000 = .ok (.dictld 21 3) ∧ decodeA 0x7B04B600 = .ok (.trap 0x25b) ∧ decodeA 0x7B057402 = .ok (.tlbinvVa 21 26) ∧
  decodeA 0x7BAE8006 = .ok (.larm 21 26) ∧ decodeB 0x02AEBE03 = .ok (.andn 21 26 31) ∧ decodeB 0x03AEBE02 = .ok (.sra 21 26 31) ∧
  decodeB 0x04AEBE02 = .ok (.mulhu 21 26 31) ∧ decodeB 0x05AEBE01 = .ok (.divu 21 26 31) ∧ decodeB 0x062EBE01 = .ok (.cmp 5 26 31 .ne) ∧
  decodeB 0x07298E00 = .ok (.pand 5 6 7) ∧ decodeB 0x08AEBE12 = .ok (.ins 21 26 31) ∧ decodeB 0x0AAE983B = .ok (.shli 21 26 59) ∧
  decodeB 0x12D7C840 = .ok (.fadd true 26 31 4 .rz) ∧ decodeB 0x11D7C893 = .ok (.fma false 26 31 4 9 .rm) ∧
  decodeB 0x142EBE06 = .ok (.fle 5 26 31 true) ∧ decodeB 0x15AE80C5 = .ok (.cvtLS 21 26 .rm true) ∧
  decodeB 0x1C2CF765 = .ok (.vcmp 2 12 15 .w8 2 3 .geu) ∧ decodeB 0x28232000 = .ok (.mand 2 3 2) ∧
  decodeB 0x29930015 = .ok (.mpopc 9 3 1) ∧ decodeB 0x309C4060 = .ok (.vcvtSW 9 12 .rs 3) ∧
  decodeB 0x319C0041 = .ok (.vred 9 12 2 .smin) ∧ decodeB 0x329CF560 = .ok (.vperm 9 12 15 .rev 2 3) ∧
  decodeA 0 = .error (.illegalWord 0) ∧ decodeBundle 0x2818C001 0x01084600 = .ok (.pair 0x2818C001 0x01084600) ∧
  decodeA 0x2818C001 = .ok (.adda 3 3 1) ∧ decodeB 0x01084600 = .ok (.add 1 1 3) ∧
  decodeBundle 0x41289002 0 = .ok (.lone 0x41289002) ∧ decodeBundle 0x41289002 1 = .error .loneTail ∧
  decodeBundle 0xC0000000 0 = .error .reservedFormat ∧ decodeBundle 0 0 = .error .zeroMajor

/-- R211, R236: for every well-formed instruction with a word, decoding its word gives it back; and a word that decodes is the word of what it
decodes to, bits 31 and 30 apart: no bit of a word is without meaning. -/
def Obligations.DecodeAndEncodeAgree : Prop :=
  (∀ i : Instr, i.wf = true → (i.side = .wordA → decodeA (encode i) = .ok i) ∧ (i.side = .wordB → decodeB (encode i) = .ok i)) ∧
  (∀ (w : W32) (i : Instr), decodeA w = .ok i → encode i = w &&& 0x3FFFFFFF ∧ i.side = .wordA ∧ i.wf = true) ∧
  (∀ (w : W32) (i : Instr), decodeB w = .ok i → encode i = w &&& 0x3FFFFFFF ∧ i.side = .wordB ∧ i.wf = true)

/-- R200 to R206: when it is a context's turn and the bundle at its program counter, in the instruction cache, is a lone word A or a
pair, the step runs what the words decode to, word B on the registers before the bundle, and then goes on at the next bundle, at the
target of a transfer, or where the loop that ends there says, with the count that the bundle writes for the loop's own where it writes
one (R262). That the turn comes from the agenda is the model's schedule (log entry
1). -/
def Obligations.StepRunsDecodedBundle : Prop :=
  ∀ (s t tb : State) (r : CtxRef) (rest : List Move) (e : TlbEntry) (l : CLine) (i j : Instr),
    let c := s.ctx r
    let pa := e.pa c.pc.toNat
    let w := bundleAt l.data (pa % 128)
    let turn : State := { s with agenda := rest, cur := r, issue := Issue.reset }
    let looped := turn.modCtx r fun x => { x with loopNext := loopDecision c c.pc }
    let begun := if c.redo then looped.modCtx r (fun x => { x with redo := false }) else looped
    let at_ := fun b : W32 => { begun with issue := ⟨w.1, b, false, none, none, [], .fall⟩ }
    let ready := s.agenda = .issue r :: rest ∧ c.gang = false ∧ (c.st = .running ∨ c.st = .ready) ∧ c.fatal = none ∧ c.mid = false ∧
      c.preReq = false ∧ c.testReq = false ∧ s.npOver r = false ∧ c.pendStore = [] ∧ c.pendAsync = [] ∧ c.slot = 0 ∧ c.pend = ⟨0, 0, 0, 0⟩ ∧
      (accesses i = true → s.accessHeld r = false)
    let fetched := canonical c.pc = true ∧ bit c.pc 55 = false ∧ s.tlbFind r.site r.core c.asid c.pc.toNat = some e ∧
      turn.fetchLeaf e pa = true ∧ (s.core r.site r.core).ic.find? (fun x => x.line = s.lineOf pa) = some l
    let goes := fun (x : State) (f : Ctx → Ctx) => (x.ctx r).st ≠ .free → (x.ctx r).st ≠ .waiting → bit (x.sreg r.site 0x3608) 4 = false →
      step s = .next { (x.modCtx r f).tock r true with cur := r }
    let goTo := fun (p : W64) (k : BitVec 2) (x : Ctx) => { x with pc := p, slot := k, mid := false, ahead := none, loopNext := none, walkFault := none }
    let lone := ready ∧ fetched ∧ decodeBundle w.1 w.2 = .ok (.lone w.1) ∧ decodeA w.1 = .ok i ∧ exec i (at_ 0) = .next t
    let pair := ready ∧ fetched ∧ decodeBundle w.1 w.2 = .ok (.pair w.1 w.2) ∧ decodeA w.1 = .ok i ∧ decodeB w.2 = .ok j ∧
      (dests i).meets (dests j) = false ∧ fld w.2 30 2 = 0 ∧ exec i (at_ w.2) = .next t ∧ t.issue.flow = .fall ∧
      exec j { at_ w.2 with tick := t.tick, issue := ⟨w.1, w.2, true, none, none, [], .fall⟩ } = .next tb ∧ tb.issue.flow = .fall
    (lone → t.issue.flow = .fall → loopDecision c c.pc = none → goes t (goTo (c.pc + 8) 0)) ∧
    (∀ p k, lone → t.issue.flow = .jump p k → goes t (goTo p k)) ∧
    (∀ n p x, lone → t.issue.flow = .fall → loopDecision c c.pc = some (n, p, x) →
      goes t fun y => if lcWritten i = some n then goTo p 0 y else { goTo p 0 y with lc := y.lc.setIfInBounds n x }) ∧
    (pair → loopDecision c c.pc = none →
      goes (({ t with tick := tb.tick } : State).modC fun y => y.takeB tb.c (dests j)) (goTo (c.pc + 8) 0))

/-- Every step keeps memory in its canonical form, so that equal memories are equal data. A property of the model's memory (log entry
3). -/
def Obligations.StepKeepsMemoryForm : Prop :=
  ∀ s t : State, s.Inv → step s = .next t → t.Inv

/-- Every instruction and every event answers a next state in every state: nothing is refused and nothing stops the machine; and so does
every step. A step takes the first move of the agenda: an event it hands to its meaning; an issue of a context that is in no gang and
cannot issue changes nothing but the agenda; idle time with no context within a section keeps the contexts and memory and advances its
core's cycle count. The two `nop` words change nothing at all. A property of the model: what the spec leaves open is a free value,
and an event whose premise does not hold changes nothing (log entries 1 and 8). -/
def Obligations.EverythingAnswersNext : Prop :=
  (∀ (i : Instr) (s : State), ∃ t, exec i s = .next t) ∧ (∀ s : State, ∃ t, step s = .next t) ∧
  (∀ s : State, exec .nop s = .next s ∧ exec .arithmeticNoOp s = .next s) ∧
  (∀ (s : State) (i : Instr) (rest : List Move), s.agenda = .event i :: rest → step s = exec i { s with agenda := rest }) ∧
  (∀ (s : State) (r : CtxRef) (rest : List Move), s.agenda = .issue r :: rest → (s.ctx r).gang = false → (s.ctx r).st ≠ .running →
    (s.ctx r).st ≠ .ready → step s = .next { s with agenda := rest }) ∧
  (∀ (s : State) (site core : Nat) (rest : List Move), s.agenda = .idle site core :: rest → (∀ e ∈ s.ctxs, e.2.npsec = false) →
    ∃ t, step s = .next t ∧ t.ctxs = s.ctxs ∧ t.mem = s.mem ∧ t.agenda = rest ∧
      (t.core site core).cycle = (s.core site core).cycle + BitVec.ofNat 64 (1 + Config.cycles s.tick))

/-- R22, R96, R212, R329, R395, R422: what a reset leaves: canonical memory; every context FREE in user mode with INTRAP 0, p0 reading
1, g0 reading 0, the scale granularity of its WSCALE registers 7, ENGINE of CPFAULT 1; every hub OFF, and the power and reliability
registers at the values that the spec gives. That no site is in use, no request is under way and the agenda is empty is the model's
reading of a reset (log entries 1 and 4). -/
def Obligations.ResetState : Prop :=
  let s := State.reset
  s.Inv ∧ (∀ r, (s.ctx r).st = .free ∧ (s.ctx r).sys = false ∧ (s.ctx r).inTrap = false ∧ (s.ctx r).rp 0 = true ∧
    (s.ctx r).rg 0 = 0 ∧ (s.ctx r).wscale = Vector.replicate 5 0x70 ∧ (s.ctx r).cpfault = 0x40 ∧ (s.ctx r).held = []) ∧
  (∀ h, (s.hub h).st = .off ∧ s.hreg h 0x2000 = 0x31 ∧ s.hreg h 0x2028 = 1563 ∧ bit (s.hreg h 0x5008) 0 = true ∧
    bits (s.hreg h 0x5008) 1 10 = 700 ∧ bits (s.hreg h 0x5008) 11 10 = 900 ∧ bits (s.hreg h 0x5008) 21 10 = 200 ∧
    bits (s.hreg h 0x5010) 1 7 = 105 ∧ bits (s.hreg h 0x5020) 0 12 = 250 ∧ bits (s.hreg h 0x5020) 12 8 = 32 ∧
    bits (s.hreg h 0x5020) 20 7 = 95 ∧ ∀ i, i < 16 → s.hreg h (0x5040 + 8 * i) = 30) ∧
  s.sites = [] ∧ s.reqs = [] ∧ s.launches = [] ∧ s.agenda = []
end

