-- ==== Sys2Proof/Laws/State.lean ====
section
/-! SUPPORT. What each update of the state leaves alone, one lemma for each field, and what it writes; every lemma holds by
unfolding once, so that later proofs need not. -/

namespace Sys2Proof.Machine

variable (s : State)

/-! ### `setCtx` -/

@[simp] theorem State.setCtx_hubs (r : CtxRef) (c : Ctx) : (s.setCtx r c).hubs = s.hubs := rfl
@[simp] theorem State.setCtx_sites (r : CtxRef) (c : Ctx) : (s.setCtx r c).sites = s.sites := rfl
@[simp] theorem State.setCtx_dies (r : CtxRef) (c : Ctx) : (s.setCtx r c).dies = s.dies := rfl
@[simp] theorem State.setCtx_octets (r : CtxRef) (c : Ctx) : (s.setCtx r c).octets = s.octets := rfl
@[simp] theorem State.setCtx_cores (r : CtxRef) (c : Ctx) : (s.setCtx r c).cores = s.cores := rfl
@[simp] theorem State.setCtx_mem (r : CtxRef) (c : Ctx) : (s.setCtx r c).mem = s.mem := rfl
@[simp] theorem State.setCtx_poison (r : CtxRef) (c : Ctx) : (s.setCtx r c).poison = s.poison := rfl
@[simp] theorem State.setCtx_l2 (r : CtxRef) (c : Ctx) : (s.setCtx r c).l2 = s.l2 := rfl
@[simp] theorem State.setCtx_slices (r : CtxRef) (c : Ctx) : (s.setCtx r c).slices = s.slices := rfl
@[simp] theorem State.setCtx_reqs (r : CtxRef) (c : Ctx) : (s.setCtx r c).reqs = s.reqs := rfl
@[simp] theorem State.setCtx_nextId (r : CtxRef) (c : Ctx) : (s.setCtx r c).nextId = s.nextId := rfl
@[simp] theorem State.setCtx_launches (r : CtxRef) (c : Ctx) : (s.setCtx r c).launches = s.launches := rfl
@[simp] theorem State.setCtx_nextLser (r : CtxRef) (c : Ctx) : (s.setCtx r c).nextLser = s.nextLser := rfl
@[simp] theorem State.setCtx_groups (r : CtxRef) (c : Ctx) : (s.setCtx r c).groups = s.groups := rfl
@[simp] theorem State.setCtx_rollbacks (r : CtxRef) (c : Ctx) : (s.setCtx r c).rollbacks = s.rollbacks := rfl
@[simp] theorem State.setCtx_ports (r : CtxRef) (c : Ctx) : (s.setCtx r c).ports = s.ports := rfl
@[simp] theorem State.setCtx_links (r : CtxRef) (c : Ctx) : (s.setCtx r c).links = s.links := rfl
@[simp] theorem State.setCtx_mcasts (r : CtxRef) (c : Ctx) : (s.setCtx r c).mcasts = s.mcasts := rfl
@[simp] theorem State.setCtx_watches (r : CtxRef) (c : Ctx) : (s.setCtx r c).watches = s.watches := rfl
@[simp] theorem State.setCtx_out (r : CtxRef) (c : Ctx) : (s.setCtx r c).out = s.out := rfl
@[simp] theorem State.setCtx_bootstat (r : CtxRef) (c : Ctx) : (s.setCtx r c).bootstat = s.bootstat := rfl
@[simp] theorem State.setCtx_starting (r : CtxRef) (c : Ctx) : (s.setCtx r c).starting = s.starting := rfl
@[simp] theorem State.setCtx_stage (r : CtxRef) (c : Ctx) : (s.setCtx r c).stage = s.stage := rfl
@[simp] theorem State.setCtx_manifest (r : CtxRef) (c : Ctx) : (s.setCtx r c).manifest = s.manifest := rfl
@[simp] theorem State.setCtx_grade (r : CtxRef) (c : Ctx) : (s.setCtx r c).grade = s.grade := rfl
@[simp] theorem State.setCtx_coolant (r : CtxRef) (c : Ctx) : (s.setCtx r c).coolant = s.coolant := rfl
@[simp] theorem State.setCtx_standby (r : CtxRef) (c : Ctx) : (s.setCtx r c).standby = s.standby := rfl
@[simp] theorem State.setCtx_mainPower (r : CtxRef) (c : Ctx) : (s.setCtx r c).mainPower = s.mainPower := rfl
@[simp] theorem State.setCtx_tick (r : CtxRef) (c : Ctx) : (s.setCtx r c).tick = s.tick := rfl
@[simp] theorem State.setCtx_agenda (r : CtxRef) (c : Ctx) : (s.setCtx r c).agenda = s.agenda := rfl
@[simp] theorem State.setCtx_cur (r : CtxRef) (c : Ctx) : (s.setCtx r c).cur = s.cur := rfl
@[simp] theorem State.setCtx_issue (r : CtxRef) (c : Ctx) : (s.setCtx r c).issue = s.issue := rfl
@[simp] theorem State.setCtx_hdm (r : CtxRef) (c : Ctx) : (s.setCtx r c).hdm = s.hdm := rfl

/-! ### `modCtx` -/

@[simp] theorem State.modCtx_hubs (r : CtxRef) (f : Ctx → Ctx) : (s.modCtx r f).hubs = s.hubs := rfl
@[simp] theorem State.modCtx_sites (r : CtxRef) (f : Ctx → Ctx) : (s.modCtx r f).sites = s.sites := rfl
@[simp] theorem State.modCtx_dies (r : CtxRef) (f : Ctx → Ctx) : (s.modCtx r f).dies = s.dies := rfl
@[simp] theorem State.modCtx_octets (r : CtxRef) (f : Ctx → Ctx) : (s.modCtx r f).octets = s.octets := rfl
@[simp] theorem State.modCtx_cores (r : CtxRef) (f : Ctx → Ctx) : (s.modCtx r f).cores = s.cores := rfl
@[simp] theorem State.modCtx_mem (r : CtxRef) (f : Ctx → Ctx) : (s.modCtx r f).mem = s.mem := rfl
@[simp] theorem State.modCtx_poison (r : CtxRef) (f : Ctx → Ctx) : (s.modCtx r f).poison = s.poison := rfl
@[simp] theorem State.modCtx_l2 (r : CtxRef) (f : Ctx → Ctx) : (s.modCtx r f).l2 = s.l2 := rfl
@[simp] theorem State.modCtx_slices (r : CtxRef) (f : Ctx → Ctx) : (s.modCtx r f).slices = s.slices := rfl
@[simp] theorem State.modCtx_reqs (r : CtxRef) (f : Ctx → Ctx) : (s.modCtx r f).reqs = s.reqs := rfl
@[simp] theorem State.modCtx_nextId (r : CtxRef) (f : Ctx → Ctx) : (s.modCtx r f).nextId = s.nextId := rfl
@[simp] theorem State.modCtx_launches (r : CtxRef) (f : Ctx → Ctx) : (s.modCtx r f).launches = s.launches := rfl
@[simp] theorem State.modCtx_nextLser (r : CtxRef) (f : Ctx → Ctx) : (s.modCtx r f).nextLser = s.nextLser := rfl
@[simp] theorem State.modCtx_groups (r : CtxRef) (f : Ctx → Ctx) : (s.modCtx r f).groups = s.groups := rfl
@[simp] theorem State.modCtx_rollbacks (r : CtxRef) (f : Ctx → Ctx) : (s.modCtx r f).rollbacks = s.rollbacks := rfl
@[simp] theorem State.modCtx_ports (r : CtxRef) (f : Ctx → Ctx) : (s.modCtx r f).ports = s.ports := rfl
@[simp] theorem State.modCtx_links (r : CtxRef) (f : Ctx → Ctx) : (s.modCtx r f).links = s.links := rfl
@[simp] theorem State.modCtx_mcasts (r : CtxRef) (f : Ctx → Ctx) : (s.modCtx r f).mcasts = s.mcasts := rfl
@[simp] theorem State.modCtx_watches (r : CtxRef) (f : Ctx → Ctx) : (s.modCtx r f).watches = s.watches := rfl
@[simp] theorem State.modCtx_out (r : CtxRef) (f : Ctx → Ctx) : (s.modCtx r f).out = s.out := rfl
@[simp] theorem State.modCtx_bootstat (r : CtxRef) (f : Ctx → Ctx) : (s.modCtx r f).bootstat = s.bootstat := rfl
@[simp] theorem State.modCtx_starting (r : CtxRef) (f : Ctx → Ctx) : (s.modCtx r f).starting = s.starting := rfl
@[simp] theorem State.modCtx_stage (r : CtxRef) (f : Ctx → Ctx) : (s.modCtx r f).stage = s.stage := rfl
@[simp] theorem State.modCtx_manifest (r : CtxRef) (f : Ctx → Ctx) : (s.modCtx r f).manifest = s.manifest := rfl
@[simp] theorem State.modCtx_grade (r : CtxRef) (f : Ctx → Ctx) : (s.modCtx r f).grade = s.grade := rfl
@[simp] theorem State.modCtx_coolant (r : CtxRef) (f : Ctx → Ctx) : (s.modCtx r f).coolant = s.coolant := rfl
@[simp] theorem State.modCtx_standby (r : CtxRef) (f : Ctx → Ctx) : (s.modCtx r f).standby = s.standby := rfl
@[simp] theorem State.modCtx_mainPower (r : CtxRef) (f : Ctx → Ctx) : (s.modCtx r f).mainPower = s.mainPower := rfl
@[simp] theorem State.modCtx_tick (r : CtxRef) (f : Ctx → Ctx) : (s.modCtx r f).tick = s.tick := rfl
@[simp] theorem State.modCtx_agenda (r : CtxRef) (f : Ctx → Ctx) : (s.modCtx r f).agenda = s.agenda := rfl
@[simp] theorem State.modCtx_cur (r : CtxRef) (f : Ctx → Ctx) : (s.modCtx r f).cur = s.cur := rfl
@[simp] theorem State.modCtx_issue (r : CtxRef) (f : Ctx → Ctx) : (s.modCtx r f).issue = s.issue := rfl
@[simp] theorem State.modCtx_hdm (r : CtxRef) (f : Ctx → Ctx) : (s.modCtx r f).hdm = s.hdm := rfl

/-! ### `modC` -/

@[simp] theorem State.modC_hubs (f : Ctx → Ctx) : (s.modC f).hubs = s.hubs := rfl
@[simp] theorem State.modC_sites (f : Ctx → Ctx) : (s.modC f).sites = s.sites := rfl
@[simp] theorem State.modC_dies (f : Ctx → Ctx) : (s.modC f).dies = s.dies := rfl
@[simp] theorem State.modC_octets (f : Ctx → Ctx) : (s.modC f).octets = s.octets := rfl
@[simp] theorem State.modC_cores (f : Ctx → Ctx) : (s.modC f).cores = s.cores := rfl
@[simp] theorem State.modC_mem (f : Ctx → Ctx) : (s.modC f).mem = s.mem := rfl
@[simp] theorem State.modC_poison (f : Ctx → Ctx) : (s.modC f).poison = s.poison := rfl
@[simp] theorem State.modC_l2 (f : Ctx → Ctx) : (s.modC f).l2 = s.l2 := rfl
@[simp] theorem State.modC_slices (f : Ctx → Ctx) : (s.modC f).slices = s.slices := rfl
@[simp] theorem State.modC_reqs (f : Ctx → Ctx) : (s.modC f).reqs = s.reqs := rfl
@[simp] theorem State.modC_nextId (f : Ctx → Ctx) : (s.modC f).nextId = s.nextId := rfl
@[simp] theorem State.modC_launches (f : Ctx → Ctx) : (s.modC f).launches = s.launches := rfl
@[simp] theorem State.modC_nextLser (f : Ctx → Ctx) : (s.modC f).nextLser = s.nextLser := rfl
@[simp] theorem State.modC_groups (f : Ctx → Ctx) : (s.modC f).groups = s.groups := rfl
@[simp] theorem State.modC_rollbacks (f : Ctx → Ctx) : (s.modC f).rollbacks = s.rollbacks := rfl
@[simp] theorem State.modC_ports (f : Ctx → Ctx) : (s.modC f).ports = s.ports := rfl
@[simp] theorem State.modC_links (f : Ctx → Ctx) : (s.modC f).links = s.links := rfl
@[simp] theorem State.modC_mcasts (f : Ctx → Ctx) : (s.modC f).mcasts = s.mcasts := rfl
@[simp] theorem State.modC_watches (f : Ctx → Ctx) : (s.modC f).watches = s.watches := rfl
@[simp] theorem State.modC_out (f : Ctx → Ctx) : (s.modC f).out = s.out := rfl
@[simp] theorem State.modC_bootstat (f : Ctx → Ctx) : (s.modC f).bootstat = s.bootstat := rfl
@[simp] theorem State.modC_starting (f : Ctx → Ctx) : (s.modC f).starting = s.starting := rfl
@[simp] theorem State.modC_stage (f : Ctx → Ctx) : (s.modC f).stage = s.stage := rfl
@[simp] theorem State.modC_manifest (f : Ctx → Ctx) : (s.modC f).manifest = s.manifest := rfl
@[simp] theorem State.modC_grade (f : Ctx → Ctx) : (s.modC f).grade = s.grade := rfl
@[simp] theorem State.modC_coolant (f : Ctx → Ctx) : (s.modC f).coolant = s.coolant := rfl
@[simp] theorem State.modC_standby (f : Ctx → Ctx) : (s.modC f).standby = s.standby := rfl
@[simp] theorem State.modC_mainPower (f : Ctx → Ctx) : (s.modC f).mainPower = s.mainPower := rfl
@[simp] theorem State.modC_tick (f : Ctx → Ctx) : (s.modC f).tick = s.tick := rfl
@[simp] theorem State.modC_agenda (f : Ctx → Ctx) : (s.modC f).agenda = s.agenda := rfl
@[simp] theorem State.modC_cur (f : Ctx → Ctx) : (s.modC f).cur = s.cur := rfl
@[simp] theorem State.modC_issue (f : Ctx → Ctx) : (s.modC f).issue = s.issue := rfl
@[simp] theorem State.modC_hdm (f : Ctx → Ctx) : (s.modC f).hdm = s.hdm := rfl

/-! ### `gw` -/

@[simp] theorem State.gw_hubs (d : BitVec 5) (v : W64) : (s.gw d v).hubs = s.hubs := rfl
@[simp] theorem State.gw_sites (d : BitVec 5) (v : W64) : (s.gw d v).sites = s.sites := rfl
@[simp] theorem State.gw_dies (d : BitVec 5) (v : W64) : (s.gw d v).dies = s.dies := rfl
@[simp] theorem State.gw_octets (d : BitVec 5) (v : W64) : (s.gw d v).octets = s.octets := rfl
@[simp] theorem State.gw_cores (d : BitVec 5) (v : W64) : (s.gw d v).cores = s.cores := rfl
@[simp] theorem State.gw_mem (d : BitVec 5) (v : W64) : (s.gw d v).mem = s.mem := rfl
@[simp] theorem State.gw_poison (d : BitVec 5) (v : W64) : (s.gw d v).poison = s.poison := rfl
@[simp] theorem State.gw_l2 (d : BitVec 5) (v : W64) : (s.gw d v).l2 = s.l2 := rfl
@[simp] theorem State.gw_slices (d : BitVec 5) (v : W64) : (s.gw d v).slices = s.slices := rfl
@[simp] theorem State.gw_reqs (d : BitVec 5) (v : W64) : (s.gw d v).reqs = s.reqs := rfl
@[simp] theorem State.gw_nextId (d : BitVec 5) (v : W64) : (s.gw d v).nextId = s.nextId := rfl
@[simp] theorem State.gw_launches (d : BitVec 5) (v : W64) : (s.gw d v).launches = s.launches := rfl
@[simp] theorem State.gw_nextLser (d : BitVec 5) (v : W64) : (s.gw d v).nextLser = s.nextLser := rfl
@[simp] theorem State.gw_groups (d : BitVec 5) (v : W64) : (s.gw d v).groups = s.groups := rfl
@[simp] theorem State.gw_rollbacks (d : BitVec 5) (v : W64) : (s.gw d v).rollbacks = s.rollbacks := rfl
@[simp] theorem State.gw_ports (d : BitVec 5) (v : W64) : (s.gw d v).ports = s.ports := rfl
@[simp] theorem State.gw_links (d : BitVec 5) (v : W64) : (s.gw d v).links = s.links := rfl
@[simp] theorem State.gw_mcasts (d : BitVec 5) (v : W64) : (s.gw d v).mcasts = s.mcasts := rfl
@[simp] theorem State.gw_watches (d : BitVec 5) (v : W64) : (s.gw d v).watches = s.watches := rfl
@[simp] theorem State.gw_out (d : BitVec 5) (v : W64) : (s.gw d v).out = s.out := rfl
@[simp] theorem State.gw_bootstat (d : BitVec 5) (v : W64) : (s.gw d v).bootstat = s.bootstat := rfl
@[simp] theorem State.gw_starting (d : BitVec 5) (v : W64) : (s.gw d v).starting = s.starting := rfl
@[simp] theorem State.gw_stage (d : BitVec 5) (v : W64) : (s.gw d v).stage = s.stage := rfl
@[simp] theorem State.gw_manifest (d : BitVec 5) (v : W64) : (s.gw d v).manifest = s.manifest := rfl
@[simp] theorem State.gw_grade (d : BitVec 5) (v : W64) : (s.gw d v).grade = s.grade := rfl
@[simp] theorem State.gw_coolant (d : BitVec 5) (v : W64) : (s.gw d v).coolant = s.coolant := rfl
@[simp] theorem State.gw_standby (d : BitVec 5) (v : W64) : (s.gw d v).standby = s.standby := rfl
@[simp] theorem State.gw_mainPower (d : BitVec 5) (v : W64) : (s.gw d v).mainPower = s.mainPower := rfl
@[simp] theorem State.gw_tick (d : BitVec 5) (v : W64) : (s.gw d v).tick = s.tick := rfl
@[simp] theorem State.gw_agenda (d : BitVec 5) (v : W64) : (s.gw d v).agenda = s.agenda := rfl
@[simp] theorem State.gw_cur (d : BitVec 5) (v : W64) : (s.gw d v).cur = s.cur := rfl
@[simp] theorem State.gw_issue (d : BitVec 5) (v : W64) : (s.gw d v).issue = s.issue := rfl
@[simp] theorem State.gw_hdm (d : BitVec 5) (v : W64) : (s.gw d v).hdm = s.hdm := rfl

/-! ### `pw` -/

@[simp] theorem State.pw_hubs (n : BitVec 3) (b : Bool) : (s.pw n b).hubs = s.hubs := rfl
@[simp] theorem State.pw_sites (n : BitVec 3) (b : Bool) : (s.pw n b).sites = s.sites := rfl
@[simp] theorem State.pw_dies (n : BitVec 3) (b : Bool) : (s.pw n b).dies = s.dies := rfl
@[simp] theorem State.pw_octets (n : BitVec 3) (b : Bool) : (s.pw n b).octets = s.octets := rfl
@[simp] theorem State.pw_cores (n : BitVec 3) (b : Bool) : (s.pw n b).cores = s.cores := rfl
@[simp] theorem State.pw_mem (n : BitVec 3) (b : Bool) : (s.pw n b).mem = s.mem := rfl
@[simp] theorem State.pw_poison (n : BitVec 3) (b : Bool) : (s.pw n b).poison = s.poison := rfl
@[simp] theorem State.pw_l2 (n : BitVec 3) (b : Bool) : (s.pw n b).l2 = s.l2 := rfl
@[simp] theorem State.pw_slices (n : BitVec 3) (b : Bool) : (s.pw n b).slices = s.slices := rfl
@[simp] theorem State.pw_reqs (n : BitVec 3) (b : Bool) : (s.pw n b).reqs = s.reqs := rfl
@[simp] theorem State.pw_nextId (n : BitVec 3) (b : Bool) : (s.pw n b).nextId = s.nextId := rfl
@[simp] theorem State.pw_launches (n : BitVec 3) (b : Bool) : (s.pw n b).launches = s.launches := rfl
@[simp] theorem State.pw_nextLser (n : BitVec 3) (b : Bool) : (s.pw n b).nextLser = s.nextLser := rfl
@[simp] theorem State.pw_groups (n : BitVec 3) (b : Bool) : (s.pw n b).groups = s.groups := rfl
@[simp] theorem State.pw_rollbacks (n : BitVec 3) (b : Bool) : (s.pw n b).rollbacks = s.rollbacks := rfl
@[simp] theorem State.pw_ports (n : BitVec 3) (b : Bool) : (s.pw n b).ports = s.ports := rfl
@[simp] theorem State.pw_links (n : BitVec 3) (b : Bool) : (s.pw n b).links = s.links := rfl
@[simp] theorem State.pw_mcasts (n : BitVec 3) (b : Bool) : (s.pw n b).mcasts = s.mcasts := rfl
@[simp] theorem State.pw_watches (n : BitVec 3) (b : Bool) : (s.pw n b).watches = s.watches := rfl
@[simp] theorem State.pw_out (n : BitVec 3) (b : Bool) : (s.pw n b).out = s.out := rfl
@[simp] theorem State.pw_bootstat (n : BitVec 3) (b : Bool) : (s.pw n b).bootstat = s.bootstat := rfl
@[simp] theorem State.pw_starting (n : BitVec 3) (b : Bool) : (s.pw n b).starting = s.starting := rfl
@[simp] theorem State.pw_stage (n : BitVec 3) (b : Bool) : (s.pw n b).stage = s.stage := rfl
@[simp] theorem State.pw_manifest (n : BitVec 3) (b : Bool) : (s.pw n b).manifest = s.manifest := rfl
@[simp] theorem State.pw_grade (n : BitVec 3) (b : Bool) : (s.pw n b).grade = s.grade := rfl
@[simp] theorem State.pw_coolant (n : BitVec 3) (b : Bool) : (s.pw n b).coolant = s.coolant := rfl
@[simp] theorem State.pw_standby (n : BitVec 3) (b : Bool) : (s.pw n b).standby = s.standby := rfl
@[simp] theorem State.pw_mainPower (n : BitVec 3) (b : Bool) : (s.pw n b).mainPower = s.mainPower := rfl
@[simp] theorem State.pw_tick (n : BitVec 3) (b : Bool) : (s.pw n b).tick = s.tick := rfl
@[simp] theorem State.pw_agenda (n : BitVec 3) (b : Bool) : (s.pw n b).agenda = s.agenda := rfl
@[simp] theorem State.pw_cur (n : BitVec 3) (b : Bool) : (s.pw n b).cur = s.cur := rfl
@[simp] theorem State.pw_issue (n : BitVec 3) (b : Bool) : (s.pw n b).issue = s.issue := rfl
@[simp] theorem State.pw_hdm (n : BitVec 3) (b : Bool) : (s.pw n b).hdm = s.hdm := rfl

/-! ### `modCore` -/

@[simp] theorem State.modCore_hubs (i k : Nat) (f : Core → Core) : (s.modCore i k f).hubs = s.hubs := rfl
@[simp] theorem State.modCore_sites (i k : Nat) (f : Core → Core) : (s.modCore i k f).sites = s.sites := rfl
@[simp] theorem State.modCore_dies (i k : Nat) (f : Core → Core) : (s.modCore i k f).dies = s.dies := rfl
@[simp] theorem State.modCore_octets (i k : Nat) (f : Core → Core) : (s.modCore i k f).octets = s.octets := rfl
@[simp] theorem State.modCore_ctxs (i k : Nat) (f : Core → Core) : (s.modCore i k f).ctxs = s.ctxs := rfl
@[simp] theorem State.modCore_mem (i k : Nat) (f : Core → Core) : (s.modCore i k f).mem = s.mem := rfl
@[simp] theorem State.modCore_poison (i k : Nat) (f : Core → Core) : (s.modCore i k f).poison = s.poison := rfl
@[simp] theorem State.modCore_l2 (i k : Nat) (f : Core → Core) : (s.modCore i k f).l2 = s.l2 := rfl
@[simp] theorem State.modCore_slices (i k : Nat) (f : Core → Core) : (s.modCore i k f).slices = s.slices := rfl
@[simp] theorem State.modCore_reqs (i k : Nat) (f : Core → Core) : (s.modCore i k f).reqs = s.reqs := rfl
@[simp] theorem State.modCore_nextId (i k : Nat) (f : Core → Core) : (s.modCore i k f).nextId = s.nextId := rfl
@[simp] theorem State.modCore_launches (i k : Nat) (f : Core → Core) : (s.modCore i k f).launches = s.launches := rfl
@[simp] theorem State.modCore_nextLser (i k : Nat) (f : Core → Core) : (s.modCore i k f).nextLser = s.nextLser := rfl
@[simp] theorem State.modCore_groups (i k : Nat) (f : Core → Core) : (s.modCore i k f).groups = s.groups := rfl
@[simp] theorem State.modCore_rollbacks (i k : Nat) (f : Core → Core) : (s.modCore i k f).rollbacks = s.rollbacks := rfl
@[simp] theorem State.modCore_ports (i k : Nat) (f : Core → Core) : (s.modCore i k f).ports = s.ports := rfl
@[simp] theorem State.modCore_links (i k : Nat) (f : Core → Core) : (s.modCore i k f).links = s.links := rfl
@[simp] theorem State.modCore_mcasts (i k : Nat) (f : Core → Core) : (s.modCore i k f).mcasts = s.mcasts := rfl
@[simp] theorem State.modCore_watches (i k : Nat) (f : Core → Core) : (s.modCore i k f).watches = s.watches := rfl
@[simp] theorem State.modCore_out (i k : Nat) (f : Core → Core) : (s.modCore i k f).out = s.out := rfl
@[simp] theorem State.modCore_bootstat (i k : Nat) (f : Core → Core) : (s.modCore i k f).bootstat = s.bootstat := rfl
@[simp] theorem State.modCore_starting (i k : Nat) (f : Core → Core) : (s.modCore i k f).starting = s.starting := rfl
@[simp] theorem State.modCore_stage (i k : Nat) (f : Core → Core) : (s.modCore i k f).stage = s.stage := rfl
@[simp] theorem State.modCore_manifest (i k : Nat) (f : Core → Core) : (s.modCore i k f).manifest = s.manifest := rfl
@[simp] theorem State.modCore_grade (i k : Nat) (f : Core → Core) : (s.modCore i k f).grade = s.grade := rfl
@[simp] theorem State.modCore_coolant (i k : Nat) (f : Core → Core) : (s.modCore i k f).coolant = s.coolant := rfl
@[simp] theorem State.modCore_standby (i k : Nat) (f : Core → Core) : (s.modCore i k f).standby = s.standby := rfl
@[simp] theorem State.modCore_mainPower (i k : Nat) (f : Core → Core) : (s.modCore i k f).mainPower = s.mainPower := rfl
@[simp] theorem State.modCore_tick (i k : Nat) (f : Core → Core) : (s.modCore i k f).tick = s.tick := rfl
@[simp] theorem State.modCore_agenda (i k : Nat) (f : Core → Core) : (s.modCore i k f).agenda = s.agenda := rfl
@[simp] theorem State.modCore_cur (i k : Nat) (f : Core → Core) : (s.modCore i k f).cur = s.cur := rfl
@[simp] theorem State.modCore_issue (i k : Nat) (f : Core → Core) : (s.modCore i k f).issue = s.issue := rfl
@[simp] theorem State.modCore_hdm (i k : Nat) (f : Core → Core) : (s.modCore i k f).hdm = s.hdm := rfl

/-! ### `modDie` -/

@[simp] theorem State.modDie_hubs (i : Nat) (f : Die → Die) : (s.modDie i f).hubs = s.hubs := rfl
@[simp] theorem State.modDie_sites (i : Nat) (f : Die → Die) : (s.modDie i f).sites = s.sites := rfl
@[simp] theorem State.modDie_octets (i : Nat) (f : Die → Die) : (s.modDie i f).octets = s.octets := rfl
@[simp] theorem State.modDie_cores (i : Nat) (f : Die → Die) : (s.modDie i f).cores = s.cores := rfl
@[simp] theorem State.modDie_ctxs (i : Nat) (f : Die → Die) : (s.modDie i f).ctxs = s.ctxs := rfl
@[simp] theorem State.modDie_mem (i : Nat) (f : Die → Die) : (s.modDie i f).mem = s.mem := rfl
@[simp] theorem State.modDie_poison (i : Nat) (f : Die → Die) : (s.modDie i f).poison = s.poison := rfl
@[simp] theorem State.modDie_l2 (i : Nat) (f : Die → Die) : (s.modDie i f).l2 = s.l2 := rfl
@[simp] theorem State.modDie_slices (i : Nat) (f : Die → Die) : (s.modDie i f).slices = s.slices := rfl
@[simp] theorem State.modDie_reqs (i : Nat) (f : Die → Die) : (s.modDie i f).reqs = s.reqs := rfl
@[simp] theorem State.modDie_nextId (i : Nat) (f : Die → Die) : (s.modDie i f).nextId = s.nextId := rfl
@[simp] theorem State.modDie_launches (i : Nat) (f : Die → Die) : (s.modDie i f).launches = s.launches := rfl
@[simp] theorem State.modDie_nextLser (i : Nat) (f : Die → Die) : (s.modDie i f).nextLser = s.nextLser := rfl
@[simp] theorem State.modDie_groups (i : Nat) (f : Die → Die) : (s.modDie i f).groups = s.groups := rfl
@[simp] theorem State.modDie_rollbacks (i : Nat) (f : Die → Die) : (s.modDie i f).rollbacks = s.rollbacks := rfl
@[simp] theorem State.modDie_ports (i : Nat) (f : Die → Die) : (s.modDie i f).ports = s.ports := rfl
@[simp] theorem State.modDie_links (i : Nat) (f : Die → Die) : (s.modDie i f).links = s.links := rfl
@[simp] theorem State.modDie_mcasts (i : Nat) (f : Die → Die) : (s.modDie i f).mcasts = s.mcasts := rfl
@[simp] theorem State.modDie_watches (i : Nat) (f : Die → Die) : (s.modDie i f).watches = s.watches := rfl
@[simp] theorem State.modDie_out (i : Nat) (f : Die → Die) : (s.modDie i f).out = s.out := rfl
@[simp] theorem State.modDie_bootstat (i : Nat) (f : Die → Die) : (s.modDie i f).bootstat = s.bootstat := rfl
@[simp] theorem State.modDie_starting (i : Nat) (f : Die → Die) : (s.modDie i f).starting = s.starting := rfl
@[simp] theorem State.modDie_stage (i : Nat) (f : Die → Die) : (s.modDie i f).stage = s.stage := rfl
@[simp] theorem State.modDie_manifest (i : Nat) (f : Die → Die) : (s.modDie i f).manifest = s.manifest := rfl
@[simp] theorem State.modDie_grade (i : Nat) (f : Die → Die) : (s.modDie i f).grade = s.grade := rfl
@[simp] theorem State.modDie_coolant (i : Nat) (f : Die → Die) : (s.modDie i f).coolant = s.coolant := rfl
@[simp] theorem State.modDie_standby (i : Nat) (f : Die → Die) : (s.modDie i f).standby = s.standby := rfl
@[simp] theorem State.modDie_mainPower (i : Nat) (f : Die → Die) : (s.modDie i f).mainPower = s.mainPower := rfl
@[simp] theorem State.modDie_tick (i : Nat) (f : Die → Die) : (s.modDie i f).tick = s.tick := rfl
@[simp] theorem State.modDie_agenda (i : Nat) (f : Die → Die) : (s.modDie i f).agenda = s.agenda := rfl
@[simp] theorem State.modDie_cur (i : Nat) (f : Die → Die) : (s.modDie i f).cur = s.cur := rfl
@[simp] theorem State.modDie_issue (i : Nat) (f : Die → Die) : (s.modDie i f).issue = s.issue := rfl
@[simp] theorem State.modDie_hdm (i : Nat) (f : Die → Die) : (s.modDie i f).hdm = s.hdm := rfl

/-! ### `modOctet` -/

@[simp] theorem State.modOctet_hubs (i k : Nat) (f : Octet → Octet) : (s.modOctet i k f).hubs = s.hubs := rfl
@[simp] theorem State.modOctet_sites (i k : Nat) (f : Octet → Octet) : (s.modOctet i k f).sites = s.sites := rfl
@[simp] theorem State.modOctet_dies (i k : Nat) (f : Octet → Octet) : (s.modOctet i k f).dies = s.dies := rfl
@[simp] theorem State.modOctet_cores (i k : Nat) (f : Octet → Octet) : (s.modOctet i k f).cores = s.cores := rfl
@[simp] theorem State.modOctet_ctxs (i k : Nat) (f : Octet → Octet) : (s.modOctet i k f).ctxs = s.ctxs := rfl
@[simp] theorem State.modOctet_mem (i k : Nat) (f : Octet → Octet) : (s.modOctet i k f).mem = s.mem := rfl
@[simp] theorem State.modOctet_poison (i k : Nat) (f : Octet → Octet) : (s.modOctet i k f).poison = s.poison := rfl
@[simp] theorem State.modOctet_l2 (i k : Nat) (f : Octet → Octet) : (s.modOctet i k f).l2 = s.l2 := rfl
@[simp] theorem State.modOctet_slices (i k : Nat) (f : Octet → Octet) : (s.modOctet i k f).slices = s.slices := rfl
@[simp] theorem State.modOctet_reqs (i k : Nat) (f : Octet → Octet) : (s.modOctet i k f).reqs = s.reqs := rfl
@[simp] theorem State.modOctet_nextId (i k : Nat) (f : Octet → Octet) : (s.modOctet i k f).nextId = s.nextId := rfl
@[simp] theorem State.modOctet_launches (i k : Nat) (f : Octet → Octet) : (s.modOctet i k f).launches = s.launches := rfl
@[simp] theorem State.modOctet_nextLser (i k : Nat) (f : Octet → Octet) : (s.modOctet i k f).nextLser = s.nextLser := rfl
@[simp] theorem State.modOctet_groups (i k : Nat) (f : Octet → Octet) : (s.modOctet i k f).groups = s.groups := rfl
@[simp] theorem State.modOctet_rollbacks (i k : Nat) (f : Octet → Octet) : (s.modOctet i k f).rollbacks = s.rollbacks := rfl
@[simp] theorem State.modOctet_ports (i k : Nat) (f : Octet → Octet) : (s.modOctet i k f).ports = s.ports := rfl
@[simp] theorem State.modOctet_links (i k : Nat) (f : Octet → Octet) : (s.modOctet i k f).links = s.links := rfl
@[simp] theorem State.modOctet_mcasts (i k : Nat) (f : Octet → Octet) : (s.modOctet i k f).mcasts = s.mcasts := rfl
@[simp] theorem State.modOctet_watches (i k : Nat) (f : Octet → Octet) : (s.modOctet i k f).watches = s.watches := rfl
@[simp] theorem State.modOctet_out (i k : Nat) (f : Octet → Octet) : (s.modOctet i k f).out = s.out := rfl
@[simp] theorem State.modOctet_bootstat (i k : Nat) (f : Octet → Octet) : (s.modOctet i k f).bootstat = s.bootstat := rfl
@[simp] theorem State.modOctet_starting (i k : Nat) (f : Octet → Octet) : (s.modOctet i k f).starting = s.starting := rfl
@[simp] theorem State.modOctet_stage (i k : Nat) (f : Octet → Octet) : (s.modOctet i k f).stage = s.stage := rfl
@[simp] theorem State.modOctet_manifest (i k : Nat) (f : Octet → Octet) : (s.modOctet i k f).manifest = s.manifest := rfl
@[simp] theorem State.modOctet_grade (i k : Nat) (f : Octet → Octet) : (s.modOctet i k f).grade = s.grade := rfl
@[simp] theorem State.modOctet_coolant (i k : Nat) (f : Octet → Octet) : (s.modOctet i k f).coolant = s.coolant := rfl
@[simp] theorem State.modOctet_standby (i k : Nat) (f : Octet → Octet) : (s.modOctet i k f).standby = s.standby := rfl
@[simp] theorem State.modOctet_mainPower (i k : Nat) (f : Octet → Octet) : (s.modOctet i k f).mainPower = s.mainPower := rfl
@[simp] theorem State.modOctet_tick (i k : Nat) (f : Octet → Octet) : (s.modOctet i k f).tick = s.tick := rfl
@[simp] theorem State.modOctet_agenda (i k : Nat) (f : Octet → Octet) : (s.modOctet i k f).agenda = s.agenda := rfl
@[simp] theorem State.modOctet_cur (i k : Nat) (f : Octet → Octet) : (s.modOctet i k f).cur = s.cur := rfl
@[simp] theorem State.modOctet_issue (i k : Nat) (f : Octet → Octet) : (s.modOctet i k f).issue = s.issue := rfl
@[simp] theorem State.modOctet_hdm (i k : Nat) (f : Octet → Octet) : (s.modOctet i k f).hdm = s.hdm := rfl

/-! ### `modHub` -/

@[simp] theorem State.modHub_sites (h : Nat) (f : Hub → Hub) : (s.modHub h f).sites = s.sites := rfl
@[simp] theorem State.modHub_dies (h : Nat) (f : Hub → Hub) : (s.modHub h f).dies = s.dies := rfl
@[simp] theorem State.modHub_octets (h : Nat) (f : Hub → Hub) : (s.modHub h f).octets = s.octets := rfl
@[simp] theorem State.modHub_cores (h : Nat) (f : Hub → Hub) : (s.modHub h f).cores = s.cores := rfl
@[simp] theorem State.modHub_ctxs (h : Nat) (f : Hub → Hub) : (s.modHub h f).ctxs = s.ctxs := rfl
@[simp] theorem State.modHub_mem (h : Nat) (f : Hub → Hub) : (s.modHub h f).mem = s.mem := rfl
@[simp] theorem State.modHub_poison (h : Nat) (f : Hub → Hub) : (s.modHub h f).poison = s.poison := rfl
@[simp] theorem State.modHub_l2 (h : Nat) (f : Hub → Hub) : (s.modHub h f).l2 = s.l2 := rfl
@[simp] theorem State.modHub_slices (h : Nat) (f : Hub → Hub) : (s.modHub h f).slices = s.slices := rfl
@[simp] theorem State.modHub_reqs (h : Nat) (f : Hub → Hub) : (s.modHub h f).reqs = s.reqs := rfl
@[simp] theorem State.modHub_nextId (h : Nat) (f : Hub → Hub) : (s.modHub h f).nextId = s.nextId := rfl
@[simp] theorem State.modHub_launches (h : Nat) (f : Hub → Hub) : (s.modHub h f).launches = s.launches := rfl
@[simp] theorem State.modHub_nextLser (h : Nat) (f : Hub → Hub) : (s.modHub h f).nextLser = s.nextLser := rfl
@[simp] theorem State.modHub_groups (h : Nat) (f : Hub → Hub) : (s.modHub h f).groups = s.groups := rfl
@[simp] theorem State.modHub_rollbacks (h : Nat) (f : Hub → Hub) : (s.modHub h f).rollbacks = s.rollbacks := rfl
@[simp] theorem State.modHub_ports (h : Nat) (f : Hub → Hub) : (s.modHub h f).ports = s.ports := rfl
@[simp] theorem State.modHub_links (h : Nat) (f : Hub → Hub) : (s.modHub h f).links = s.links := rfl
@[simp] theorem State.modHub_mcasts (h : Nat) (f : Hub → Hub) : (s.modHub h f).mcasts = s.mcasts := rfl
@[simp] theorem State.modHub_watches (h : Nat) (f : Hub → Hub) : (s.modHub h f).watches = s.watches := rfl
@[simp] theorem State.modHub_out (h : Nat) (f : Hub → Hub) : (s.modHub h f).out = s.out := rfl
@[simp] theorem State.modHub_bootstat (h : Nat) (f : Hub → Hub) : (s.modHub h f).bootstat = s.bootstat := rfl
@[simp] theorem State.modHub_starting (h : Nat) (f : Hub → Hub) : (s.modHub h f).starting = s.starting := rfl
@[simp] theorem State.modHub_stage (h : Nat) (f : Hub → Hub) : (s.modHub h f).stage = s.stage := rfl
@[simp] theorem State.modHub_manifest (h : Nat) (f : Hub → Hub) : (s.modHub h f).manifest = s.manifest := rfl
@[simp] theorem State.modHub_grade (h : Nat) (f : Hub → Hub) : (s.modHub h f).grade = s.grade := rfl
@[simp] theorem State.modHub_coolant (h : Nat) (f : Hub → Hub) : (s.modHub h f).coolant = s.coolant := rfl
@[simp] theorem State.modHub_standby (h : Nat) (f : Hub → Hub) : (s.modHub h f).standby = s.standby := rfl
@[simp] theorem State.modHub_mainPower (h : Nat) (f : Hub → Hub) : (s.modHub h f).mainPower = s.mainPower := rfl
@[simp] theorem State.modHub_tick (h : Nat) (f : Hub → Hub) : (s.modHub h f).tick = s.tick := rfl
@[simp] theorem State.modHub_agenda (h : Nat) (f : Hub → Hub) : (s.modHub h f).agenda = s.agenda := rfl
@[simp] theorem State.modHub_cur (h : Nat) (f : Hub → Hub) : (s.modHub h f).cur = s.cur := rfl
@[simp] theorem State.modHub_issue (h : Nat) (f : Hub → Hub) : (s.modHub h f).issue = s.issue := rfl
@[simp] theorem State.modHub_hdm (h : Nat) (f : Hub → Hub) : (s.modHub h f).hdm = s.hdm := rfl

/-! ### `next` -/

@[simp] theorem State.next_hubs : s.next.hubs = s.hubs := rfl
@[simp] theorem State.next_sites : s.next.sites = s.sites := rfl
@[simp] theorem State.next_dies : s.next.dies = s.dies := rfl
@[simp] theorem State.next_octets : s.next.octets = s.octets := rfl
@[simp] theorem State.next_cores : s.next.cores = s.cores := rfl
@[simp] theorem State.next_ctxs : s.next.ctxs = s.ctxs := rfl
@[simp] theorem State.next_mem : s.next.mem = s.mem := rfl
@[simp] theorem State.next_poison : s.next.poison = s.poison := rfl
@[simp] theorem State.next_l2 : s.next.l2 = s.l2 := rfl
@[simp] theorem State.next_slices : s.next.slices = s.slices := rfl
@[simp] theorem State.next_reqs : s.next.reqs = s.reqs := rfl
@[simp] theorem State.next_nextId : s.next.nextId = s.nextId := rfl
@[simp] theorem State.next_launches : s.next.launches = s.launches := rfl
@[simp] theorem State.next_nextLser : s.next.nextLser = s.nextLser := rfl
@[simp] theorem State.next_groups : s.next.groups = s.groups := rfl
@[simp] theorem State.next_rollbacks : s.next.rollbacks = s.rollbacks := rfl
@[simp] theorem State.next_ports : s.next.ports = s.ports := rfl
@[simp] theorem State.next_links : s.next.links = s.links := rfl
@[simp] theorem State.next_mcasts : s.next.mcasts = s.mcasts := rfl
@[simp] theorem State.next_watches : s.next.watches = s.watches := rfl
@[simp] theorem State.next_out : s.next.out = s.out := rfl
@[simp] theorem State.next_bootstat : s.next.bootstat = s.bootstat := rfl
@[simp] theorem State.next_starting : s.next.starting = s.starting := rfl
@[simp] theorem State.next_stage : s.next.stage = s.stage := rfl
@[simp] theorem State.next_manifest : s.next.manifest = s.manifest := rfl
@[simp] theorem State.next_grade : s.next.grade = s.grade := rfl
@[simp] theorem State.next_coolant : s.next.coolant = s.coolant := rfl
@[simp] theorem State.next_standby : s.next.standby = s.standby := rfl
@[simp] theorem State.next_mainPower : s.next.mainPower = s.mainPower := rfl
@[simp] theorem State.next_agenda : s.next.agenda = s.agenda := rfl
@[simp] theorem State.next_cur : s.next.cur = s.cur := rfl
@[simp] theorem State.next_issue : s.next.issue = s.issue := rfl
@[simp] theorem State.next_hdm : s.next.hdm = s.hdm := rfl

/-! ### `emit` -/

@[simp] theorem State.emit_hubs (o : Out) : (s.emit o).hubs = s.hubs := rfl
@[simp] theorem State.emit_sites (o : Out) : (s.emit o).sites = s.sites := rfl
@[simp] theorem State.emit_dies (o : Out) : (s.emit o).dies = s.dies := rfl
@[simp] theorem State.emit_octets (o : Out) : (s.emit o).octets = s.octets := rfl
@[simp] theorem State.emit_cores (o : Out) : (s.emit o).cores = s.cores := rfl
@[simp] theorem State.emit_ctxs (o : Out) : (s.emit o).ctxs = s.ctxs := rfl
@[simp] theorem State.emit_mem (o : Out) : (s.emit o).mem = s.mem := rfl
@[simp] theorem State.emit_poison (o : Out) : (s.emit o).poison = s.poison := rfl
@[simp] theorem State.emit_l2 (o : Out) : (s.emit o).l2 = s.l2 := rfl
@[simp] theorem State.emit_slices (o : Out) : (s.emit o).slices = s.slices := rfl
@[simp] theorem State.emit_reqs (o : Out) : (s.emit o).reqs = s.reqs := rfl
@[simp] theorem State.emit_nextId (o : Out) : (s.emit o).nextId = s.nextId := rfl
@[simp] theorem State.emit_launches (o : Out) : (s.emit o).launches = s.launches := rfl
@[simp] theorem State.emit_nextLser (o : Out) : (s.emit o).nextLser = s.nextLser := rfl
@[simp] theorem State.emit_groups (o : Out) : (s.emit o).groups = s.groups := rfl
@[simp] theorem State.emit_rollbacks (o : Out) : (s.emit o).rollbacks = s.rollbacks := rfl
@[simp] theorem State.emit_ports (o : Out) : (s.emit o).ports = s.ports := rfl
@[simp] theorem State.emit_links (o : Out) : (s.emit o).links = s.links := rfl
@[simp] theorem State.emit_mcasts (o : Out) : (s.emit o).mcasts = s.mcasts := rfl
@[simp] theorem State.emit_watches (o : Out) : (s.emit o).watches = s.watches := rfl
@[simp] theorem State.emit_bootstat (o : Out) : (s.emit o).bootstat = s.bootstat := rfl
@[simp] theorem State.emit_starting (o : Out) : (s.emit o).starting = s.starting := rfl
@[simp] theorem State.emit_stage (o : Out) : (s.emit o).stage = s.stage := rfl
@[simp] theorem State.emit_manifest (o : Out) : (s.emit o).manifest = s.manifest := rfl
@[simp] theorem State.emit_grade (o : Out) : (s.emit o).grade = s.grade := rfl
@[simp] theorem State.emit_coolant (o : Out) : (s.emit o).coolant = s.coolant := rfl
@[simp] theorem State.emit_standby (o : Out) : (s.emit o).standby = s.standby := rfl
@[simp] theorem State.emit_mainPower (o : Out) : (s.emit o).mainPower = s.mainPower := rfl
@[simp] theorem State.emit_tick (o : Out) : (s.emit o).tick = s.tick := rfl
@[simp] theorem State.emit_agenda (o : Out) : (s.emit o).agenda = s.agenda := rfl
@[simp] theorem State.emit_cur (o : Out) : (s.emit o).cur = s.cur := rfl
@[simp] theorem State.emit_issue (o : Out) : (s.emit o).issue = s.issue := rfl
@[simp] theorem State.emit_hdm (o : Out) : (s.emit o).hdm = s.hdm := rfl

/-! ### `flow` -/

@[simp] theorem State.flow_hubs (f : Flow) : (s.flow f).hubs = s.hubs := rfl
@[simp] theorem State.flow_sites (f : Flow) : (s.flow f).sites = s.sites := rfl
@[simp] theorem State.flow_dies (f : Flow) : (s.flow f).dies = s.dies := rfl
@[simp] theorem State.flow_octets (f : Flow) : (s.flow f).octets = s.octets := rfl
@[simp] theorem State.flow_cores (f : Flow) : (s.flow f).cores = s.cores := rfl
@[simp] theorem State.flow_ctxs (f : Flow) : (s.flow f).ctxs = s.ctxs := rfl
@[simp] theorem State.flow_mem (f : Flow) : (s.flow f).mem = s.mem := rfl
@[simp] theorem State.flow_poison (f : Flow) : (s.flow f).poison = s.poison := rfl
@[simp] theorem State.flow_l2 (f : Flow) : (s.flow f).l2 = s.l2 := rfl
@[simp] theorem State.flow_slices (f : Flow) : (s.flow f).slices = s.slices := rfl
@[simp] theorem State.flow_reqs (f : Flow) : (s.flow f).reqs = s.reqs := rfl
@[simp] theorem State.flow_nextId (f : Flow) : (s.flow f).nextId = s.nextId := rfl
@[simp] theorem State.flow_launches (f : Flow) : (s.flow f).launches = s.launches := rfl
@[simp] theorem State.flow_nextLser (f : Flow) : (s.flow f).nextLser = s.nextLser := rfl
@[simp] theorem State.flow_groups (f : Flow) : (s.flow f).groups = s.groups := rfl
@[simp] theorem State.flow_rollbacks (f : Flow) : (s.flow f).rollbacks = s.rollbacks := rfl
@[simp] theorem State.flow_ports (f : Flow) : (s.flow f).ports = s.ports := rfl
@[simp] theorem State.flow_links (f : Flow) : (s.flow f).links = s.links := rfl
@[simp] theorem State.flow_mcasts (f : Flow) : (s.flow f).mcasts = s.mcasts := rfl
@[simp] theorem State.flow_watches (f : Flow) : (s.flow f).watches = s.watches := rfl
@[simp] theorem State.flow_out (f : Flow) : (s.flow f).out = s.out := rfl
@[simp] theorem State.flow_bootstat (f : Flow) : (s.flow f).bootstat = s.bootstat := rfl
@[simp] theorem State.flow_starting (f : Flow) : (s.flow f).starting = s.starting := rfl
@[simp] theorem State.flow_stage (f : Flow) : (s.flow f).stage = s.stage := rfl
@[simp] theorem State.flow_manifest (f : Flow) : (s.flow f).manifest = s.manifest := rfl
@[simp] theorem State.flow_grade (f : Flow) : (s.flow f).grade = s.grade := rfl
@[simp] theorem State.flow_coolant (f : Flow) : (s.flow f).coolant = s.coolant := rfl
@[simp] theorem State.flow_standby (f : Flow) : (s.flow f).standby = s.standby := rfl
@[simp] theorem State.flow_mainPower (f : Flow) : (s.flow f).mainPower = s.mainPower := rfl
@[simp] theorem State.flow_tick (f : Flow) : (s.flow f).tick = s.tick := rfl
@[simp] theorem State.flow_agenda (f : Flow) : (s.flow f).agenda = s.agenda := rfl
@[simp] theorem State.flow_cur (f : Flow) : (s.flow f).cur = s.cur := rfl
@[simp] theorem State.flow_hdm (f : Flow) : (s.flow f).hdm = s.hdm := rfl

/-! ### Writes of a context -/

@[simp] theorem Ctx.wg_st (c : Ctx) (d : BitVec 5) (v : W64) : (c.wg d v).st = c.st := by unfold Ctx.wg; split <;> rfl
@[simp] theorem Ctx.wg_prior (c : Ctx) (d : BitVec 5) (v : W64) : (c.wg d v).prior = c.prior := by unfold Ctx.wg; split <;> rfl
@[simp] theorem Ctx.wg_sys (c : Ctx) (d : BitVec 5) (v : W64) : (c.wg d v).sys = c.sys := by unfold Ctx.wg; split <;> rfl
@[simp] theorem Ctx.wg_gang (c : Ctx) (d : BitVec 5) (v : W64) : (c.wg d v).gang = c.gang := by unfold Ctx.wg; split <;> rfl
@[simp] theorem Ctx.wg_held (c : Ctx) (d : BitVec 5) (v : W64) : (c.wg d v).held = c.held := by unfold Ctx.wg; split <;> rfl
@[simp] theorem Ctx.wg_want (c : Ctx) (d : BitVec 5) (v : W64) : (c.wg d v).want = c.want := by unfold Ctx.wg; split <;> rfl
@[simp] theorem Ctx.wg_p (c : Ctx) (d : BitVec 5) (v : W64) : (c.wg d v).p = c.p := by unfold Ctx.wg; split <;> rfl
@[simp] theorem Ctx.wg_v (c : Ctx) (d : BitVec 5) (v : W64) : (c.wg d v).v = c.v := by unfold Ctx.wg; split <;> rfl
@[simp] theorem Ctx.wg_m (c : Ctx) (d : BitVec 5) (v : W64) : (c.wg d v).m = c.m := by unfold Ctx.wg; split <;> rfl
@[simp] theorem Ctx.wg_ls (c : Ctx) (d : BitVec 5) (v : W64) : (c.wg d v).ls = c.ls := by unfold Ctx.wg; split <;> rfl
@[simp] theorem Ctx.wg_le (c : Ctx) (d : BitVec 5) (v : W64) : (c.wg d v).le = c.le := by unfold Ctx.wg; split <;> rfl
@[simp] theorem Ctx.wg_lc (c : Ctx) (d : BitVec 5) (v : W64) : (c.wg d v).lc = c.lc := by unfold Ctx.wg; split <;> rfl
@[simp] theorem Ctx.wg_ja0 (c : Ctx) (d : BitVec 5) (v : W64) : (c.wg d v).ja0 = c.ja0 := by unfold Ctx.wg; split <;> rfl
@[simp] theorem Ctx.wg_ja1 (c : Ctx) (d : BitVec 5) (v : W64) : (c.wg d v).ja1 = c.ja1 := by unfold Ctx.wg; split <;> rfl
@[simp] theorem Ctx.wg_lr (c : Ctx) (d : BitVec 5) (v : W64) : (c.wg d v).lr = c.lr := by unfold Ctx.wg; split <;> rfl
@[simp] theorem Ctx.wg_ocl (c : Ctx) (d : BitVec 5) (v : W64) : (c.wg d v).ocl = c.ocl := by unfold Ctx.wg; split <;> rfl
@[simp] theorem Ctx.wg_ocs (c : Ctx) (d : BitVec 5) (v : W64) : (c.wg d v).ocs = c.ocs := by unfold Ctx.wg; split <;> rfl
@[simp] theorem Ctx.wg_occ (c : Ctx) (d : BitVec 5) (v : W64) : (c.wg d v).occ = c.occ := by unfold Ctx.wg; split <;> rfl
@[simp] theorem Ctx.wg_oct (c : Ctx) (d : BitVec 5) (v : W64) : (c.wg d v).oct = c.oct := by unfold Ctx.wg; split <;> rfl
@[simp] theorem Ctx.wg_pc (c : Ctx) (d : BitVec 5) (v : W64) : (c.wg d v).pc = c.pc := by unfold Ctx.wg; split <;> rfl
@[simp] theorem Ctx.wg_slot (c : Ctx) (d : BitVec 5) (v : W64) : (c.wg d v).slot = c.slot := by unfold Ctx.wg; split <;> rfl
@[simp] theorem Ctx.wg_mid (c : Ctx) (d : BitVec 5) (v : W64) : (c.wg d v).mid = c.mid := by unfold Ctx.wg; split <;> rfl
@[simp] theorem Ctx.wg_loopNext (c : Ctx) (d : BitVec 5) (v : W64) : (c.wg d v).loopNext = c.loopNext := by unfold Ctx.wg; split <;> rfl
@[simp] theorem Ctx.wg_dict (c : Ctx) (d : BitVec 5) (v : W64) : (c.wg d v).dict = c.dict := by unfold Ctx.wg; split <;> rfl
@[simp] theorem Ctx.wg_dictOld (c : Ctx) (d : BitVec 5) (v : W64) : (c.wg d v).dictOld = c.dictOld := by unfold Ctx.wg; split <;> rfl
@[simp] theorem Ctx.wg_dactive (c : Ctx) (d : BitVec 5) (v : W64) : (c.wg d v).dactive = c.dactive := by unfold Ctx.wg; split <;> rfl
@[simp] theorem Ctx.wg_dload (c : Ctx) (d : BitVec 5) (v : W64) : (c.wg d v).dload = c.dload := by unfold Ctx.wg; split <;> rfl
@[simp] theorem Ctx.wg_lbank (c : Ctx) (d : BitVec 5) (v : W64) : (c.wg d v).lbank = c.lbank := by unfold Ctx.wg; split <;> rfl
@[simp] theorem Ctx.wg_dictbase (c : Ctx) (d : BitVec 5) (v : W64) : (c.wg d v).dictbase = c.dictbase := by unfold Ctx.wg; split <;> rfl
@[simp] theorem Ctx.wg_asid (c : Ctx) (d : BitVec 5) (v : W64) : (c.wg d v).asid = c.asid := by unfold Ctx.wg; split <;> rfl
@[simp] theorem Ctx.wg_tcause (c : Ctx) (d : BitVec 5) (v : W64) : (c.wg d v).tcause = c.tcause := by unfold Ctx.wg; split <;> rfl
@[simp] theorem Ctx.wg_tval (c : Ctx) (d : BitVec 5) (v : W64) : (c.wg d v).tval = c.tval := by unfold Ctx.wg; split <;> rfl
@[simp] theorem Ctx.wg_trappc (c : Ctx) (d : BitVec 5) (v : W64) : (c.wg d v).trappc = c.trappc := by unfold Ctx.wg; split <;> rfl
@[simp] theorem Ctx.wg_tstat (c : Ctx) (d : BitVec 5) (v : W64) : (c.wg d v).tstat = c.tstat := by unfold Ctx.wg; split <;> rfl
@[simp] theorem Ctx.wg_tvec (c : Ctx) (d : BitVec 5) (v : W64) : (c.wg d v).tvec = c.tvec := by unfold Ctx.wg; split <;> rfl
@[simp] theorem Ctx.wg_tscratch0 (c : Ctx) (d : BitVec 5) (v : W64) : (c.wg d v).tscratch0 = c.tscratch0 := by unfold Ctx.wg; split <;> rfl
@[simp] theorem Ctx.wg_tscratch1 (c : Ctx) (d : BitVec 5) (v : W64) : (c.wg d v).tscratch1 = c.tscratch1 := by unfold Ctx.wg; split <;> rfl
@[simp] theorem Ctx.wg_wscale (c : Ctx) (d : BitVec 5) (v : W64) : (c.wg d v).wscale = c.wscale := by unfold Ctx.wg; split <;> rfl
@[simp] theorem Ctx.wg_issued (c : Ctx) (d : BitVec 5) (v : W64) : (c.wg d v).issued = c.issued := by unfold Ctx.wg; split <;> rfl
@[simp] theorem Ctx.wg_lanepat (c : Ctx) (d : BitVec 5) (v : W64) : (c.wg d v).lanepat = c.lanepat := by unfold Ctx.wg; split <;> rfl
@[simp] theorem Ctx.wg_npsec (c : Ctx) (d : BitVec 5) (v : W64) : (c.wg d v).npsec = c.npsec := by unfold Ctx.wg; split <;> rfl
@[simp] theorem Ctx.wg_npcount (c : Ctx) (d : BitVec 5) (v : W64) : (c.wg d v).npcount = c.npcount := by unfold Ctx.wg; split <;> rfl
@[simp] theorem Ctx.wg_girthSel (c : Ctx) (d : BitVec 5) (v : W64) : (c.wg d v).girthSel = c.girthSel := by unfold Ctx.wg; split <;> rfl
@[simp] theorem Ctx.wg_pwrreq (c : Ctx) (d : BitVec 5) (v : W64) : (c.wg d v).pwrreq = c.pwrreq := by unfold Ctx.wg; split <;> rfl
@[simp] theorem Ctx.wg_reqst (c : Ctx) (d : BitVec 5) (v : W64) : (c.wg d v).reqst = c.reqst := by unfold Ctx.wg; split <;> rfl
@[simp] theorem Ctx.wg_energy (c : Ctx) (d : BitVec 5) (v : W64) : (c.wg d v).energy = c.energy := by unfold Ctx.wg; split <;> rfl
@[simp] theorem Ctx.wg_pendAsync (c : Ctx) (d : BitVec 5) (v : W64) : (c.wg d v).pendAsync = c.pendAsync := by unfold Ctx.wg; split <;> rfl
@[simp] theorem Ctx.wg_pendStore (c : Ctx) (d : BitVec 5) (v : W64) : (c.wg d v).pendStore = c.pendStore := by unfold Ctx.wg; split <;> rfl
@[simp] theorem Ctx.wg_fatal (c : Ctx) (d : BitVec 5) (v : W64) : (c.wg d v).fatal = c.fatal := by unfold Ctx.wg; split <;> rfl
@[simp] theorem Ctx.wg_preReq (c : Ctx) (d : BitVec 5) (v : W64) : (c.wg d v).preReq = c.preReq := by unfold Ctx.wg; split <;> rfl
@[simp] theorem Ctx.wg_preHold (c : Ctx) (d : BitVec 5) (v : W64) : (c.wg d v).preHold = c.preHold := by unfold Ctx.wg; split <;> rfl
@[simp] theorem Ctx.wg_hold (c : Ctx) (d : BitVec 5) (v : W64) : (c.wg d v).hold = c.hold := by unfold Ctx.wg; split <;> rfl
@[simp] theorem Ctx.wg_xslots (c : Ctx) (d : BitVec 5) (v : W64) : (c.wg d v).xslots = c.xslots := by unfold Ctx.wg; split <;> rfl
@[simp] theorem Ctx.wg_xseq (c : Ctx) (d : BitVec 5) (v : W64) : (c.wg d v).xseq = c.xseq := by unfold Ctx.wg; split <;> rfl
@[simp] theorem Ctx.wg_girthRec (c : Ctx) (d : BitVec 5) (v : W64) : (c.wg d v).girthRec = c.girthRec := by unfold Ctx.wg; split <;> rfl
@[simp] theorem Ctx.wg_girthFlip (c : Ctx) (d : BitVec 5) (v : W64) : (c.wg d v).girthFlip = c.girthFlip := by unfold Ctx.wg; split <;> rfl
@[simp] theorem Ctx.wg_task (c : Ctx) (d : BitVec 5) (v : W64) : (c.wg d v).task = c.task := by unfold Ctx.wg; split <;> rfl
@[simp] theorem Ctx.wg_wait (c : Ctx) (d : BitVec 5) (v : W64) : (c.wg d v).wait = c.wait := by unfold Ctx.wg; split <;> rfl
@[simp] theorem Ctx.wg_fired (c : Ctx) (d : BitVec 5) (v : W64) : (c.wg d v).fired = c.fired := by unfold Ctx.wg; split <;> rfl
@[simp] theorem Ctx.wg_pend (c : Ctx) (d : BitVec 5) (v : W64) : (c.wg d v).pend = c.pend := by unfold Ctx.wg; split <;> rfl
@[simp] theorem Ctx.wg_mxstage (c : Ctx) (d : BitVec 5) (v : W64) : (c.wg d v).mxstage = c.mxstage := by unfold Ctx.wg; split <;> rfl
@[simp] theorem Ctx.wg_mxfault (c : Ctx) (d : BitVec 5) (v : W64) : (c.wg d v).mxfault = c.mxfault := by unfold Ctx.wg; split <;> rfl
@[simp] theorem Ctx.wg_mxfaddr (c : Ctx) (d : BitVec 5) (v : W64) : (c.wg d v).mxfaddr = c.mxfaddr := by unfold Ctx.wg; split <;> rfl
@[simp] theorem Ctx.wg_cpsrc (c : Ctx) (d : BitVec 5) (v : W64) : (c.wg d v).cpsrc = c.cpsrc := by unfold Ctx.wg; split <;> rfl
@[simp] theorem Ctx.wg_cpdst (c : Ctx) (d : BitVec 5) (v : W64) : (c.wg d v).cpdst = c.cpdst := by unfold Ctx.wg; split <;> rfl
@[simp] theorem Ctx.wg_cplen (c : Ctx) (d : BitVec 5) (v : W64) : (c.wg d v).cplen = c.cplen := by unfold Ctx.wg; split <;> rfl
@[simp] theorem Ctx.wg_cpstride (c : Ctx) (d : BitVec 5) (v : W64) : (c.wg d v).cpstride = c.cpstride := by unfold Ctx.wg; split <;> rfl
@[simp] theorem Ctx.wg_cpctl (c : Ctx) (d : BitVec 5) (v : W64) : (c.wg d v).cpctl = c.cpctl := by unfold Ctx.wg; split <;> rfl
@[simp] theorem Ctx.wg_cpArmed (c : Ctx) (d : BitVec 5) (v : W64) : (c.wg d v).cpArmed = c.cpArmed := by unfold Ctx.wg; split <;> rfl
@[simp] theorem Ctx.wg_cpfault (c : Ctx) (d : BitVec 5) (v : W64) : (c.wg d v).cpfault = c.cpfault := by unfold Ctx.wg; split <;> rfl
@[simp] theorem Ctx.wg_cpfaddr (c : Ctx) (d : BitVec 5) (v : W64) : (c.wg d v).cpfaddr = c.cpfaddr := by unfold Ctx.wg; split <;> rfl
@[simp] theorem Ctx.wg_sfuBusy (c : Ctx) (d : BitVec 5) (v : W64) : (c.wg d v).sfuBusy = c.sfuBusy := by unfold Ctx.wg; split <;> rfl
@[simp] theorem Ctx.wg_walkFault (c : Ctx) (d : BitVec 5) (v : W64) : (c.wg d v).walkFault = c.walkFault := by unfold Ctx.wg; split <;> rfl
@[simp] theorem Ctx.wg_retain (c : Ctx) (d : BitVec 5) (v : W64) : (c.wg d v).retain = c.retain := by unfold Ctx.wg; split <;> rfl
@[simp] theorem Ctx.wg_redo (c : Ctx) (d : BitVec 5) (v : W64) : (c.wg d v).redo = c.redo := by unfold Ctx.wg; split <;> rfl
@[simp] theorem Ctx.wg_was (c : Ctx) (d : BitVec 5) (v : W64) : (c.wg d v).was = c.was := by unfold Ctx.wg; split <;> rfl
@[simp] theorem Ctx.wg_handler (c : Ctx) (d : BitVec 5) (v : W64) : (c.wg d v).handler = c.handler := by unfold Ctx.wg; split <;> rfl
@[simp] theorem Ctx.wg_savedClaim (c : Ctx) (d : BitVec 5) (v : W64) : (c.wg d v).savedClaim = c.savedClaim := by unfold Ctx.wg; split <;> rfl
@[simp] theorem Ctx.wg_savedSlots (c : Ctx) (d : BitVec 5) (v : W64) : (c.wg d v).savedSlots = c.savedSlots := by unfold Ctx.wg; split <;> rfl
@[simp] theorem Ctx.wg_preOrder (c : Ctx) (d : BitVec 5) (v : W64) : (c.wg d v).preOrder = c.preOrder := by unfold Ctx.wg; split <;> rfl
@[simp] theorem Ctx.wg_chosen (c : Ctx) (d : BitVec 5) (v : W64) : (c.wg d v).chosen = c.chosen := by unfold Ctx.wg; split <;> rfl
@[simp] theorem Ctx.wg_savedMx (c : Ctx) (d : BitVec 5) (v : W64) : (c.wg d v).savedMx = c.savedMx := by unfold Ctx.wg; split <;> rfl
@[simp] theorem Ctx.wg_savedObuf (c : Ctx) (d : BitVec 5) (v : W64) : (c.wg d v).savedObuf = c.savedObuf := by unfold Ctx.wg; split <;> rfl
@[simp] theorem Ctx.wg_savedSfu (c : Ctx) (d : BitVec 5) (v : W64) : (c.wg d v).savedSfu = c.savedSfu := by unfold Ctx.wg; split <;> rfl
@[simp] theorem Ctx.wg_savedCp (c : Ctx) (d : BitVec 5) (v : W64) : (c.wg d v).savedCp = c.savedCp := by unfold Ctx.wg; split <;> rfl
@[simp] theorem Ctx.wg_fpCore (c : Ctx) (d : BitVec 5) (v : W64) : (c.wg d v).fpCore = c.fpCore := by unfold Ctx.wg; split <;> rfl
@[simp] theorem Ctx.wg_ahead (c : Ctx) (d : BitVec 5) (v : W64) : (c.wg d v).ahead = c.ahead := by unfold Ctx.wg; split <;> rfl
@[simp] theorem Ctx.wg_due (c : Ctx) (d : BitVec 5) (v : W64) : (c.wg d v).due = c.due := by unfold Ctx.wg; split <;> rfl
@[simp] theorem Ctx.wg_testReq (c : Ctx) (d : BitVec 5) (v : W64) : (c.wg d v).testReq = c.testReq := by unfold Ctx.wg; split <;> rfl
@[simp] theorem Ctx.wg_testHold (c : Ctx) (d : BitVec 5) (v : W64) : (c.wg d v).testHold = c.testHold := by unfold Ctx.wg; split <;> rfl
@[simp] theorem Ctx.wg_saveAt (c : Ctx) (d : BitVec 5) (v : W64) : (c.wg d v).saveAt = c.saveAt := by unfold Ctx.wg; split <;> rfl

@[simp] theorem Ctx.wp_st (c : Ctx) (n : BitVec 3) (b : Bool) : (c.wp n b).st = c.st := by unfold Ctx.wp; split <;> rfl
@[simp] theorem Ctx.wp_prior (c : Ctx) (n : BitVec 3) (b : Bool) : (c.wp n b).prior = c.prior := by unfold Ctx.wp; split <;> rfl
@[simp] theorem Ctx.wp_sys (c : Ctx) (n : BitVec 3) (b : Bool) : (c.wp n b).sys = c.sys := by unfold Ctx.wp; split <;> rfl
@[simp] theorem Ctx.wp_gang (c : Ctx) (n : BitVec 3) (b : Bool) : (c.wp n b).gang = c.gang := by unfold Ctx.wp; split <;> rfl
@[simp] theorem Ctx.wp_held (c : Ctx) (n : BitVec 3) (b : Bool) : (c.wp n b).held = c.held := by unfold Ctx.wp; split <;> rfl
@[simp] theorem Ctx.wp_want (c : Ctx) (n : BitVec 3) (b : Bool) : (c.wp n b).want = c.want := by unfold Ctx.wp; split <;> rfl
@[simp] theorem Ctx.wp_g (c : Ctx) (n : BitVec 3) (b : Bool) : (c.wp n b).g = c.g := by unfold Ctx.wp; split <;> rfl
@[simp] theorem Ctx.wp_v (c : Ctx) (n : BitVec 3) (b : Bool) : (c.wp n b).v = c.v := by unfold Ctx.wp; split <;> rfl
@[simp] theorem Ctx.wp_m (c : Ctx) (n : BitVec 3) (b : Bool) : (c.wp n b).m = c.m := by unfold Ctx.wp; split <;> rfl
@[simp] theorem Ctx.wp_ls (c : Ctx) (n : BitVec 3) (b : Bool) : (c.wp n b).ls = c.ls := by unfold Ctx.wp; split <;> rfl
@[simp] theorem Ctx.wp_le (c : Ctx) (n : BitVec 3) (b : Bool) : (c.wp n b).le = c.le := by unfold Ctx.wp; split <;> rfl
@[simp] theorem Ctx.wp_lc (c : Ctx) (n : BitVec 3) (b : Bool) : (c.wp n b).lc = c.lc := by unfold Ctx.wp; split <;> rfl
@[simp] theorem Ctx.wp_ja0 (c : Ctx) (n : BitVec 3) (b : Bool) : (c.wp n b).ja0 = c.ja0 := by unfold Ctx.wp; split <;> rfl
@[simp] theorem Ctx.wp_ja1 (c : Ctx) (n : BitVec 3) (b : Bool) : (c.wp n b).ja1 = c.ja1 := by unfold Ctx.wp; split <;> rfl
@[simp] theorem Ctx.wp_lr (c : Ctx) (n : BitVec 3) (b : Bool) : (c.wp n b).lr = c.lr := by unfold Ctx.wp; split <;> rfl
@[simp] theorem Ctx.wp_ocl (c : Ctx) (n : BitVec 3) (b : Bool) : (c.wp n b).ocl = c.ocl := by unfold Ctx.wp; split <;> rfl
@[simp] theorem Ctx.wp_ocs (c : Ctx) (n : BitVec 3) (b : Bool) : (c.wp n b).ocs = c.ocs := by unfold Ctx.wp; split <;> rfl
@[simp] theorem Ctx.wp_occ (c : Ctx) (n : BitVec 3) (b : Bool) : (c.wp n b).occ = c.occ := by unfold Ctx.wp; split <;> rfl
@[simp] theorem Ctx.wp_oct (c : Ctx) (n : BitVec 3) (b : Bool) : (c.wp n b).oct = c.oct := by unfold Ctx.wp; split <;> rfl
@[simp] theorem Ctx.wp_pc (c : Ctx) (n : BitVec 3) (b : Bool) : (c.wp n b).pc = c.pc := by unfold Ctx.wp; split <;> rfl
@[simp] theorem Ctx.wp_slot (c : Ctx) (n : BitVec 3) (b : Bool) : (c.wp n b).slot = c.slot := by unfold Ctx.wp; split <;> rfl
@[simp] theorem Ctx.wp_mid (c : Ctx) (n : BitVec 3) (b : Bool) : (c.wp n b).mid = c.mid := by unfold Ctx.wp; split <;> rfl
@[simp] theorem Ctx.wp_loopNext (c : Ctx) (n : BitVec 3) (b : Bool) : (c.wp n b).loopNext = c.loopNext := by unfold Ctx.wp; split <;> rfl
@[simp] theorem Ctx.wp_dict (c : Ctx) (n : BitVec 3) (b : Bool) : (c.wp n b).dict = c.dict := by unfold Ctx.wp; split <;> rfl
@[simp] theorem Ctx.wp_dictOld (c : Ctx) (n : BitVec 3) (b : Bool) : (c.wp n b).dictOld = c.dictOld := by unfold Ctx.wp; split <;> rfl
@[simp] theorem Ctx.wp_dactive (c : Ctx) (n : BitVec 3) (b : Bool) : (c.wp n b).dactive = c.dactive := by unfold Ctx.wp; split <;> rfl
@[simp] theorem Ctx.wp_dload (c : Ctx) (n : BitVec 3) (b : Bool) : (c.wp n b).dload = c.dload := by unfold Ctx.wp; split <;> rfl
@[simp] theorem Ctx.wp_lbank (c : Ctx) (n : BitVec 3) (b : Bool) : (c.wp n b).lbank = c.lbank := by unfold Ctx.wp; split <;> rfl
@[simp] theorem Ctx.wp_dictbase (c : Ctx) (n : BitVec 3) (b : Bool) : (c.wp n b).dictbase = c.dictbase := by unfold Ctx.wp; split <;> rfl
@[simp] theorem Ctx.wp_asid (c : Ctx) (n : BitVec 3) (b : Bool) : (c.wp n b).asid = c.asid := by unfold Ctx.wp; split <;> rfl
@[simp] theorem Ctx.wp_tcause (c : Ctx) (n : BitVec 3) (b : Bool) : (c.wp n b).tcause = c.tcause := by unfold Ctx.wp; split <;> rfl
@[simp] theorem Ctx.wp_tval (c : Ctx) (n : BitVec 3) (b : Bool) : (c.wp n b).tval = c.tval := by unfold Ctx.wp; split <;> rfl
@[simp] theorem Ctx.wp_trappc (c : Ctx) (n : BitVec 3) (b : Bool) : (c.wp n b).trappc = c.trappc := by unfold Ctx.wp; split <;> rfl
@[simp] theorem Ctx.wp_tstat (c : Ctx) (n : BitVec 3) (b : Bool) : (c.wp n b).tstat = c.tstat := by unfold Ctx.wp; split <;> rfl
@[simp] theorem Ctx.wp_tvec (c : Ctx) (n : BitVec 3) (b : Bool) : (c.wp n b).tvec = c.tvec := by unfold Ctx.wp; split <;> rfl
@[simp] theorem Ctx.wp_tscratch0 (c : Ctx) (n : BitVec 3) (b : Bool) : (c.wp n b).tscratch0 = c.tscratch0 := by unfold Ctx.wp; split <;> rfl
@[simp] theorem Ctx.wp_tscratch1 (c : Ctx) (n : BitVec 3) (b : Bool) : (c.wp n b).tscratch1 = c.tscratch1 := by unfold Ctx.wp; split <;> rfl
@[simp] theorem Ctx.wp_wscale (c : Ctx) (n : BitVec 3) (b : Bool) : (c.wp n b).wscale = c.wscale := by unfold Ctx.wp; split <;> rfl
@[simp] theorem Ctx.wp_issued (c : Ctx) (n : BitVec 3) (b : Bool) : (c.wp n b).issued = c.issued := by unfold Ctx.wp; split <;> rfl
@[simp] theorem Ctx.wp_lanepat (c : Ctx) (n : BitVec 3) (b : Bool) : (c.wp n b).lanepat = c.lanepat := by unfold Ctx.wp; split <;> rfl
@[simp] theorem Ctx.wp_npsec (c : Ctx) (n : BitVec 3) (b : Bool) : (c.wp n b).npsec = c.npsec := by unfold Ctx.wp; split <;> rfl
@[simp] theorem Ctx.wp_npcount (c : Ctx) (n : BitVec 3) (b : Bool) : (c.wp n b).npcount = c.npcount := by unfold Ctx.wp; split <;> rfl
@[simp] theorem Ctx.wp_girthSel (c : Ctx) (n : BitVec 3) (b : Bool) : (c.wp n b).girthSel = c.girthSel := by unfold Ctx.wp; split <;> rfl
@[simp] theorem Ctx.wp_pwrreq (c : Ctx) (n : BitVec 3) (b : Bool) : (c.wp n b).pwrreq = c.pwrreq := by unfold Ctx.wp; split <;> rfl
@[simp] theorem Ctx.wp_reqst (c : Ctx) (n : BitVec 3) (b : Bool) : (c.wp n b).reqst = c.reqst := by unfold Ctx.wp; split <;> rfl
@[simp] theorem Ctx.wp_energy (c : Ctx) (n : BitVec 3) (b : Bool) : (c.wp n b).energy = c.energy := by unfold Ctx.wp; split <;> rfl
@[simp] theorem Ctx.wp_pendAsync (c : Ctx) (n : BitVec 3) (b : Bool) : (c.wp n b).pendAsync = c.pendAsync := by unfold Ctx.wp; split <;> rfl
@[simp] theorem Ctx.wp_pendStore (c : Ctx) (n : BitVec 3) (b : Bool) : (c.wp n b).pendStore = c.pendStore := by unfold Ctx.wp; split <;> rfl
@[simp] theorem Ctx.wp_fatal (c : Ctx) (n : BitVec 3) (b : Bool) : (c.wp n b).fatal = c.fatal := by unfold Ctx.wp; split <;> rfl
@[simp] theorem Ctx.wp_preReq (c : Ctx) (n : BitVec 3) (b : Bool) : (c.wp n b).preReq = c.preReq := by unfold Ctx.wp; split <;> rfl
@[simp] theorem Ctx.wp_preHold (c : Ctx) (n : BitVec 3) (b : Bool) : (c.wp n b).preHold = c.preHold := by unfold Ctx.wp; split <;> rfl
@[simp] theorem Ctx.wp_hold (c : Ctx) (n : BitVec 3) (b : Bool) : (c.wp n b).hold = c.hold := by unfold Ctx.wp; split <;> rfl
@[simp] theorem Ctx.wp_xslots (c : Ctx) (n : BitVec 3) (b : Bool) : (c.wp n b).xslots = c.xslots := by unfold Ctx.wp; split <;> rfl
@[simp] theorem Ctx.wp_xseq (c : Ctx) (n : BitVec 3) (b : Bool) : (c.wp n b).xseq = c.xseq := by unfold Ctx.wp; split <;> rfl
@[simp] theorem Ctx.wp_girthRec (c : Ctx) (n : BitVec 3) (b : Bool) : (c.wp n b).girthRec = c.girthRec := by unfold Ctx.wp; split <;> rfl
@[simp] theorem Ctx.wp_girthFlip (c : Ctx) (n : BitVec 3) (b : Bool) : (c.wp n b).girthFlip = c.girthFlip := by unfold Ctx.wp; split <;> rfl
@[simp] theorem Ctx.wp_task (c : Ctx) (n : BitVec 3) (b : Bool) : (c.wp n b).task = c.task := by unfold Ctx.wp; split <;> rfl
@[simp] theorem Ctx.wp_wait (c : Ctx) (n : BitVec 3) (b : Bool) : (c.wp n b).wait = c.wait := by unfold Ctx.wp; split <;> rfl
@[simp] theorem Ctx.wp_fired (c : Ctx) (n : BitVec 3) (b : Bool) : (c.wp n b).fired = c.fired := by unfold Ctx.wp; split <;> rfl
@[simp] theorem Ctx.wp_pend (c : Ctx) (n : BitVec 3) (b : Bool) : (c.wp n b).pend = c.pend := by unfold Ctx.wp; split <;> rfl
@[simp] theorem Ctx.wp_mxstage (c : Ctx) (n : BitVec 3) (b : Bool) : (c.wp n b).mxstage = c.mxstage := by unfold Ctx.wp; split <;> rfl
@[simp] theorem Ctx.wp_mxfault (c : Ctx) (n : BitVec 3) (b : Bool) : (c.wp n b).mxfault = c.mxfault := by unfold Ctx.wp; split <;> rfl
@[simp] theorem Ctx.wp_mxfaddr (c : Ctx) (n : BitVec 3) (b : Bool) : (c.wp n b).mxfaddr = c.mxfaddr := by unfold Ctx.wp; split <;> rfl
@[simp] theorem Ctx.wp_cpsrc (c : Ctx) (n : BitVec 3) (b : Bool) : (c.wp n b).cpsrc = c.cpsrc := by unfold Ctx.wp; split <;> rfl
@[simp] theorem Ctx.wp_cpdst (c : Ctx) (n : BitVec 3) (b : Bool) : (c.wp n b).cpdst = c.cpdst := by unfold Ctx.wp; split <;> rfl
@[simp] theorem Ctx.wp_cplen (c : Ctx) (n : BitVec 3) (b : Bool) : (c.wp n b).cplen = c.cplen := by unfold Ctx.wp; split <;> rfl
@[simp] theorem Ctx.wp_cpstride (c : Ctx) (n : BitVec 3) (b : Bool) : (c.wp n b).cpstride = c.cpstride := by unfold Ctx.wp; split <;> rfl
@[simp] theorem Ctx.wp_cpctl (c : Ctx) (n : BitVec 3) (b : Bool) : (c.wp n b).cpctl = c.cpctl := by unfold Ctx.wp; split <;> rfl
@[simp] theorem Ctx.wp_cpArmed (c : Ctx) (n : BitVec 3) (b : Bool) : (c.wp n b).cpArmed = c.cpArmed := by unfold Ctx.wp; split <;> rfl
@[simp] theorem Ctx.wp_cpfault (c : Ctx) (n : BitVec 3) (b : Bool) : (c.wp n b).cpfault = c.cpfault := by unfold Ctx.wp; split <;> rfl
@[simp] theorem Ctx.wp_cpfaddr (c : Ctx) (n : BitVec 3) (b : Bool) : (c.wp n b).cpfaddr = c.cpfaddr := by unfold Ctx.wp; split <;> rfl
@[simp] theorem Ctx.wp_sfuBusy (c : Ctx) (n : BitVec 3) (b : Bool) : (c.wp n b).sfuBusy = c.sfuBusy := by unfold Ctx.wp; split <;> rfl
@[simp] theorem Ctx.wp_walkFault (c : Ctx) (n : BitVec 3) (b : Bool) : (c.wp n b).walkFault = c.walkFault := by unfold Ctx.wp; split <;> rfl
@[simp] theorem Ctx.wp_retain (c : Ctx) (n : BitVec 3) (b : Bool) : (c.wp n b).retain = c.retain := by unfold Ctx.wp; split <;> rfl
@[simp] theorem Ctx.wp_redo (c : Ctx) (n : BitVec 3) (b : Bool) : (c.wp n b).redo = c.redo := by unfold Ctx.wp; split <;> rfl
@[simp] theorem Ctx.wp_was (c : Ctx) (n : BitVec 3) (b : Bool) : (c.wp n b).was = c.was := by unfold Ctx.wp; split <;> rfl
@[simp] theorem Ctx.wp_handler (c : Ctx) (n : BitVec 3) (b : Bool) : (c.wp n b).handler = c.handler := by unfold Ctx.wp; split <;> rfl
@[simp] theorem Ctx.wp_savedClaim (c : Ctx) (n : BitVec 3) (b : Bool) : (c.wp n b).savedClaim = c.savedClaim := by unfold Ctx.wp; split <;> rfl
@[simp] theorem Ctx.wp_savedSlots (c : Ctx) (n : BitVec 3) (b : Bool) : (c.wp n b).savedSlots = c.savedSlots := by unfold Ctx.wp; split <;> rfl
@[simp] theorem Ctx.wp_preOrder (c : Ctx) (n : BitVec 3) (b : Bool) : (c.wp n b).preOrder = c.preOrder := by unfold Ctx.wp; split <;> rfl
@[simp] theorem Ctx.wp_chosen (c : Ctx) (n : BitVec 3) (b : Bool) : (c.wp n b).chosen = c.chosen := by unfold Ctx.wp; split <;> rfl
@[simp] theorem Ctx.wp_savedMx (c : Ctx) (n : BitVec 3) (b : Bool) : (c.wp n b).savedMx = c.savedMx := by unfold Ctx.wp; split <;> rfl
@[simp] theorem Ctx.wp_savedObuf (c : Ctx) (n : BitVec 3) (b : Bool) : (c.wp n b).savedObuf = c.savedObuf := by unfold Ctx.wp; split <;> rfl
@[simp] theorem Ctx.wp_savedSfu (c : Ctx) (n : BitVec 3) (b : Bool) : (c.wp n b).savedSfu = c.savedSfu := by unfold Ctx.wp; split <;> rfl
@[simp] theorem Ctx.wp_savedCp (c : Ctx) (n : BitVec 3) (b : Bool) : (c.wp n b).savedCp = c.savedCp := by unfold Ctx.wp; split <;> rfl
@[simp] theorem Ctx.wp_fpCore (c : Ctx) (n : BitVec 3) (b : Bool) : (c.wp n b).fpCore = c.fpCore := by unfold Ctx.wp; split <;> rfl
@[simp] theorem Ctx.wp_ahead (c : Ctx) (n : BitVec 3) (b : Bool) : (c.wp n b).ahead = c.ahead := by unfold Ctx.wp; split <;> rfl
@[simp] theorem Ctx.wp_due (c : Ctx) (n : BitVec 3) (b : Bool) : (c.wp n b).due = c.due := by unfold Ctx.wp; split <;> rfl
@[simp] theorem Ctx.wp_testReq (c : Ctx) (n : BitVec 3) (b : Bool) : (c.wp n b).testReq = c.testReq := by unfold Ctx.wp; split <;> rfl
@[simp] theorem Ctx.wp_testHold (c : Ctx) (n : BitVec 3) (b : Bool) : (c.wp n b).testHold = c.testHold := by unfold Ctx.wp; split <;> rfl
@[simp] theorem Ctx.wp_saveAt (c : Ctx) (n : BitVec 3) (b : Bool) : (c.wp n b).saveAt = c.saveAt := by unfold Ctx.wp; split <;> rfl

@[simp] theorem Ctx.wv_st (c : Ctx) (n : BitVec 4) (l : List W32) : (c.wv n l).st = c.st := rfl
@[simp] theorem Ctx.wv_prior (c : Ctx) (n : BitVec 4) (l : List W32) : (c.wv n l).prior = c.prior := rfl
@[simp] theorem Ctx.wv_sys (c : Ctx) (n : BitVec 4) (l : List W32) : (c.wv n l).sys = c.sys := rfl
@[simp] theorem Ctx.wv_gang (c : Ctx) (n : BitVec 4) (l : List W32) : (c.wv n l).gang = c.gang := rfl
@[simp] theorem Ctx.wv_held (c : Ctx) (n : BitVec 4) (l : List W32) : (c.wv n l).held = c.held := rfl
@[simp] theorem Ctx.wv_want (c : Ctx) (n : BitVec 4) (l : List W32) : (c.wv n l).want = c.want := rfl
@[simp] theorem Ctx.wv_g (c : Ctx) (n : BitVec 4) (l : List W32) : (c.wv n l).g = c.g := rfl
@[simp] theorem Ctx.wv_p (c : Ctx) (n : BitVec 4) (l : List W32) : (c.wv n l).p = c.p := rfl
@[simp] theorem Ctx.wv_m (c : Ctx) (n : BitVec 4) (l : List W32) : (c.wv n l).m = c.m := rfl
@[simp] theorem Ctx.wv_ls (c : Ctx) (n : BitVec 4) (l : List W32) : (c.wv n l).ls = c.ls := rfl
@[simp] theorem Ctx.wv_le (c : Ctx) (n : BitVec 4) (l : List W32) : (c.wv n l).le = c.le := rfl
@[simp] theorem Ctx.wv_lc (c : Ctx) (n : BitVec 4) (l : List W32) : (c.wv n l).lc = c.lc := rfl
@[simp] theorem Ctx.wv_ja0 (c : Ctx) (n : BitVec 4) (l : List W32) : (c.wv n l).ja0 = c.ja0 := rfl
@[simp] theorem Ctx.wv_ja1 (c : Ctx) (n : BitVec 4) (l : List W32) : (c.wv n l).ja1 = c.ja1 := rfl
@[simp] theorem Ctx.wv_lr (c : Ctx) (n : BitVec 4) (l : List W32) : (c.wv n l).lr = c.lr := rfl
@[simp] theorem Ctx.wv_ocl (c : Ctx) (n : BitVec 4) (l : List W32) : (c.wv n l).ocl = c.ocl := rfl
@[simp] theorem Ctx.wv_ocs (c : Ctx) (n : BitVec 4) (l : List W32) : (c.wv n l).ocs = c.ocs := rfl
@[simp] theorem Ctx.wv_occ (c : Ctx) (n : BitVec 4) (l : List W32) : (c.wv n l).occ = c.occ := rfl
@[simp] theorem Ctx.wv_oct (c : Ctx) (n : BitVec 4) (l : List W32) : (c.wv n l).oct = c.oct := rfl
@[simp] theorem Ctx.wv_pc (c : Ctx) (n : BitVec 4) (l : List W32) : (c.wv n l).pc = c.pc := rfl
@[simp] theorem Ctx.wv_slot (c : Ctx) (n : BitVec 4) (l : List W32) : (c.wv n l).slot = c.slot := rfl
@[simp] theorem Ctx.wv_mid (c : Ctx) (n : BitVec 4) (l : List W32) : (c.wv n l).mid = c.mid := rfl
@[simp] theorem Ctx.wv_loopNext (c : Ctx) (n : BitVec 4) (l : List W32) : (c.wv n l).loopNext = c.loopNext := rfl
@[simp] theorem Ctx.wv_dict (c : Ctx) (n : BitVec 4) (l : List W32) : (c.wv n l).dict = c.dict := rfl
@[simp] theorem Ctx.wv_dictOld (c : Ctx) (n : BitVec 4) (l : List W32) : (c.wv n l).dictOld = c.dictOld := rfl
@[simp] theorem Ctx.wv_dactive (c : Ctx) (n : BitVec 4) (l : List W32) : (c.wv n l).dactive = c.dactive := rfl
@[simp] theorem Ctx.wv_dload (c : Ctx) (n : BitVec 4) (l : List W32) : (c.wv n l).dload = c.dload := rfl
@[simp] theorem Ctx.wv_lbank (c : Ctx) (n : BitVec 4) (l : List W32) : (c.wv n l).lbank = c.lbank := rfl
@[simp] theorem Ctx.wv_dictbase (c : Ctx) (n : BitVec 4) (l : List W32) : (c.wv n l).dictbase = c.dictbase := rfl
@[simp] theorem Ctx.wv_asid (c : Ctx) (n : BitVec 4) (l : List W32) : (c.wv n l).asid = c.asid := rfl
@[simp] theorem Ctx.wv_tcause (c : Ctx) (n : BitVec 4) (l : List W32) : (c.wv n l).tcause = c.tcause := rfl
@[simp] theorem Ctx.wv_tval (c : Ctx) (n : BitVec 4) (l : List W32) : (c.wv n l).tval = c.tval := rfl
@[simp] theorem Ctx.wv_trappc (c : Ctx) (n : BitVec 4) (l : List W32) : (c.wv n l).trappc = c.trappc := rfl
@[simp] theorem Ctx.wv_tstat (c : Ctx) (n : BitVec 4) (l : List W32) : (c.wv n l).tstat = c.tstat := rfl
@[simp] theorem Ctx.wv_tvec (c : Ctx) (n : BitVec 4) (l : List W32) : (c.wv n l).tvec = c.tvec := rfl
@[simp] theorem Ctx.wv_tscratch0 (c : Ctx) (n : BitVec 4) (l : List W32) : (c.wv n l).tscratch0 = c.tscratch0 := rfl
@[simp] theorem Ctx.wv_tscratch1 (c : Ctx) (n : BitVec 4) (l : List W32) : (c.wv n l).tscratch1 = c.tscratch1 := rfl
@[simp] theorem Ctx.wv_wscale (c : Ctx) (n : BitVec 4) (l : List W32) : (c.wv n l).wscale = c.wscale := rfl
@[simp] theorem Ctx.wv_issued (c : Ctx) (n : BitVec 4) (l : List W32) : (c.wv n l).issued = c.issued := rfl
@[simp] theorem Ctx.wv_lanepat (c : Ctx) (n : BitVec 4) (l : List W32) : (c.wv n l).lanepat = c.lanepat := rfl
@[simp] theorem Ctx.wv_npsec (c : Ctx) (n : BitVec 4) (l : List W32) : (c.wv n l).npsec = c.npsec := rfl
@[simp] theorem Ctx.wv_npcount (c : Ctx) (n : BitVec 4) (l : List W32) : (c.wv n l).npcount = c.npcount := rfl
@[simp] theorem Ctx.wv_girthSel (c : Ctx) (n : BitVec 4) (l : List W32) : (c.wv n l).girthSel = c.girthSel := rfl
@[simp] theorem Ctx.wv_pwrreq (c : Ctx) (n : BitVec 4) (l : List W32) : (c.wv n l).pwrreq = c.pwrreq := rfl
@[simp] theorem Ctx.wv_reqst (c : Ctx) (n : BitVec 4) (l : List W32) : (c.wv n l).reqst = c.reqst := rfl
@[simp] theorem Ctx.wv_energy (c : Ctx) (n : BitVec 4) (l : List W32) : (c.wv n l).energy = c.energy := rfl
@[simp] theorem Ctx.wv_pendAsync (c : Ctx) (n : BitVec 4) (l : List W32) : (c.wv n l).pendAsync = c.pendAsync := rfl
@[simp] theorem Ctx.wv_pendStore (c : Ctx) (n : BitVec 4) (l : List W32) : (c.wv n l).pendStore = c.pendStore := rfl
@[simp] theorem Ctx.wv_fatal (c : Ctx) (n : BitVec 4) (l : List W32) : (c.wv n l).fatal = c.fatal := rfl
@[simp] theorem Ctx.wv_preReq (c : Ctx) (n : BitVec 4) (l : List W32) : (c.wv n l).preReq = c.preReq := rfl
@[simp] theorem Ctx.wv_preHold (c : Ctx) (n : BitVec 4) (l : List W32) : (c.wv n l).preHold = c.preHold := rfl
@[simp] theorem Ctx.wv_hold (c : Ctx) (n : BitVec 4) (l : List W32) : (c.wv n l).hold = c.hold := rfl
@[simp] theorem Ctx.wv_xslots (c : Ctx) (n : BitVec 4) (l : List W32) : (c.wv n l).xslots = c.xslots := rfl
@[simp] theorem Ctx.wv_xseq (c : Ctx) (n : BitVec 4) (l : List W32) : (c.wv n l).xseq = c.xseq := rfl
@[simp] theorem Ctx.wv_girthRec (c : Ctx) (n : BitVec 4) (l : List W32) : (c.wv n l).girthRec = c.girthRec := rfl
@[simp] theorem Ctx.wv_girthFlip (c : Ctx) (n : BitVec 4) (l : List W32) : (c.wv n l).girthFlip = c.girthFlip := rfl
@[simp] theorem Ctx.wv_task (c : Ctx) (n : BitVec 4) (l : List W32) : (c.wv n l).task = c.task := rfl
@[simp] theorem Ctx.wv_wait (c : Ctx) (n : BitVec 4) (l : List W32) : (c.wv n l).wait = c.wait := rfl
@[simp] theorem Ctx.wv_fired (c : Ctx) (n : BitVec 4) (l : List W32) : (c.wv n l).fired = c.fired := rfl
@[simp] theorem Ctx.wv_pend (c : Ctx) (n : BitVec 4) (l : List W32) : (c.wv n l).pend = c.pend := rfl
@[simp] theorem Ctx.wv_mxstage (c : Ctx) (n : BitVec 4) (l : List W32) : (c.wv n l).mxstage = c.mxstage := rfl
@[simp] theorem Ctx.wv_mxfault (c : Ctx) (n : BitVec 4) (l : List W32) : (c.wv n l).mxfault = c.mxfault := rfl
@[simp] theorem Ctx.wv_mxfaddr (c : Ctx) (n : BitVec 4) (l : List W32) : (c.wv n l).mxfaddr = c.mxfaddr := rfl
@[simp] theorem Ctx.wv_cpsrc (c : Ctx) (n : BitVec 4) (l : List W32) : (c.wv n l).cpsrc = c.cpsrc := rfl
@[simp] theorem Ctx.wv_cpdst (c : Ctx) (n : BitVec 4) (l : List W32) : (c.wv n l).cpdst = c.cpdst := rfl
@[simp] theorem Ctx.wv_cplen (c : Ctx) (n : BitVec 4) (l : List W32) : (c.wv n l).cplen = c.cplen := rfl
@[simp] theorem Ctx.wv_cpstride (c : Ctx) (n : BitVec 4) (l : List W32) : (c.wv n l).cpstride = c.cpstride := rfl
@[simp] theorem Ctx.wv_cpctl (c : Ctx) (n : BitVec 4) (l : List W32) : (c.wv n l).cpctl = c.cpctl := rfl
@[simp] theorem Ctx.wv_cpArmed (c : Ctx) (n : BitVec 4) (l : List W32) : (c.wv n l).cpArmed = c.cpArmed := rfl
@[simp] theorem Ctx.wv_cpfault (c : Ctx) (n : BitVec 4) (l : List W32) : (c.wv n l).cpfault = c.cpfault := rfl
@[simp] theorem Ctx.wv_cpfaddr (c : Ctx) (n : BitVec 4) (l : List W32) : (c.wv n l).cpfaddr = c.cpfaddr := rfl
@[simp] theorem Ctx.wv_sfuBusy (c : Ctx) (n : BitVec 4) (l : List W32) : (c.wv n l).sfuBusy = c.sfuBusy := rfl
@[simp] theorem Ctx.wv_walkFault (c : Ctx) (n : BitVec 4) (l : List W32) : (c.wv n l).walkFault = c.walkFault := rfl
@[simp] theorem Ctx.wv_retain (c : Ctx) (n : BitVec 4) (l : List W32) : (c.wv n l).retain = c.retain := rfl
@[simp] theorem Ctx.wv_redo (c : Ctx) (n : BitVec 4) (l : List W32) : (c.wv n l).redo = c.redo := rfl
@[simp] theorem Ctx.wv_was (c : Ctx) (n : BitVec 4) (l : List W32) : (c.wv n l).was = c.was := rfl
@[simp] theorem Ctx.wv_handler (c : Ctx) (n : BitVec 4) (l : List W32) : (c.wv n l).handler = c.handler := rfl
@[simp] theorem Ctx.wv_savedClaim (c : Ctx) (n : BitVec 4) (l : List W32) : (c.wv n l).savedClaim = c.savedClaim := rfl
@[simp] theorem Ctx.wv_savedSlots (c : Ctx) (n : BitVec 4) (l : List W32) : (c.wv n l).savedSlots = c.savedSlots := rfl
@[simp] theorem Ctx.wv_preOrder (c : Ctx) (n : BitVec 4) (l : List W32) : (c.wv n l).preOrder = c.preOrder := rfl
@[simp] theorem Ctx.wv_chosen (c : Ctx) (n : BitVec 4) (l : List W32) : (c.wv n l).chosen = c.chosen := rfl
@[simp] theorem Ctx.wv_savedMx (c : Ctx) (n : BitVec 4) (l : List W32) : (c.wv n l).savedMx = c.savedMx := rfl
@[simp] theorem Ctx.wv_savedObuf (c : Ctx) (n : BitVec 4) (l : List W32) : (c.wv n l).savedObuf = c.savedObuf := rfl
@[simp] theorem Ctx.wv_savedSfu (c : Ctx) (n : BitVec 4) (l : List W32) : (c.wv n l).savedSfu = c.savedSfu := rfl
@[simp] theorem Ctx.wv_savedCp (c : Ctx) (n : BitVec 4) (l : List W32) : (c.wv n l).savedCp = c.savedCp := rfl
@[simp] theorem Ctx.wv_fpCore (c : Ctx) (n : BitVec 4) (l : List W32) : (c.wv n l).fpCore = c.fpCore := rfl
@[simp] theorem Ctx.wv_ahead (c : Ctx) (n : BitVec 4) (l : List W32) : (c.wv n l).ahead = c.ahead := rfl
@[simp] theorem Ctx.wv_due (c : Ctx) (n : BitVec 4) (l : List W32) : (c.wv n l).due = c.due := rfl
@[simp] theorem Ctx.wv_testReq (c : Ctx) (n : BitVec 4) (l : List W32) : (c.wv n l).testReq = c.testReq := rfl
@[simp] theorem Ctx.wv_testHold (c : Ctx) (n : BitVec 4) (l : List W32) : (c.wv n l).testHold = c.testHold := rfl
@[simp] theorem Ctx.wv_saveAt (c : Ctx) (n : BitVec 4) (l : List W32) : (c.wv n l).saveAt = c.saveAt := rfl

@[simp] theorem Ctx.wm_st (c : Ctx) (n : BitVec 2) (l : List Bool) : (c.wm n l).st = c.st := rfl
@[simp] theorem Ctx.wm_prior (c : Ctx) (n : BitVec 2) (l : List Bool) : (c.wm n l).prior = c.prior := rfl
@[simp] theorem Ctx.wm_sys (c : Ctx) (n : BitVec 2) (l : List Bool) : (c.wm n l).sys = c.sys := rfl
@[simp] theorem Ctx.wm_gang (c : Ctx) (n : BitVec 2) (l : List Bool) : (c.wm n l).gang = c.gang := rfl
@[simp] theorem Ctx.wm_held (c : Ctx) (n : BitVec 2) (l : List Bool) : (c.wm n l).held = c.held := rfl
@[simp] theorem Ctx.wm_want (c : Ctx) (n : BitVec 2) (l : List Bool) : (c.wm n l).want = c.want := rfl
@[simp] theorem Ctx.wm_g (c : Ctx) (n : BitVec 2) (l : List Bool) : (c.wm n l).g = c.g := rfl
@[simp] theorem Ctx.wm_p (c : Ctx) (n : BitVec 2) (l : List Bool) : (c.wm n l).p = c.p := rfl
@[simp] theorem Ctx.wm_v (c : Ctx) (n : BitVec 2) (l : List Bool) : (c.wm n l).v = c.v := rfl
@[simp] theorem Ctx.wm_ls (c : Ctx) (n : BitVec 2) (l : List Bool) : (c.wm n l).ls = c.ls := rfl
@[simp] theorem Ctx.wm_le (c : Ctx) (n : BitVec 2) (l : List Bool) : (c.wm n l).le = c.le := rfl
@[simp] theorem Ctx.wm_lc (c : Ctx) (n : BitVec 2) (l : List Bool) : (c.wm n l).lc = c.lc := rfl
@[simp] theorem Ctx.wm_ja0 (c : Ctx) (n : BitVec 2) (l : List Bool) : (c.wm n l).ja0 = c.ja0 := rfl
@[simp] theorem Ctx.wm_ja1 (c : Ctx) (n : BitVec 2) (l : List Bool) : (c.wm n l).ja1 = c.ja1 := rfl
@[simp] theorem Ctx.wm_lr (c : Ctx) (n : BitVec 2) (l : List Bool) : (c.wm n l).lr = c.lr := rfl
@[simp] theorem Ctx.wm_ocl (c : Ctx) (n : BitVec 2) (l : List Bool) : (c.wm n l).ocl = c.ocl := rfl
@[simp] theorem Ctx.wm_ocs (c : Ctx) (n : BitVec 2) (l : List Bool) : (c.wm n l).ocs = c.ocs := rfl
@[simp] theorem Ctx.wm_occ (c : Ctx) (n : BitVec 2) (l : List Bool) : (c.wm n l).occ = c.occ := rfl
@[simp] theorem Ctx.wm_oct (c : Ctx) (n : BitVec 2) (l : List Bool) : (c.wm n l).oct = c.oct := rfl
@[simp] theorem Ctx.wm_pc (c : Ctx) (n : BitVec 2) (l : List Bool) : (c.wm n l).pc = c.pc := rfl
@[simp] theorem Ctx.wm_slot (c : Ctx) (n : BitVec 2) (l : List Bool) : (c.wm n l).slot = c.slot := rfl
@[simp] theorem Ctx.wm_mid (c : Ctx) (n : BitVec 2) (l : List Bool) : (c.wm n l).mid = c.mid := rfl
@[simp] theorem Ctx.wm_loopNext (c : Ctx) (n : BitVec 2) (l : List Bool) : (c.wm n l).loopNext = c.loopNext := rfl
@[simp] theorem Ctx.wm_dict (c : Ctx) (n : BitVec 2) (l : List Bool) : (c.wm n l).dict = c.dict := rfl
@[simp] theorem Ctx.wm_dictOld (c : Ctx) (n : BitVec 2) (l : List Bool) : (c.wm n l).dictOld = c.dictOld := rfl
@[simp] theorem Ctx.wm_dactive (c : Ctx) (n : BitVec 2) (l : List Bool) : (c.wm n l).dactive = c.dactive := rfl
@[simp] theorem Ctx.wm_dload (c : Ctx) (n : BitVec 2) (l : List Bool) : (c.wm n l).dload = c.dload := rfl
@[simp] theorem Ctx.wm_lbank (c : Ctx) (n : BitVec 2) (l : List Bool) : (c.wm n l).lbank = c.lbank := rfl
@[simp] theorem Ctx.wm_dictbase (c : Ctx) (n : BitVec 2) (l : List Bool) : (c.wm n l).dictbase = c.dictbase := rfl
@[simp] theorem Ctx.wm_asid (c : Ctx) (n : BitVec 2) (l : List Bool) : (c.wm n l).asid = c.asid := rfl
@[simp] theorem Ctx.wm_tcause (c : Ctx) (n : BitVec 2) (l : List Bool) : (c.wm n l).tcause = c.tcause := rfl
@[simp] theorem Ctx.wm_tval (c : Ctx) (n : BitVec 2) (l : List Bool) : (c.wm n l).tval = c.tval := rfl
@[simp] theorem Ctx.wm_trappc (c : Ctx) (n : BitVec 2) (l : List Bool) : (c.wm n l).trappc = c.trappc := rfl
@[simp] theorem Ctx.wm_tstat (c : Ctx) (n : BitVec 2) (l : List Bool) : (c.wm n l).tstat = c.tstat := rfl
@[simp] theorem Ctx.wm_tvec (c : Ctx) (n : BitVec 2) (l : List Bool) : (c.wm n l).tvec = c.tvec := rfl
@[simp] theorem Ctx.wm_tscratch0 (c : Ctx) (n : BitVec 2) (l : List Bool) : (c.wm n l).tscratch0 = c.tscratch0 := rfl
@[simp] theorem Ctx.wm_tscratch1 (c : Ctx) (n : BitVec 2) (l : List Bool) : (c.wm n l).tscratch1 = c.tscratch1 := rfl
@[simp] theorem Ctx.wm_wscale (c : Ctx) (n : BitVec 2) (l : List Bool) : (c.wm n l).wscale = c.wscale := rfl
@[simp] theorem Ctx.wm_issued (c : Ctx) (n : BitVec 2) (l : List Bool) : (c.wm n l).issued = c.issued := rfl
@[simp] theorem Ctx.wm_lanepat (c : Ctx) (n : BitVec 2) (l : List Bool) : (c.wm n l).lanepat = c.lanepat := rfl
@[simp] theorem Ctx.wm_npsec (c : Ctx) (n : BitVec 2) (l : List Bool) : (c.wm n l).npsec = c.npsec := rfl
@[simp] theorem Ctx.wm_npcount (c : Ctx) (n : BitVec 2) (l : List Bool) : (c.wm n l).npcount = c.npcount := rfl
@[simp] theorem Ctx.wm_girthSel (c : Ctx) (n : BitVec 2) (l : List Bool) : (c.wm n l).girthSel = c.girthSel := rfl
@[simp] theorem Ctx.wm_pwrreq (c : Ctx) (n : BitVec 2) (l : List Bool) : (c.wm n l).pwrreq = c.pwrreq := rfl
@[simp] theorem Ctx.wm_reqst (c : Ctx) (n : BitVec 2) (l : List Bool) : (c.wm n l).reqst = c.reqst := rfl
@[simp] theorem Ctx.wm_energy (c : Ctx) (n : BitVec 2) (l : List Bool) : (c.wm n l).energy = c.energy := rfl
@[simp] theorem Ctx.wm_pendAsync (c : Ctx) (n : BitVec 2) (l : List Bool) : (c.wm n l).pendAsync = c.pendAsync := rfl
@[simp] theorem Ctx.wm_pendStore (c : Ctx) (n : BitVec 2) (l : List Bool) : (c.wm n l).pendStore = c.pendStore := rfl
@[simp] theorem Ctx.wm_fatal (c : Ctx) (n : BitVec 2) (l : List Bool) : (c.wm n l).fatal = c.fatal := rfl
@[simp] theorem Ctx.wm_preReq (c : Ctx) (n : BitVec 2) (l : List Bool) : (c.wm n l).preReq = c.preReq := rfl
@[simp] theorem Ctx.wm_preHold (c : Ctx) (n : BitVec 2) (l : List Bool) : (c.wm n l).preHold = c.preHold := rfl
@[simp] theorem Ctx.wm_hold (c : Ctx) (n : BitVec 2) (l : List Bool) : (c.wm n l).hold = c.hold := rfl
@[simp] theorem Ctx.wm_xslots (c : Ctx) (n : BitVec 2) (l : List Bool) : (c.wm n l).xslots = c.xslots := rfl
@[simp] theorem Ctx.wm_xseq (c : Ctx) (n : BitVec 2) (l : List Bool) : (c.wm n l).xseq = c.xseq := rfl
@[simp] theorem Ctx.wm_girthRec (c : Ctx) (n : BitVec 2) (l : List Bool) : (c.wm n l).girthRec = c.girthRec := rfl
@[simp] theorem Ctx.wm_girthFlip (c : Ctx) (n : BitVec 2) (l : List Bool) : (c.wm n l).girthFlip = c.girthFlip := rfl
@[simp] theorem Ctx.wm_task (c : Ctx) (n : BitVec 2) (l : List Bool) : (c.wm n l).task = c.task := rfl
@[simp] theorem Ctx.wm_wait (c : Ctx) (n : BitVec 2) (l : List Bool) : (c.wm n l).wait = c.wait := rfl
@[simp] theorem Ctx.wm_fired (c : Ctx) (n : BitVec 2) (l : List Bool) : (c.wm n l).fired = c.fired := rfl
@[simp] theorem Ctx.wm_pend (c : Ctx) (n : BitVec 2) (l : List Bool) : (c.wm n l).pend = c.pend := rfl
@[simp] theorem Ctx.wm_mxstage (c : Ctx) (n : BitVec 2) (l : List Bool) : (c.wm n l).mxstage = c.mxstage := rfl
@[simp] theorem Ctx.wm_mxfault (c : Ctx) (n : BitVec 2) (l : List Bool) : (c.wm n l).mxfault = c.mxfault := rfl
@[simp] theorem Ctx.wm_mxfaddr (c : Ctx) (n : BitVec 2) (l : List Bool) : (c.wm n l).mxfaddr = c.mxfaddr := rfl
@[simp] theorem Ctx.wm_cpsrc (c : Ctx) (n : BitVec 2) (l : List Bool) : (c.wm n l).cpsrc = c.cpsrc := rfl
@[simp] theorem Ctx.wm_cpdst (c : Ctx) (n : BitVec 2) (l : List Bool) : (c.wm n l).cpdst = c.cpdst := rfl
@[simp] theorem Ctx.wm_cplen (c : Ctx) (n : BitVec 2) (l : List Bool) : (c.wm n l).cplen = c.cplen := rfl
@[simp] theorem Ctx.wm_cpstride (c : Ctx) (n : BitVec 2) (l : List Bool) : (c.wm n l).cpstride = c.cpstride := rfl
@[simp] theorem Ctx.wm_cpctl (c : Ctx) (n : BitVec 2) (l : List Bool) : (c.wm n l).cpctl = c.cpctl := rfl
@[simp] theorem Ctx.wm_cpArmed (c : Ctx) (n : BitVec 2) (l : List Bool) : (c.wm n l).cpArmed = c.cpArmed := rfl
@[simp] theorem Ctx.wm_cpfault (c : Ctx) (n : BitVec 2) (l : List Bool) : (c.wm n l).cpfault = c.cpfault := rfl
@[simp] theorem Ctx.wm_cpfaddr (c : Ctx) (n : BitVec 2) (l : List Bool) : (c.wm n l).cpfaddr = c.cpfaddr := rfl
@[simp] theorem Ctx.wm_sfuBusy (c : Ctx) (n : BitVec 2) (l : List Bool) : (c.wm n l).sfuBusy = c.sfuBusy := rfl
@[simp] theorem Ctx.wm_walkFault (c : Ctx) (n : BitVec 2) (l : List Bool) : (c.wm n l).walkFault = c.walkFault := rfl
@[simp] theorem Ctx.wm_retain (c : Ctx) (n : BitVec 2) (l : List Bool) : (c.wm n l).retain = c.retain := rfl
@[simp] theorem Ctx.wm_redo (c : Ctx) (n : BitVec 2) (l : List Bool) : (c.wm n l).redo = c.redo := rfl
@[simp] theorem Ctx.wm_was (c : Ctx) (n : BitVec 2) (l : List Bool) : (c.wm n l).was = c.was := rfl
@[simp] theorem Ctx.wm_handler (c : Ctx) (n : BitVec 2) (l : List Bool) : (c.wm n l).handler = c.handler := rfl
@[simp] theorem Ctx.wm_savedClaim (c : Ctx) (n : BitVec 2) (l : List Bool) : (c.wm n l).savedClaim = c.savedClaim := rfl
@[simp] theorem Ctx.wm_savedSlots (c : Ctx) (n : BitVec 2) (l : List Bool) : (c.wm n l).savedSlots = c.savedSlots := rfl
@[simp] theorem Ctx.wm_preOrder (c : Ctx) (n : BitVec 2) (l : List Bool) : (c.wm n l).preOrder = c.preOrder := rfl
@[simp] theorem Ctx.wm_chosen (c : Ctx) (n : BitVec 2) (l : List Bool) : (c.wm n l).chosen = c.chosen := rfl
@[simp] theorem Ctx.wm_savedMx (c : Ctx) (n : BitVec 2) (l : List Bool) : (c.wm n l).savedMx = c.savedMx := rfl
@[simp] theorem Ctx.wm_savedObuf (c : Ctx) (n : BitVec 2) (l : List Bool) : (c.wm n l).savedObuf = c.savedObuf := rfl
@[simp] theorem Ctx.wm_savedSfu (c : Ctx) (n : BitVec 2) (l : List Bool) : (c.wm n l).savedSfu = c.savedSfu := rfl
@[simp] theorem Ctx.wm_savedCp (c : Ctx) (n : BitVec 2) (l : List Bool) : (c.wm n l).savedCp = c.savedCp := rfl
@[simp] theorem Ctx.wm_fpCore (c : Ctx) (n : BitVec 2) (l : List Bool) : (c.wm n l).fpCore = c.fpCore := rfl
@[simp] theorem Ctx.wm_ahead (c : Ctx) (n : BitVec 2) (l : List Bool) : (c.wm n l).ahead = c.ahead := rfl
@[simp] theorem Ctx.wm_due (c : Ctx) (n : BitVec 2) (l : List Bool) : (c.wm n l).due = c.due := rfl
@[simp] theorem Ctx.wm_testReq (c : Ctx) (n : BitVec 2) (l : List Bool) : (c.wm n l).testReq = c.testReq := rfl
@[simp] theorem Ctx.wm_testHold (c : Ctx) (n : BitVec 2) (l : List Bool) : (c.wm n l).testHold = c.testHold := rfl
@[simp] theorem Ctx.wm_saveAt (c : Ctx) (n : BitVec 2) (l : List Bool) : (c.wm n l).saveAt = c.saveAt := rfl

end Sys2Proof.Machine
end

