-- ==== Sys2Proof/Laws/Table.lean ====
section
/-! SUPPORT. Tables: reading after writing, and the canonical form (R4, R11; memory is such a table). -/

namespace Sys2Proof.Table

variable {α : Type}

theorem get_eq_find (d : α) (t : Table α) (k : Nat) : get d t k = (find t k).getD d := by
  induction t with
  | nil => rfl
  | cons e t ih => simp only [get, find]; split <;> simp_all

@[simp] theorem find_put_self (t : Table α) (k : Nat) (v : α) : find (put t k v) k = some v := by
  induction t with
  | nil => simp [put, find]
  | cons e t ih =>
    simp only [put]
    split
    · simp [find]
    · split
      · simp [find]
      · rename_i h1 h2
        simp [find, ih, Ne.symm h2]

theorem find_put_of_ne (t : Table α) {j k : Nat} (v : α) (h : j ≠ k) : find (put t k v) j = find t j := by
  induction t with
  | nil => simp [put, find, h.symm]
  | cons e t ih =>
    simp only [put]
    split
    · simp [find, h.symm]
    · split
      · rename_i h1 h2
        simp [find, h.symm, ← h2]
      · simp [find, ih]

@[simp] theorem get_put_self (d : α) (t : Table α) (k : Nat) (v : α) : get d (put t k v) k = v := by
  simp [get_eq_find]

theorem get_put_of_ne (d : α) (t : Table α) {j k : Nat} (v : α) (h : j ≠ k) : get d (put t k v) j = get d t j := by
  simp [get_eq_find, find_put_of_ne t v h]

theorem get_put (d : α) (t : Table α) (j k : Nat) (v : α) : get d (put t k v) j = if j = k then v else get d t j := by
  split
  · subst_vars; simp
  · exact get_put_of_ne d t v ‹_›

theorem get_filter_key {d : α} (p : Nat → Bool) (t : Table α) (k : Nat) :
    get d (t.filter fun e => p e.1) k = if p k then get d t k else d := by
  induction t with
  | nil => simp [get]
  | cons e t ih =>
    obtain ⟨k', v'⟩ := e
    rw [List.filter_cons]
    by_cases hk : k' = k
    · subst hk
      cases hp : p k'
      · simpa [hp] using ih
      · simp [get]
    · split
      · simp only [get, if_neg hk, ih]
      · simp only [get, if_neg hk, ih]

theorem get_erase (d : α) (t : Table α) (j k : Nat) : get d (erase t k) j = if j = k then d else get d t j := by
  rw [erase, get_filter_key (fun x => x != k)]
  by_cases h : j = k <;> simp [h]

theorem mem_erase {t : Table α} {k : Nat} {e : Nat × α} : e ∈ erase t k ↔ e ∈ t ∧ e.1 ≠ k := by simp [erase]

/-- Reading after writing. -/
theorem get_set [DecidableEq α] (d : α) (t : Table α) (j k : Nat) (v : α) :
    get d (set d t k v) j = if j = k then v else get d t j := by
  unfold set
  split
  · rename_i hv; rw [get_erase, hv]
  · exact get_put d t j k v

/-! ### The canonical form -/

variable [DecidableEq α]

/-- The keys of a table lie above a bound. -/
def above (lo : Option Nat) (k : Nat) : Prop := ∀ l, lo = some l → l < k

theorem wfFrom_cons (d : α) (lo : Option Nat) (k : Nat) (v : α) (t : Table α) :
    wfFrom d lo ((k, v) :: t) = true ↔ above lo k ∧ v ≠ d ∧ wfFrom d (some k) t = true := by
  cases lo <;> simp [wfFrom, above, and_assoc]

theorem wfFrom_weaken {d : α} {lo lo' : Option Nat} {t : Table α} (h : wfFrom d lo t = true)
    (hl : ∀ k, above lo k → above lo' k) : wfFrom d lo' t = true := by
  cases t with
  | nil => rfl
  | cons e t =>
    rw [wfFrom_cons] at h ⊢
    exact ⟨hl _ h.1, h.2⟩

theorem wfFrom_put {d : α} {lo : Option Nat} {t : Table α} {k : Nat} {v : α} (h : wfFrom d lo t = true)
    (hk : above lo k) (hv : v ≠ d) : wfFrom d lo (put t k v) = true := by
  induction t generalizing lo with
  | nil => rw [put, wfFrom_cons]; exact ⟨hk, hv, rfl⟩
  | cons e t ih =>
    obtain ⟨k', v'⟩ := e
    rw [wfFrom_cons] at h
    simp only [put]
    split
    · rename_i h1
      rw [wfFrom_cons, wfFrom_cons]
      exact ⟨hk, hv, fun l hl => by cases hl; exact h1, h.2⟩
    · split
      · rename_i h1 h2
        subst h2
        rw [wfFrom_cons]
        exact ⟨hk, hv, h.2.2⟩
      · rename_i h1 h2
        rw [wfFrom_cons]
        exact ⟨h.1, h.2.1, ih h.2.2 fun l hl => by cases hl; omega⟩

theorem wfFrom_filter {d : α} {lo : Option Nat} {t : Table α} (p : Nat × α → Bool) (h : wfFrom d lo t = true) :
    wfFrom d lo (t.filter p) = true := by
  induction t generalizing lo with
  | nil => rfl
  | cons e t ih =>
    obtain ⟨k, v⟩ := e
    rw [wfFrom_cons] at h
    rw [List.filter_cons]
    split
    · rw [wfFrom_cons]; exact ⟨h.1, h.2.1, ih h.2.2⟩
    · exact wfFrom_weaken (ih h.2.2) fun j hj l hl => Nat.lt_trans (h.1 l hl) (hj k rfl)

theorem wfFrom_erase {d : α} {lo : Option Nat} {t : Table α} (k : Nat) (h : wfFrom d lo t = true) :
    wfFrom d lo (erase t k) = true := wfFrom_filter _ h

theorem wf_set {d : α} {t : Table α} (k : Nat) (v : α) (h : wf d t = true) : wf d (set d t k v) = true := by
  unfold set
  split
  · exact wfFrom_erase k h
  · exact wfFrom_put h (fun l hl => by cases hl) ‹_›

end Sys2Proof.Table
end

