-- ==== Sys2Proof/Laws/Memory.lean ====
section
/-! SUPPORT. Memory: every operation over it keeps the canonical form, a write is read back, and a write leaves every
other place alone (R4, R11 to R13). -/

namespace Sys2Proof.Machine

variable (s : State)

/-- Where a byte is kept depends on the sites and the hub registers alone (R13, R17). -/
theorem State.canon_congr {s t : State} (hs : t.sites = s.sites) (hh : t.hubs = s.hubs) (pa : Nat) :
    t.canon pa = s.canon pa := by
  simp [State.canon, State.windowAlias, State.nSites, State.iwSize, State.sreg, State.hreg, State.hub, State.phys, hs, hh]

/-- A byte reads the same where memory, sites and hubs are the same. -/
theorem State.byte_congr {s t : State} (hm : t.mem = s.mem) (hs : t.sites = s.sites) (hh : t.hubs = s.hubs) (pa : Nat) :
    t.byte pa = s.byte pa := by
  simp [State.byte, State.canon_congr hs hh, hm]

@[simp] theorem State.setByte_sites (pa : Nat) (b : Byte) : (s.setByte pa b).sites = s.sites := rfl
@[simp] theorem State.setByte_hubs (pa : Nat) (b : Byte) : (s.setByte pa b).hubs = s.hubs := rfl
@[simp] theorem State.setByte_ctxs (pa : Nat) (b : Byte) : (s.setByte pa b).ctxs = s.ctxs := rfl
@[simp] theorem State.setByte_cur (pa : Nat) (b : Byte) : (s.setByte pa b).cur = s.cur := rfl

@[simp] theorem State.setByte_canon (pa a : Nat) (b : Byte) : (s.setByte pa b).canon a = s.canon a :=
  State.canon_congr rfl rfl a

/-- A byte written is read back, at every address that names its place; every other byte stays. -/
theorem State.byte_setByte (pa a : Nat) (b : Byte) :
    (s.setByte pa b).byte a = if s.canon a = s.canon pa then b else s.byte a := by
  simp only [State.byte, State.setByte_canon]
  exact Table.get_set _ _ _ _ _

theorem State.setByte_wf (h : Memory.wf s.mem = true) (pa : Nat) (b : Byte) : Memory.wf (s.setByte pa b).mem = true :=
  Table.wf_set _ _ h

@[simp] theorem State.setBytes_nil (pa : Nat) : s.setBytes pa [] = s := rfl

theorem State.setBytes_cons (pa : Nat) (b : Byte) (l : List Byte) :
    s.setBytes pa (b :: l) = (s.setByte pa b).setBytes (pa + 1) l := rfl

theorem State.setBytes_sites (pa : Nat) (l : List Byte) : (s.setBytes pa l).sites = s.sites := by
  induction l generalizing s pa with
  | nil => rfl
  | cons b l ih => simp [State.setBytes_cons, ih]

theorem State.setBytes_hubs (pa : Nat) (l : List Byte) : (s.setBytes pa l).hubs = s.hubs := by
  induction l generalizing s pa with
  | nil => rfl
  | cons b l ih => simp [State.setBytes_cons, ih]

theorem State.setBytes_ctxs (pa : Nat) (l : List Byte) : (s.setBytes pa l).ctxs = s.ctxs := by
  induction l generalizing s pa with
  | nil => rfl
  | cons b l ih => simp [State.setBytes_cons, ih]

theorem State.setBytes_wf (h : Memory.wf s.mem = true) (pa : Nat) (l : List Byte) :
    Memory.wf (s.setBytes pa l).mem = true := by
  induction l generalizing s pa with
  | nil => exact h
  | cons b l ih => exact ih _ (s.setByte_wf h pa b) _

/-- Bytes outside the places that a write names stay as they are. -/
theorem State.byte_setBytes_of_ne (pa a : Nat) (l : List Byte)
    (ha : ∀ i, i < l.length → s.canon a ≠ s.canon (pa + i)) : (s.setBytes pa l).byte a = s.byte a := by
  induction l generalizing s pa with
  | nil => rfl
  | cons b l ih =>
    rw [State.setBytes_cons, ih, State.byte_setByte, if_neg (by simpa using ha 0 (by simp))]
    intro i hi
    have := ha (i + 1) (by simpa using hi)
    simpa [Nat.add_assoc, Nat.add_comm 1 i] using this

theorem State.setDword_wf (h : Memory.wf s.mem = true) (pa : Nat) (v : W64) : Memory.wf (s.setDword pa v).mem = true :=
  s.setBytes_wf h pa _

theorem State.zero_wf (h : Memory.wf s.mem = true) (pa n : Nat) : Memory.wf (s.zero pa n).mem = true :=
  Table.wfFrom_filter _ h

/-- What outlives a start keeps the form (R92). -/
theorem State.keptMem_wf (h : Memory.wf s.mem = true) : Memory.wf s.keptMem = true := Table.wfFrom_filter _ h

theorem State.reset_wf : Memory.wf State.reset.mem = true := rfl

end Sys2Proof.Machine
end

