-- ==== Sys2Proof/Laws/Ops.lean ====
section
/-! SUPPORT. What the shared operations do: units read back after a change, registers read back after a write. -/

namespace Sys2Proof.Machine

variable (s : State)

/-! ### Units -/

@[simp] theorem State.ctx_setCtx_self (r : CtxRef) (c : Ctx) : (s.setCtx r c).ctx r = c := Table.get_put_self _ _ _ _

theorem State.ctx_setCtx_of_ne {r q : CtxRef} (c : Ctx) (h : CtxRef.key q ≠ CtxRef.key r) :
    (s.setCtx r c).ctx q = s.ctx q := Table.get_put_of_ne _ _ _ h

@[simp] theorem State.ctx_modCtx_self (r : CtxRef) (f : Ctx → Ctx) : (s.modCtx r f).ctx r = f (s.ctx r) :=
  s.ctx_setCtx_self r _

theorem State.ctx_modCtx_of_ne {r q : CtxRef} (f : Ctx → Ctx) (h : CtxRef.key q ≠ CtxRef.key r) :
    (s.modCtx r f).ctx q = s.ctx q := s.ctx_setCtx_of_ne _ h

@[simp] theorem State.c_modC (f : Ctx → Ctx) : (s.modC f).c = f s.c := s.ctx_modCtx_self s.cur f

theorem State.ctx_modC_of_ne {q : CtxRef} (f : Ctx → Ctx) (h : CtxRef.key q ≠ CtxRef.key s.cur) :
    (s.modC f).ctx q = s.ctx q := s.ctx_modCtx_of_ne f h

@[simp] theorem State.core_modCore_self (i k : Nat) (f : Core → Core) : (s.modCore i k f).core i k = f (s.core i k) :=
  Table.get_put_self _ _ _ _

@[simp] theorem State.die_modDie_self (i : Nat) (f : Die → Die) : (s.modDie i f).die i = f (s.die i) :=
  Table.get_put_self _ _ _ _

theorem State.die_modDie_of_ne {i j : Nat} (f : Die → Die) (h : j ≠ i) : (s.modDie i f).die j = s.die j :=
  Table.get_put_of_ne _ _ _ h

@[simp] theorem State.octet_modOctet_self (i k : Nat) (f : Octet → Octet) :
    (s.modOctet i k f).octet i k = f (s.octet i k) := Table.get_put_self _ _ _ _

@[simp] theorem State.hub_modHub_self (h : Nat) (f : Hub → Hub) : (s.modHub h f).hub h = f (s.hub h) :=
  Table.get_put_self _ _ _ _

theorem State.hub_modHub_of_ne {h k : Nat} (f : Hub → Hub) (hk : k ≠ h) : (s.modHub h f).hub k = s.hub k :=
  Table.get_put_of_ne _ _ _ hk

/-! ### Registers (R212): g0 reads 0 and p0 reads 1 whatever is written -/

@[simp] theorem Ctx.rg_zero (c : Ctx) : c.rg 0 = 0 := rfl

theorem Ctx.rg_wg (c : Ctx) (d e : BitVec 5) (v : W64) :
    (c.wg d v).rg e = if e = 0 then 0 else if e = d then v else c.rg e := by
  unfold Ctx.rg Ctx.wg
  by_cases he : e = 0
  · rw [if_pos he, if_pos he]
  rw [if_neg he, if_neg he]
  by_cases hd : d = 0
  · rw [if_pos hd, if_neg fun h => he (h.trans hd), if_neg he]
  rw [if_neg hd]
  by_cases h : e = d
  · subst h; rw [if_pos rfl]; exact Vector.getElem_set_self _
  · have : d.toNat ≠ e.toNat := fun hn => h (BitVec.eq_of_toNat_eq hn.symm)
    rw [if_neg h, if_neg he]
    exact Vector.getElem_set_ne d.isLt e.isLt this

@[simp] theorem Ctx.rp_zero (c : Ctx) : c.rp 0 = true := rfl

theorem Ctx.rp_wp (c : Ctx) (n m : BitVec 3) (b : Bool) :
    (c.wp n b).rp m = (if m = 0 then true else if m = n then b else c.rp m) := by
  unfold Ctx.rp Ctx.wp
  by_cases hm : m = 0
  · simp [hm]
  rw [if_neg hm]
  by_cases hn : n = 0
  · rw [if_pos hn, if_neg fun h => hm (h.trans hn)]
  rw [if_neg hn]
  have hm8 : m.toNat < 8 := m.isLt
  rw [decide_eq_false hm, Bool.false_or, Bool.false_or]
  by_cases h : m = n
  · subst h
    cases b <;> simp [hm8]
  · have hlt : m.toNat < n.toNat ∨ m.toNat - n.toNat ≠ 0 := by
      have : m.toNat ≠ n.toNat := fun hh => h (BitVec.eq_of_toNat_eq hh)
      omega
    rw [if_neg h]
    cases b <;> rcases hlt with hl | hl <;> simp [hm8, hl]

/-- The register of the context in issue after a write (R212, R239). -/
theorem State.g_gw (d e : BitVec 5) (v : W64) :
    (s.gw d v).g e = if e = 0 then 0 else if e = d then v else s.g e := by
  simp only [State.g, State.gw, State.c_modC, Ctx.rg_wg]

/-- A predicate of the context in issue after a write (R212). -/
theorem State.p_pw (n m : BitVec 3) (b : Bool) :
    (s.pw n b).p m = (if m = 0 then true else if m = n then b else s.p m) := by
  simp only [State.p, State.pw, State.c_modC, Ctx.rp_wp]

@[simp] theorem State.p_gw (d : BitVec 5) (v : W64) (n : BitVec 3) : (s.gw d v).p n = s.p n := by
  simp [State.p, State.gw, Ctx.rp]

@[simp] theorem State.g_pw (n : BitVec 3) (b : Bool) (e : BitVec 5) : (s.pw n b).g e = s.g e := by
  simp [State.g, State.pw, Ctx.rg]

/-! ### Memory is read alike after a change of registers -/

@[simp] theorem State.byte_setCtx (r : CtxRef) (c : Ctx) (a : Nat) : (s.setCtx r c).byte a = s.byte a :=
  State.byte_congr rfl rfl rfl a

@[simp] theorem State.byte_modC (f : Ctx → Ctx) (a : Nat) : (s.modC f).byte a = s.byte a :=
  State.byte_congr rfl rfl rfl a

@[simp] theorem State.byte_gw (d : BitVec 5) (v : W64) (a : Nat) : (s.gw d v).byte a = s.byte a :=
  State.byte_congr rfl rfl rfl a

@[simp] theorem State.byte_pw (n : BitVec 3) (b : Bool) (a : Nat) : (s.pw n b).byte a = s.byte a :=
  State.byte_congr rfl rfl rfl a

@[simp] theorem State.byte_flow (f : Flow) (a : Nat) : (s.flow f).byte a = s.byte a := State.byte_congr rfl rfl rfl a

@[simp] theorem State.byte_next (a : Nat) : s.next.byte a = s.byte a := State.byte_congr rfl rfl rfl a

end Sys2Proof.Machine
end

