-- ==== Sys2Proof/Tests/Slice0.lean ====
section
/-! SUPPORT. The model's own tests: words written out from the encoding tables, one ill-formed
term per check of WellFormed, small single-step tests whose expected values are worked out by hand
from the rules, and for each statement of Certificates/Slice0/Obligations.lean a named witness that
meets its hypotheses. -/

namespace Sys2Proof.Tests

open Sys2Proof.Machine

set_option Elab.async false
set_option synthInstance.maxSize 1000

/-- The state the tests start from: module 0 of a one-site machine SERVING, context 0 of core 0 RUNNING and owning the
core, all cores passing, three 2 MiB translations (plain at 0x200000, execute-only at 0x400000, device at 0x600000). -/
def base : State :=
  let s : State := { State.reset with
    grade := 0, sites := [0], mainPower := true, standby := true, nextId := 7 }
  let s := s.modC fun c => { c with st := .running, pc := 0x200100, tvec := 0x1000 }
  let s := s.modHub 0 fun u =>
    { u with st := .serving, regs := [(0x200, -1), (0x208, -1), (0x210, -1), (0x218, -1), (0x1000, 0x80#64), (0x1400, 0x1FF00#64)] }
  s.modCore 0 0 fun k => { k with
    owner := some 0
    tlb := [⟨0, 0x200000, 0x200000, 0x2000EF#64, true⟩,
      ⟨0, 0x400000, 0x200000, 0x800000004000EF#64, true⟩, ⟨0, 0x600000, 0x200000, 0x6008EF#64, true⟩] }

namespace WellFormed

/-- R211: one ill-formed instruction for each operand rule. WellFormed refuses each of them. -/
theorem wf_refuses_instructions :
    let illFormed : List Instr :=
      [.red 1 2 true .swap, .pop 0 1 0 0 .die, .pop 1 1 8 0 .die, .bind 1 2 3, .waita 1 31 2 0 1,
       .waita 1 2 31 0 1, .loop 0 1 0, .vclaim 1 9, .vrenew 1 9, .vldS 1 3 0 0, .vstS 1 3 0 0,
       .sfucmd 1 2 3 .die false false .rcp, .fma false 1 2 3 4 .rs, .fms true 1 2 3 4 .rs,
       .fnma false 1 2 3 4 .rs, .fnms true 1 2 3 4 .rs, .vfadd .s 1 2 3 .none 0 0 .rs,
       .vfsub .bf 1 2 3 .none 0 0 .rs, .vfmul .d 1 2 3 .none 0 0 .rs, .vfcmp 1 2 3 .none 0 0 .bf .eq];
    (illFormed).all (fun i => !i.wf) = true := by
  decide +kernel

/-- The neighbours of those terms on the permitted side. WellFormed admits each of them. -/
theorem wf_admits_instructions :
    let neighbours : List Instr :=
      [.red 1 2 true .fmax, .pop 0 1 1 0 .die, .pop 1 1 7 0 .die, .bind 1 2 30, .waita 1 30 30 0 1,
       .waita 1 28 28 0 3, .loop 0 1 1, .vclaim 1 8, .vrenew 1 0, .vldS 1 2 0 0, .vstS 1 30 0 0,
       .sfucmd 1 2 0 .die false false .rcp, .sfucmd 1 2 3 .die false false .map,
       .fma false 1 2 3 4 .rm, .fnms true 1 2 3 4 .ne, .vfadd .s 1 2 3 .none 0 0 .rm,
       .vfcmp 1 2 3 .none 0 0 .d .un];
    (neighbours).all Instr.wf = true := by
  decide +kernel

/-- For each unit that an event names, the first number past the last unit. WellFormed refuses events of units that do
not exist. -/
theorem wf_refuses_events :
    let noUnit0 : List Instr :=
      [.mma 64 0 none, .mma 0 256 none, .mdist 64 0 none, .mdist 0 256 none, .topk 64 0 none,
       .topk 0 256 none, .acz 64 0, .acz 0 256, .acl 64 0, .acl 0 256, .epi 64 0 none,
       .epi 0 256 none, .outputBufferDrain 64 0, .outputBufferDrain 0 256,
       .engineCountDown ⟨64, 0, 0⟩, .cpctlGo ⟨64, 0, 0⟩ 0, .shadowSwapIn 64 0 none,
       .shadowSwapIn 0 256 none, .faultRecordClear ⟨64, 0, 0⟩ true, .sfuRequestStart 64 0,
       .sfuRequestStart 0 32, .sfuResult 64 0, .sfuResult 0 32, .missRetry ⟨64, 0, 0⟩,
       .missRetry ⟨0, 256, 0⟩, .missRetry ⟨0, 0, 4⟩, .walk 64 0, .recall 64 0 0, .recall 0 256 0,
       .ownedLineTimeout 64 0 0, .ownedLineTimeout 0 256 0, .watchNotify ⟨64, 0, 0⟩,
       .watchPoll ⟨64, 0, 0⟩, .waitaTimeout ⟨64, 0, 0⟩, .floorIssue ⟨64, 0, 0⟩,
       .trapEntry ⟨64, 0, 0⟩, .endContext ⟨64, 0, 0⟩, .preemptionAccept ⟨64, 0, 0⟩,
       .resumption ⟨64, 0, 0⟩, .haltSequence ⟨64, 0, 0⟩];
    let noUnit1 : List Instr :=
      [.gangTimeout ⟨64, 0, 0⟩, .phaseComplete 64 0, .phaseComplete 0 8, .girthTimeout ⟨64, 0, 0⟩,
       .barrierPacket 64 0 0, .barrierPacket 0 8 0, .barrierPacket 0 0 128,
       .npcountLimit ⟨64, 0, 0⟩, .dictionaryLoadComplete ⟨64, 0, 0⟩, .replayEntryIssue 64 0 0,
       .replayEntryIssue 0 256 0, .bankPowerGate 64 0 0, .bankPowerGate 0 256 0,
       .bankPowerGate 0 0 16, .retainTimeout 64 0 0, .retainTimeout 0 256 0, .retainTimeout 0 0 32,
       .patrolScrub 64 .clean, .arm 65536, .complete 65536, .blockDeal 65536, .dispatch 64,
       .hqtailWrite 64 0 0, .hqtailWrite 0 4 0, .nopEntry 64 0, .nopEntry 0 4, .launchEntry 64 0,
       .launchEntry 0 4, .signalEntry 64 0, .signalEntry 0 4, .hqctlWrite 64 0 0,
       .hqctlWrite 0 4 0, .hqdescWrite 64 0 0, .hqdescWrite 0 4 0, .rowWithhold 64 0 0 0,
       .rowWithhold 0 16 0 0, .tqconsWrite 64 0, .preEmpt 64 0 0, .preEmpt 0 256 0,
       .preEmptAndHold 64 0 0];
    let noUnit2 : List Instr :=
      [.preEmptAndHold 0 256 0, .resumeHeldContexts 64 0 0, .resumeHeldContexts 0 256 0,
       .haltTreeStop 64, .haltTreeRelease 64, .selfTestStart 64, .selfTestWithdraw 64,
       .selfTestResult 64 true, .openInterval 64 0, .openInterval 0 4096, .closeInterval 64 0,
       .closeInterval 0 4096, .rollBack 64 0, .rollBack 0 4096, .copyDramToKeep 64,
       .copyKeepToDram 64, .stallSample 64 0 0 0 0, .stallSample 0 256 0 0 0, .meltEstimate 64 0,
       .leaseTimerExpiry 64 0, .leaseTimerExpiry 0 4, .rampupComplete 64 0, .rampupComplete 0 4,
       .rampdownComplete 64 0, .rampdownComplete 0 4, .voltageStep 64 0, .voltageStep 0 16,
       .throttleStart 64 ⟨0, false, false⟩, .throttleEnd 64, .leasecfgKill 64 0, .energyFlush 64, .dieGate 64,
       .dieWake 64, .debugDictionaryWrite ⟨0, 0, 0⟩ 4 0 0, .debugDictionaryWrite ⟨0, 0, 0⟩ 0 64 0,
       .debugDictionaryWrite ⟨64, 0, 0⟩ 0 0 0, .huberrErrntClear 64, .poisonaddrValidClear 64,
       .hostMemAccess 16 0 (.evict none), .hostBar0Access 16 0 none];
    let noUnit3 : List Instr :=
      [.hostBar2Access 16 0 0 none, .bootcmdStart 64, .clockLock 64, .linkTrain 64,
       .hubTestResult 64 true [], .clockedTimeout 64, .hubTestTimeout 64, .commit 64, .serve 64,
       .configSetWrite 64 0 0, .quote 64, .mctpControl 64 0, .pldmSensorRead 64 (.melt 0),
       .coolantAlarmEffecter 64 true, .vendorMessage 64 .quote,
       .moduleLinkFlit 32 true (.copyWriteAck 0), .moduleLinkDown 32, .moduleLinkRetrain 32 0,
       .registerWrite 64 0 0, .hostPortTrain 16 true, .testPortAccess 64 0 none,
       .queueSwitchComplete 64 0, .queueSwitchComplete 0 4, .quoteDone 64, .checkpointOpDone 64];
    (noUnit0 ++ noUnit1 ++ noUnit2 ++ noUnit3).all (fun i => !i.wf) = true := by
  decide +kernel

/-- Events of the last unit of each kind. WellFormed admits them. -/
theorem wf_admits_events :
    let lastUnit0 : List Instr :=
      [.mma 63 255 none, .mdist 63 255 none, .topk 63 255 none, .acz 63 255, .acl 63 255,
       .epi 63 255 none, .outputBufferDrain 63 255, .engineCountDown ⟨63, 255, 3⟩,
       .cpctlGo ⟨63, 255, 3⟩ 0, .shadowSwapIn 63 255 none, .faultRecordClear ⟨63, 255, 3⟩ true,
       .sfuRequestStart 63 31, .sfuResult 63 31, .missRetry ⟨63, 255, 3⟩, .walk 63 0,
       .recall 63 255 0, .ownedLineTimeout 63 255 0, .watchNotify ⟨63, 255, 3⟩,
       .watchPoll ⟨63, 255, 3⟩, .waitaTimeout ⟨63, 255, 3⟩, .floorIssue ⟨63, 255, 3⟩,
       .trapEntry ⟨63, 255, 3⟩, .endContext ⟨63, 255, 3⟩, .preemptionAccept ⟨63, 255, 3⟩,
       .resumption ⟨63, 255, 3⟩, .haltSequence ⟨63, 255, 3⟩, .gangTimeout ⟨63, 255, 3⟩,
       .phaseComplete 63 7, .girthTimeout ⟨63, 255, 3⟩, .barrierPacket 63 7 127,
       .npcountLimit ⟨63, 255, 3⟩, .dictionaryLoadComplete ⟨63, 255, 3⟩,
       .replayEntryIssue 63 255 0, .bankPowerGate 63 255 15, .retainTimeout 63 255 31,
       .patrolScrub 63 .clean, .arm 65535, .complete 65535, .blockDeal 65535, .dispatch 63];
    let lastUnit1 : List Instr :=
      [.hqtailWrite 63 3 0, .nopEntry 63 3, .launchEntry 63 3, .signalEntry 63 3,
       .hqctlWrite 63 3 0, .hqdescWrite 63 3 0, .rowWithhold 63 15 0 0, .tqconsWrite 63 0,
       .preEmpt 63 255 0, .preEmptAndHold 63 255 0, .resumeHeldContexts 63 255 0, .haltTreeStop 63,
       .haltTreeRelease 63, .selfTestStart 63, .selfTestWithdraw 63, .selfTestResult 63 true,
       .openInterval 63 4095, .closeInterval 63 4095, .rollBack 63 4095, .copyDramToKeep 63,
       .copyKeepToDram 63, .stallSample 63 255 0 0 0, .meltEstimate 63 0, .leaseTimerExpiry 63 3,
       .rampupComplete 63 3, .rampdownComplete 63 3, .voltageStep 63 15, .throttleStart 63 ⟨0, true, true⟩,
       .throttleEnd 63, .leasecfgKill 63 0, .energyFlush 63, .dieGate 63, .dieWake 63,
       .debugDictionaryWrite ⟨63, 255, 3⟩ 3 63 0, .huberrErrntClear 63, .poisonaddrValidClear 63,
       .hostMemAccess 15 0 (.evict none), .hostBar0Access 15 0 none, .hostBar2Access 15 0 0 none,
       .bootcmdStart 63];
    let lastUnit2 : List Instr :=
      [.clockLock 63, .linkTrain 63, .hubTestResult 63 true [], .clockedTimeout 63,
       .hubTestTimeout 63, .commit 63, .serve 63, .configSetWrite 63 0 0, .quote 63,
       .mctpControl 63 0, .pldmSensorRead 63 (.melt 0), .coolantAlarmEffecter 63 true,
       .vendorMessage 63 .quote, .moduleLinkFlit 31 true (.copyWriteAck 0), .moduleLinkDown 31,
       .moduleLinkRetrain 31 0, .registerWrite 63 0 0, .hostPortTrain 15 true,
       .testPortAccess 63 0 none, .queueSwitchComplete 63 3, .quoteDone 63, .checkpointOpDone 63];
    (lastUnit0 ++ lastUnit1 ++ lastUnit2).all Instr.wf = true := by
  decide +kernel

end WellFormed

namespace Decoding

/-- Words of instructions of word A, in lone bundles (bits 31 and 30 are 01), written out from the fields of R207 to
R210 and of the opcode table, each decoded. -/
theorem test_words_A0 :
    let l : List (W32 × Instr) :=
      [(0x41AE8E5B, .ld 21 26 .h 0x65b), (0x42AEBE03, .ldIndexed 21 26 31 .d),
       (0x43AE865B, .ldxB 21 26 0x65b), (0x43AE8E5B, .ldxH 21 26 0x65b),
       (0x44AED800, .ldk 21 0xdb), (0x4505465B, .pfL1 21 0x65b), (0x45054E5B, .pfL2 21 0x65b),
       (0x48AE8E5B, .st 21 26 .h 0x65b), (0x49AEBE03, .stIndexed 21 26 31 .d),
       (0x4AAE865B, .stxB 21 26 0x65b), (0x4AAE8E5B, .stxH 21 26 0x65b),
       (0x50AEBFA1, .amo 21 26 31 (.ar .die) false .add),
       (0x51AEBC13, .amoCas 21 26 15 (.rel .module) true), (0x52057409, .red 21 26 false .fadd),
       (0x53AEBE19, .push 21 26 31 3 .cluster), (0x54AE8C1B, .pop 21 26 6 3 .module),
       (0x58000000, .fence .core), (0x58A80008, .xfi 21), (0x58054010, .xfw 21),
       (0x59AEB400, .bind 21 26 26), (0x59AE800A, .acq 21 26 .die),
       (0x59057414, .rel 21 26 .system), (0x5AAEBE40, .waitc 21 26 31 4),
       (0x5A3F1771, .waita 7 28 11 5 3), (0x5A000002, .sfufence), (0x5B000005, .arrive 5),
       (0x5B00000D, .arriveSs 5), (0x5B000015, .waitb 5), (0x60000000, .nop), (0x60000001, .yield),
       (0x61AA5A5B, .br 5 false 0xa5a5b), (0x62BA5A5B, .call 5 true 0xa5a5b), (0x63054000, .jr 21),
       (0x63054001, .callr 21), (0x63000002, .ret), (0x63054003, .movJa0FromG 21)];
    ∀ x ∈ l, decodeA x.1 = .ok x.2 := by
  decide +kernel

/-- Words of instructions of word A, in lone bundles (bits 31 and 30 are 01), written out from the fields of R207 to
R210 and of the opcode table, each decoded. -/
theorem test_words_A1 :
    let l : List (W32 × Instr) :=
      [(0x63054004, .movJa1FromG 21), (0x63054005, .movLrFromG 21), (0x63A80006, .movGFromJa0 21),
       (0x63A80007, .movGFromJa1 21), (0x63A80008, .movGFromLr 21), (0x63A8000C, .rdpc 21),
       (0x63A80013, .movGFromLs 21 3), (0x63A80017, .movGFromLe 21 3),
       (0x63A8001B, .movGFromLc 21 3), (0x63054023, .movLsFromG 21 3),
       (0x63054027, .movLeFromG 21 3), (0x6305402B, .movLcFromG 21 3),
       (0x6416BA5B, .loop 2 26 0x3a5b), (0x65000000, .halt), (0x65054001, .haltRet 21),
       (0x66A80000, .gang 21), (0x66000001, .split), (0x68AEBA5B, .adda 21 26 0x3a5b),
       (0x69AE5A5B, .movi 21 0x65a5b), (0x6AABDA5B, .movk 21 3 0xda5b),
       (0x6BAEBE00, .cstep 21 26 31), (0x6BAEBE01, .cwrap 21 26 31), (0x6BAEBE02, .cdiff 21 26 31),
       (0x6BAE8003, .crect 21 26), (0x6BAE8004, .cidx 21 26), (0x6BAE8005, .cclus 21 26),
       (0x70AEBE00, .hgrant 21 26 31), (0x70AEBE01, .hpassX 21 26 31),
       (0x70AEBE02, .hpassS 21 26 31), (0x70AE8003, .htake 21 26), (0x70054004, .hrecall 21),
       (0x70054005, .hrel 21), (0x71A80007, .vclaim 21 7), (0x71A81007, .vrenew 21 7),
       (0x71002000, .vrel), (0x729D465B, .vld 9 26 2 0x65b)];
    ∀ x ∈ l, decodeA x.1 = .ok x.2 := by
  decide +kernel

/-- Words of instructions of word A, in lone bundles (bits 31 and 30 are 01), written out from the fields of R207 to
R210 and of the opcode table, each decoded. -/
theorem test_words_A2 :
    let l : List (W32 × Instr) :=
      [(0x729B4E5B, .vldS 9 22 2 0x65b), (0x729D565B, .vldBc 9 26 2 0x65b),
       (0x729D5802, .vldG 9 26 2 2), (0x739D465B, .vst 9 26 2 0x65b),
       (0x739B4E5B, .vstS 9 22 2 0x65b), (0x739D5802, .vstG 9 26 2 2),
       (0x74AE8071, .sfucmd 21 26 0 .cluster true true .rsqrt), (0x78A80A5B, .srd 21 0xa5b),
       (0x78055A5B, .swr 21 0xa5b), (0x78AEAA5B, .srset 21 26 0xa5b),
       (0x78AEBA5B, .srclr 21 26 0xa5b), (0x79AE8000, .lease 21 26), (0x79A80001, .leaseq 21),
       (0x79A80002, .leaseend 21), (0x7A057000, .dictld 21 3), (0x7A002200, .dictsel 2),
       (0x7A000400, .dictfence), (0x7AAEA600, .dictrd 21 26 2), (0x7B04B600, .trap 0x25b),
       (0x7B000001, .rft), (0x7B057402, .tlbinvVa 21 26), (0x7B054003, .tlbinvAsid 21),
       (0x7B000004, .tlbinvAll), (0x7B000005, .icsync), (0x7BAE8006, .larm 21 26)];
    ∀ x ∈ l, decodeA x.1 = .ok x.2 := by
  decide +kernel

/-- Words of instructions of word B, written out from the fields of R207 to R210 and of the opcode table, each decoded.
-/
theorem test_words_B0 :
    let l : List (W32 × Instr) :=
      [(0x00000000, .arithmeticNoOp), (0x01AEBE00, .add 21 26 31), (0x01AEBE01, .sub 21 26 31),
       (0x01AE8002, .neg 21 26), (0x01AE8003, .abs 21 26), (0x01AEBE04, .addW 21 26 31),
       (0x01AEBE05, .subW 21 26 31), (0x01AEBE06, .addSat 21 26 31),
       (0x01AEBE07, .subSat 21 26 31), (0x02AEBE00, .and 21 26 31), (0x02AEBE01, .or 21 26 31),
       (0x02AEBE02, .xor 21 26 31), (0x02AEBE03, .andn 21 26 31), (0x02AEBE04, .orn 21 26 31),
       (0x02AEBE05, .xnor 21 26 31), (0x02AE8006, .not 21 26), (0x03AEBE00, .shl 21 26 31),
       (0x03AEBE01, .shr 21 26 31), (0x03AEBE02, .sra 21 26 31), (0x03AEBE03, .rol 21 26 31),
       (0x03AEBE04, .ror 21 26 31), (0x03AEBE05, .shlW 21 26 31), (0x03AEBE06, .shrW 21 26 31),
       (0x03AEBE07, .sraW 21 26 31), (0x04AEBE00, .mul 21 26 31), (0x04AEBE01, .mulh 21 26 31),
       (0x04AEBE02, .mulhu 21 26 31), (0x04AEBE03, .mulW 21 26 31), (0x05AEBE00, .div 21 26 31),
       (0x05AEBE01, .divu 21 26 31), (0x05AEBE02, .rem 21 26 31), (0x05AEBE03, .remu 21 26 31),
       (0x05AEBE04, .divW 21 26 31), (0x05AEBE05, .divuW 21 26 31), (0x05AEBE06, .remW 21 26 31),
       (0x05AEBE07, .remuW 21 26 31)];
    ∀ x ∈ l, decodeB x.1 = .ok x.2 := by
  decide +kernel

/-- Words of instructions of word B, written out from the fields of R207 to R210 and of the opcode table, each decoded.
-/
theorem test_words_B1 :
    let l : List (W32 × Instr) :=
      [(0x062EBE01, .cmp 5 26 31 .ne), (0x07298E00, .pand 5 6 7), (0x07298E01, .por 5 6 7),
       (0x07298E02, .pxor 5 6 7), (0x07298E03, .pandn 5 6 7), (0x07298004, .pnot 5 6),
       (0x07A80005, .pread 21), (0x07054006, .pwrite 21), (0x072E8007, .ptest 5 26),
       (0x08AEBE00, .sel 21 26 31 0), (0x08AEBE08, .smin 21 26 31), (0x08AEBE09, .smax 21 26 31),
       (0x08AEBE0A, .umin 21 26 31), (0x08AEBE0B, .umax 21 26 31), (0x08AE800C, .popc 21 26),
       (0x08AE800D, .clz 21 26), (0x08AE800E, .ctz 21 26), (0x08AEBE10, .ext 21 26 31),
       (0x08AEBE11, .exts 21 26 31), (0x08AEBE12, .ins 21 26 31), (0x09AEBA5B, .addi 21 26 0x3a5b),
       (0x0AAE865B, .andi 21 26 0x65b), (0x0AAE8E5B, .ori 21 26 0x65b),
       (0x0AAE965B, .xori 21 26 0x65b), (0x0AAE983B, .shli 21 26 59), (0x0AAEA03B, .shri 21 26 59),
       (0x0AAEA83B, .srai 21 26 59), (0x0AAEB03B, .rori 21 26 59),
       (0x0B2E9E5B, .cmpi 5 26 .ge 0x65b), (0x12D7C840, .fadd true 26 31 4 .rz),
       (0x10D7C8C1, .fsub false 26 31 4 .rm), (0x12D7C802, .fmul true 26 31 4 .ne),
       (0x10D7C883, .fdiv false 26 31 4 .rp), (0x12D7C104, .fsqrt true 26 31 .rs),
       (0x10D7C805, .fmin false 26 31 4), (0x12D7C806, .fmax true 26 31 4)];
    ∀ x ∈ l, decodeB x.1 = .ok x.2 := by
  decide +kernel

/-- Words of instructions of word B, written out from the fields of R207 to R210 and of the opcode table, each decoded.
-/
theorem test_words_B2 :
    let l : List (W32 × Instr) :=
      [(0x10D7C007, .fabs false 26 31), (0x12D7C008, .fneg true 26 31),
       (0x11D7C893, .fma false 26 31 4 9 .rm), (0x13D7C895, .fms true 26 31 4 9 .rz),
       (0x11D7C89B, .fnma false 26 31 4 9 .rm), (0x13D7C89D, .fnms true 26 31 4 9 .rz),
       (0x142EBE04, .feq 5 26 31 true), (0x142EBE01, .flt 5 26 31 false),
       (0x142EBE06, .fle 5 26 31 true), (0x142EBE03, .fun 5 26 31 false),
       (0x14AE8008, .fclass 21 26 false), (0x15AE8100, .cvtSD 21 26 .rs),
       (0x15AE8001, .cvtDS 21 26), (0x15AE8042, .cvtSL 21 26 .rz false),
       (0x15AE80C5, .cvtLS 21 26 .rm true), (0x15AE8006, .cvtSLu 21 26 .ne false),
       (0x15AE8089, .cvtLuS 21 26 .rp true), (0x15AE810A, .cvtBfS 21 26 .rs false),
       (0x15AE804D, .cvtE4S 21 26 .rz true), (0x15AE800F, .cvtSBf 21 26 true),
       (0x15AE8010, .cvtSE4 21 26 false), (0x189CF360, .vadd 9 12 15 .rot 2 3),
       (0x189CF761, .vsub 9 12 15 .w8 2 3), (0x189CF162, .vaddSat 9 12 15 .none 2 3),
       (0x189CF563, .vsubSat 9 12 15 .rev 2 3), (0x189CF964, .vadduSat 9 12 15 .bc 2 3),
       (0x189CF365, .vsubuSat 9 12 15 .rot 2 3), (0x189C0046, .vneg 9 12 2),
       (0x199CF760, .vand 9 12 15 .w8 2 3), (0x199CF161, .vor 9 12 15 .none 2 3),
       (0x199CF562, .vxor 9 12 15 .rev 2 3), (0x199CF963, .vandn 9 12 15 .bc 2 3),
       (0x199C0044, .vnot 9 12 2), (0x199CF365, .vshl 9 12 15 .rot 2 3),
       (0x199CF766, .vshr 9 12 15 .w8 2 3), (0x199CF167, .vsra 9 12 15 .none 2 3)];
    ∀ x ∈ l, decodeB x.1 = .ok x.2 := by
  decide +kernel

/-- Words of instructions of word B, written out from the fields of R207 to R210 and of the opcode table, each decoded.
-/
theorem test_words_B3 :
    let l : List (W32 × Instr) :=
      [(0x1A9CF560, .vmul 9 12 15 .rev 2 3), (0x1A9CF961, .vmulh 9 12 15 .bc 2 3),
       (0x1A9CF362, .vmulhu 9 12 15 .rot 2 3), (0x1A9CF763, .vmla 9 12 15 .w8 2 3),
       (0x1B9CF160, .vsmin 9 12 15 .none 2 3), (0x1B9CF561, .vsmax 9 12 15 .rev 2 3),
       (0x1B9CF962, .vumin 9 12 15 .bc 2 3), (0x1B9CF363, .vumax 9 12 15 .rot 2 3),
       (0x1B9C0044, .vabs 9 12 2), (0x1C2CF765, .vcmp 2 12 15 .w8 2 3 .geu),
       (0x22CF21C8, .vfadd .bf 12 15 2 .none 3 2 .rz),
       (0x20CF25D9, .vfsub .s 12 15 2 .rev 3 2 .rm), (0x24CF29CA, .vfmul .d 12 15 2 .bc 3 2 .rz),
       (0x22CF23C3, .vfmin .bf 12 15 2 .rot 3 2), (0x20CF27C4, .vfmax .s 12 15 2 .w8 3 2),
       (0x25CF2516, .vfma .d 12 15 2 5 .none 2 3), (0x23CF2557, .vfms .bf 12 15 2 5 .rev 2 3),
       (0x262CF971, .vfcmp 2 12 15 .bc 2 3 .d .lt), (0x279CF360, .vsel 9 12 15 .rot 2 3),
       (0x2790C7C1, .vmov 9 12 .w8 3 2), (0x28232000, .mand 2 3 2), (0x28232001, .mor 2 3 2),
       (0x28232002, .mxor 2 3 2), (0x28232003, .mandn 2 3 2), (0x28230004, .mnot 2 3),
       (0x28200005, .mall 2), (0x28200006, .mnone 2), (0x28230007, .mmov 2 3),
       (0x299C0050, .vbcast 9 12 2 1), (0x299C0011, .vins 9 12 1),
       (0x2990C192, .vext 9 12 .none 3 1), (0x29932013, .mrd 9 3 2 1), (0x292C2014, .mwr 2 12 2 1),
       (0x29930015, .mpopc 9 3 1), (0x29900016, .vlen 9 1), (0x309C4060, .vcvtSW 9 12 .rs 3)];
    ∀ x ∈ l, decodeB x.1 = .ok x.2 := by
  decide +kernel

/-- Words of instructions of word B, written out from the fields of R207 to R210 and of the opcode table, each decoded.
-/
theorem test_words_B4 :
    let l : List (W32 × Instr) :=
      [(0x309C1061, .vcvtWS 9 12 .rz 3), (0x309C3063, .vcvtBfS 9 12 .rm 3 true),
       (0x309C0045, .vcvtSBf 9 12 2 true), (0x309C0067, .vcvtHS 9 12 .ne 3 true),
       (0x309C0049, .vcvtSH 9 12 2 true), (0x309C264A, .vcvtES 9 12 .rp 3 2 false),
       (0x309C046C, .vcvtSE 9 12 2 3 false), (0x309C046E, .vcvtBW 9 12 2 3),
       (0x309C046F, .vcvtWB 9 12 2 3), (0x309C0050, .vcvtDS 9 12 2),
       (0x309C4071, .vcvtSD 9 12 .rs 3), (0x319C0041, .vred 9 12 2 .smin),
       (0x329CF560, .vperm 9 12 15 .rev 2 3), (0x329CF961, .vpermB 9 12 15 .bc 2 3),
       (0x329C0042, .vcompress 9 12 2)];
    ∀ x ∈ l, decodeB x.1 = .ok x.2 := by
  decide +kernel

/-- R207, R208: two words built field by field: `ld.d g5, [g2 + 16]` standing alone, and `fma.s.rz g3, g4, g5, g6`. -/
theorem test_fields :
    decodeA (0b01#2 ++ 0x01#6 ++ 5#5 ++ 2#5 ++ 3#3 ++ 2#11) = .ok (.ld 5 2 .d 2) ∧
      decodeB (0b00#2 ++ 0x11#6 ++ 3#5 ++ 4#5 ++ 5#5 ++ 6#5 ++ 0b00#2 ++ 0b01#2) =
        .ok (.fma false 3 4 5 6 .rz) := by
  decide +kernel

/-- R209, R210, R211, R277, R293, R306, R321: words that no instruction has. -/
theorem test_words_refused :
    (([0x46000000, 0x4B000000, 0x41003800, 0x42000007, 0x42000008, 0x43001000, 0x44000001,
        0x48002000, 0x52004200, 0x57000000, 0x740000C0 + 0x100, 0x7400000A, 0x60080000,
        0x7F000000] : List W32).all fun w => decide (decodeA w = .error (.illegalWord w))) ∧
    (([0x00000001, 0x01084208, 0x0C000000, 0x10084340, 0x06400000, 0x18000A00, 0x1C400000,
        0x26000008, 0x2A000000, 0x3F000000] : List W32).all fun w => decide (decodeB w = .error (.illegalWord w))) := by
  decide +kernel

end Decoding

namespace Small

/-- The state after an instruction. -/
def run (i : Instr) (s : State) : State :=
  match exec i s with
  | .next t => t
  | .fault _ => s
  | .refused _ => s

/-- `base` with g1 and g2. -/
def two (x y : W64) : State := (base.gw 1 x).gw 2 y

/-- `base` in system mode with bytes at local offset 0x16000 and g1 naming that offset through window `c` of the self
local aperture (R9, R20). -/
def loc (c : Nat) (l : List Byte) : State :=
  ((base.modC fun x => { x with sys := true }).setBytes (lmemPa 0 0 0x16000) l).gw 1
    (BitVec.ofNat 64 (0xFFFFFFFFFFC16000 + 0x80000 * c))

/-- The bytes at local offset 0x16000. -/
def at_ (s : State) (n : Nat) : List Byte := s.bytes (lmemPa 0 0 0x16000) n

/-- `base` holding a claim of two lane groups (VL 64) with the given vector registers v1 and v2. -/
def vec (x y : List W32) : State := base.modC fun c => { c with
  held := [0, 1], want := 2
  v := ((Vector.replicate 16 (List.replicate 64 (0 : W32))).set 1 x).set 2 y
  m := Vector.replicate 4 ((List.range 64).map fun i => i % 2 == 0) }

/-- R241: sums wrap, and the saturating forms clamp at both ends. -/
theorem test_add_sub :
    (run (.add 3 1 2) (two (-1) 2)).g 3 = 1 ∧ (run (.sub 3 1 2) (two 1 2)).g 3 = -1 ∧
      (run (.addSat 3 1 2) (two 0x7FFFFFFFFFFFFFFF 1)).g 3 = 0x7FFFFFFFFFFFFFFF ∧
      (run (.subSat 3 1 2) (two 0x8000000000000000 1)).g 3 = 0x8000000000000000 ∧
      (run (.addW 3 1 2) (two 0x7FFFFFFF 1)).g 3 = 0xFFFFFFFF80000000 ∧
      (run (.subW 3 1 2) (two 0 1)).g 3 = -1 ∧ (run (.neg 3 1) (two 5 0)).g 3 = -5 ∧
      (run (.abs 3 1) (two 0x8000000000000000 0)).g 3 = 0x8000000000000000 := by decide +kernel

/-- R212: g0 reads as zero, and a write to it is dropped. -/
theorem test_g0 : (run (.add 0 1 2) (two 3 4)).g 0 = 0 := by decide +kernel

/-- R242: logic, shift amounts modulo 64 and modulo 32, arithmetic shifts and rotates. -/
theorem test_logic_shift :
    (run (.andn 3 1 2) (two 0xFF 0x0F)).g 3 = 0xF0 ∧ (run (.orn 3 1 2) (two 0 0xF)).g 3 = 0xFFFFFFFFFFFFFFF0 ∧
      (run (.xnor 3 1 2) (two 5 5)).g 3 = -1 ∧ (run (.shl 3 1 2) (two 1 65)).g 3 = 2 ∧
      (run (.sra 3 1 2) (two 0x8000000000000000 63)).g 3 = -1 ∧
      (run (.shr 3 1 2) (two 0x8000000000000000 63)).g 3 = 1 ∧
      (run (.rol 3 1 2) (two 0x8000000000000001 4)).g 3 = 0x18 ∧
      (run (.ror 3 1 2) (two 1 4)).g 3 = 0x1000000000000000 ∧
      (run (.sraW 3 1 2) (two 0x80000000 4)).g 3 = 0xFFFFFFFFF8000000 ∧
      (run (.shrW 3 1 2) (two 0xFFFFFFFF80000000 4)).g 3 = 0x08000000 := by decide +kernel

/-- R243, R244: high halves, rounding toward zero, and the two borderline cases of the divisions. -/
theorem test_mul_div :
    (run (.mulh 3 1 2) (two (-1) 1)).g 3 = -1 ∧ (run (.mulhu 3 1 2) (two (-1) (-1))).g 3 = -2 ∧
      (run (.mulW 3 1 2) (two 0x10000 0x8000)).g 3 = 0xFFFFFFFF80000000 ∧
      (run (.div 3 1 2) (two (-7) 2)).g 3 = -3 ∧ (run (.rem 3 1 2) (two (-7) 2)).g 3 = -1 ∧
      (run (.div 3 1 2) (two 0x8000000000000000 (-1))).g 3 = 0x8000000000000000 ∧
      (run (.divu 3 1 2) (two 9 0)).g 3 = -1 ∧ (run (.rem 3 1 2) (two 9 0)).g 3 = 9 ∧
      (run (.remuW 3 1 2) (two 0xFFFFFFFF 0x10)).g 3 = 15 := by decide +kernel

/-- R245: minima by sign, counts, and the field instructions at position 4 and width 8. -/
theorem test_field :
    (run (.smin 3 1 2) (two (-1) 1)).g 3 = -1 ∧ (run (.umin 3 1 2) (two (-1) 1)).g 3 = 1 ∧
      (run (.popc 3 1) (two 0xFF01 0)).g 3 = 9 ∧ (run (.clz 3 1) (two 1 0)).g 3 = 63 ∧
      (run (.ctz 3 1) (two 0 0)).g 3 = 64 ∧ (run (.ext 3 1 2) (two 0xABCD 0x804)).g 3 = 0xBC ∧
      (run (.exts 3 1 2) (two 0xABCD 0x804)).g 3 = 0xFFFFFFFFFFFFFFBC ∧
      (run (.ins 3 1 2) ((two 0xEE 0x804).gw 3 0x1111)).g 3 = 0x1EE1 := by decide +kernel

/-- R246, R254: sign-extended immediates, and `movk` of the top quarter. -/
theorem test_immediates :
    (run (.addi 3 1 0x2000) (two 0 0)).g 3 = -8192 ∧ (run (.andi 3 1 0x7FF) (two 0x1234 0)).g 3 = 0x1234 ∧
      (run (.movi 3 0x7FFFF) base).g 3 = -1 ∧
      (run (.movk 3 3 0xBEEF) (base.gw 3 0x1111222233334444)).g 3 = 0xBEEF222233334444 ∧
      (run (.adda 3 1 1) (two 41 0)).g 3 = 42 := by decide +kernel

/-- R247, R248: compares, `pwrite` and `pread`; p0 stays 1. -/
theorem test_predicates :
    (run (.cmp 2 1 2 .ltu) (two 1 (-1))).p 2 = true ∧ (run (.cmp 2 1 2 .lt) (two 1 (-1))).p 2 = false ∧
      (run (.cmpi 2 1 .geu 0x7FF) (two (-1) 0)).p 2 = true ∧
      (run (.pread 3) (run (.pwrite 1) (two 0x52 0))).g 3 = 0x53 ∧
      (run (.cmp 0 1 2 .eq) (two 1 2)).p 0 = true := by decide +kernel

/-- R249 to R251: 1 + 2^-24 in the directed modes, division by zero, the root of -0, and a fused product that a separate
rounding would lose: (1 + 2^-12)^2 - 1 = 2^-11 + 2^-24. -/
theorem test_float :
    (run (.fadd false 3 1 2 .ne) (two 0x3F800000 0x33800000)).g 3 = 0x3F800000 ∧
      (run (.fadd false 3 1 2 .rp) (two 0x3F800000 0x33800000)).g 3 = 0x3F800001 ∧
      (run (.fsub true 3 1 2 .rm) (two 0x3FF0000000000000 0x3FF0000000000000)).g 3 = 0x8000000000000000 ∧
      (run (.fdiv false 3 1 2 .ne) (two 0xBF800000 0)).g 3 = 0xFF800000 ∧
      (run (.fsqrt false 3 1 .ne) (two 0x80000000 0)).g 3 = 0x80000000 ∧
      (run (.fms false 3 1 1 2 .ne) (two 0x3F800800 0x3F800000)).g 3 = 0x3A000400 := by decide +kernel

/-- R252, R253: unordered compares, classes, saturation and the quiet bit of a widened NaN. -/
theorem test_convert :
    (run (.fun 2 1 2 false) (two 0x7FC00000 0)).p 2 = true ∧ (run (.fle 2 1 2 true) (two 0x8000000000000000 0)).p 2 = true ∧
      (run (.fclass 3 1 false) (two 0xFF800000 0)).g 3 = 1 ∧
      (run (.cvtLuS 3 1 .ne false) (two 0xBF800000 0)).g 3 = 0 ∧
      (run (.cvtLS 3 1 .ne false) (two 0x7F800000 0)).g 3 = 0x7FFFFFFFFFFFFFFF ∧
      (run (.cvtE4S 3 1 .ne false) (two 0x447A0000 0)).g 3 = 0x7E ∧
      (run (.cvtDS 3 1) (two 0x7F800001 0)).g 3 = 0x7FF8000020000000 ∧
      (run (.cvtSBf 3 1 false) (two 0x3FC0 0)).g 3 = 0x3FC00000 := by decide +kernel

/-- R257, R258: a taken branch backwards, a branch not taken, and a call that saves the address of the next bundle. -/
theorem test_control :
    (run (.br 0 false 0xFFFFE) base).issue.flow = .jump 0x2000F0 0 ∧
      (run (.br 0 true 0xFFFFE) base).issue.flow = .fall ∧
      (run (.call 0 false 4) base).c.lr = 0x200108 ∧ (run (.rdpc 3) base).g 3 = 0x200100 ∧
      (run (.jr 1) (two 0x300004 0)).c.tcause = 0x0B := by decide +kernel

/-- R260: LS, LE and LC of a loop of five bundles, seven times. -/
theorem test_loop :
    (let c := (run (.loop 1 1 5) (two 7 0)).c
     c.ls[1] = 0x200108 ∧ c.le[1] = 0x200128 ∧ c.lc[1] = 7) := by decide +kernel

/-- R277: little-endian order, sign and zero extension. -/
theorem test_loads :
    (run (.ld 3 1 .h 0) (loc 0 [0x34, 0x92])).g 3 = 0xFFFFFFFFFFFF9234 ∧
      (run (.ld 3 1 .hu 0) (loc 0 [0x34, 0x92])).g 3 = 0x9234 ∧
      (run (.ld 3 1 .b 1) (loc 0 [0x34, 0x92])).g 3 = 0xFFFFFFFFFFFFFF92 ∧
      (run (.ldIndexed 3 1 2 .wu) ((loc 0 [0, 0, 0, 0, 1, 2, 3, 0x84]).gw 2 4)).g 3 = 0x84030201 := by
  decide +kernel

/-- R281: a store writes its low bytes, least significant first. -/
theorem test_stores :
    at_ (run (.st 2 1 .w 0) ((loc 0 []).gw 2 0x1122334455667788)) 5 = [0x88, 0x77, 0x66, 0x55, 0] ∧
      at_ (run (.stIndexed 2 1 3 .b) (((loc 0 [9, 9]).gw 2 0x1FF).gw 3 1)) 2 = [9, 0xFF] := by decide +kernel

/-- The worked examples of the scaled windows (after R56), the scale at local offset 0x17000. -/
theorem test_windows :
    (let s := fun c (rnd : W64) scale l v => ((((loc c l).setBytes (lmemPa 0 0 0x17000) (toBytes 4 scale)).modC fun x =>
        { x with wscale := Vector.replicate 5 (1 ||| rnd <<< 1 ||| 0x70 ||| 0x17000 <<< 8 ||| 0x16000 <<< 27) }).gw 2 v)
     at_ (run (.stxB 2 1 0) (s 1 0 0x3F000000 [] 0x43960000)) 1 = [0x7E] ∧
       (run (.ldxB 3 1 0) (s 1 0 0x3F000000 [0x7E] 0)).g 3 = 0x43600000 ∧
       at_ (run (.stxB 2 1 0) (s 5 0 0x40800000 [] 1000)) 1 = [0x7F] ∧
       at_ (run (.stxB 2 1 0) (s 5 0 0x40000000 [] (-7))) 1 = [0xFC] ∧
       at_ (run (.stxB 2 1 0) (s 5 1 0x40000000 [] (-7))) 1 = [0xFD] ∧
       at_ (run (.stxH 2 1 0) (s 3 0 0 [] 0x3F800000)) 2 = [0x80, 0x7F] ∧
       at_ (run (.stxH 2 1 0) (s 4 0 0 [] 0)) 2 = [0, 0x7E]) := by decide +kernel

/-- R140, R141: atomics return the old word zero-extended, and `amo.cas` stores on equality only. -/
theorem test_atomics :
    (let t := run (.amo 3 1 2 .relaxed false .smax) ((loc 0 [0xFE, 0xFF, 0xFF, 0xFF]).gw 2 1)
     t.g 3 = 0xFFFFFFFE ∧ at_ t 4 = [1, 0, 0, 0]) ∧
    (let t := run (.amoCas 3 1 3 .relaxed true) (((loc 0 [5]).gw 6 5).gw 7 0xAB)
     t.g 3 = 5 ∧ at_ t 2 = [0xAB, 0]) ∧
    (let t := run (.amoCas 3 1 3 .relaxed true) (((loc 0 [5]).gw 6 4).gw 7 0xAB)
     t.g 3 = 5 ∧ at_ t 2 = [5, 0]) := by decide +kernel

/-- R275, R372: a misaligned load takes cause 0x0B with its address, and goes to TVEC in system mode. -/
theorem test_trap :
    (let c := (run (.ld 3 1 .d 0) (two 0x200081 0)).c
     c.tcause = 0x0B ∧ c.tval = 0x200081 ∧ c.trappc = 0x200100 ∧ c.pc = 0x1000 ∧ c.sys = true ∧ c.rg 3 = 0) := by
  decide +kernel

/-- R304 to R306: a masked sum of a reversed source keeps the lanes that the mask leaves out. -/
theorem test_vector :
    (let s := vec ((List.range 64).map (BitVec.ofNat 32)) ((List.range 64).map (BitVec.ofNat 32))
     lane ((run (.vadd 3 1 2 .rev 0 1) s).c.rv 3) 2 = 31 ∧ lane ((run (.vadd 3 1 2 .rev 0 1) s).c.rv 3) 3 = 0 ∧
       lane ((run (.vadd 3 1 2 .rev 0 0) s).c.rv 3) 33 = 95) := by decide +kernel

/-- R316: the worked example: VL 64, lane 0 holding 2^24 and lanes 1 to 63 holding 1.0. -/
theorem test_reduce :
    lane ((run (.vred 3 1 0 .fadd) (vec (0x4B800000 :: List.replicate 63 0x3F800000) [])).c.rv 3) 0 = 0x4B80001F := by
  decide +kernel

/-- R307, R312, R314: a compare to a mask, a population count of it, and a lane moved to a general register. -/
theorem test_mask :
    (let s := vec (7 :: (List.range 63).map (BitVec.ofNat 32)) (List.replicate 64 5)
     let t := run (.vcmp 1 1 2 .none 0 0 .lt) s
     (run (.mpopc 3 1 0) t).g 3 = 5 ∧ (run (.vext 3 1 .none 0 0) t).g 3 = 7) := by decide +kernel

/-- R255, R256: one row down and one column back from row 3, column 15: core 4 * 16 + 14. -/
theorem test_coordinates :
    (run (.cstep 3 1 2) (two (BitVec.ofNat 64 (3 * 2 ^ 10 + 15 * 2 ^ 14)) 0xFF01)).g 3 =
      BitVec.ofNat 64 (4 * 2 ^ 10 + 14 * 2 ^ 14 + 78 * 2 ^ 19) := by decide +kernel

/-- R267, R268: TSCRATCH0 in system mode; in user mode a write to it raises cause 0x09. -/
theorem test_system :
    (let s := (two 0x1234 0).modC fun x => { x with sys := true }
     (run (.srd 3 0x028) (run (.swr 1 0x028) s)).g 3 = 0x1234) ∧
    (run (.swr 1 0x028) (two 0x1234 0)).c.tcause = 0x09 := by decide +kernel

end Small

namespace Instructions

def nm (r c : Nat) : W64 := BitVec.ofNat 64 (r * 1024 + c * 16384)
def c1 (m : W64) : State := (base.gw 1 (nm 3 15)).gw 2 m
def tr (f : Ctx → Ctx) (g1 : W64) : State := (base.modC f).gw 1 g1
def vc (n : Nat) : Ctx := {Ctx.reset with
  st := .running, pc := 0x200100, held := List.range n, want := n, v :=
    Vector.replicate 16 ((List.range (32*n)).map fun i => BitVec.ofNat 32 (i+1)), m :=
    Vector.replicate 4 ((List.range (32*n)).map fun i => i % 2 == 0)}
def vs (n : Nat) : State := base.modC fun _ => vc n
def vg (a b : Nat) : State := [1,2,3].foldl (fun s i => s.modCtx ⟨0,i,0⟩ fun _ => {vc b with
  gang := true}) (base.modC fun _ => {vc a with gang := true})
def lb : Nat := 0xFFFFFFFFFFC00000
def ol (c off : Nat) : State := ((base.modC fun c => {c with
  sys := true}).gw 1 (BitVec.ofNat 64 (lb + 524288 * c + off - 8))).gw 2 8
def ro (s : State) : State := (s.modCore 0 0 fun k => {k with
  tlb := [⟨0, 0x200000, 0x200000, 0x2000EB#64, true⟩]}).gw 1 0x200080

/-- States and operands that meet the hypotheses of `Obligations.IntegerArithmeticResults`, clause by clause. -/
theorem witness_IntegerArithmeticResults :
    ((
        let w : W32 := (0x01084600#32);
        (fld w 24 6 = 0x01) ∧ (fld w 0 9 = 0)) ∧ (
        let w : W32 := (0x01084201#32);
        (fld w 24 6 = 0x01) ∧ (fld w 0 9 = 1)) ∧ (
        let w : W32 := (0x01084202#32);
        (fld w 24 6 = 0x01) ∧ (fld w 0 9 = 2)) ∧ (
        let w : W32 := (0x01084003#32);
        (fld w 24 6 = 0x01) ∧ (fld w 0 9 = 3)) ∧ (
        let w : W32 := (0x01084004#32);
        (fld w 24 6 = 0x01) ∧ (fld w 0 9 = 4)) ∧ (
        let w : W32 := (0x01084005#32);
        (fld w 24 6 = 0x01) ∧ (fld w 0 9 = 5)) ∧ (
        let w : W32 := (0x01084007#32);
        (fld w 24 6 = 0x01) ∧ (fld w 0 9 = 7)) ∧ (
        let w : W32 := (0x01084006#32);
        (fld w 24 6 = 0x01) ∧ (fld w 0 9 = 6))) := by
  decide +kernel

/-- States and operands that meet the hypotheses of `Obligations.CoordinateInstructionResults` (its part on names),
clause by clause. -/
theorem witness_CoordinateInstructionResults_CoordinateResults :
    (let s : State := c1 0xF0;
      let a : BitVec 5 := 1;
      let b : BitVec 5 := 2;
      let n := s.g a;
      let m := s.g b;
      let e := s.rect s.cur.site (bits n 6 4);
      let row := (bits n 10 4 : Int) + (BitVec.ofNat 8 m.toNat).toInt;
      let col := (bits n 14 4 : Int) + (BitVec.ofNat 8 (m.toNat / 256)).toInt;
      let core := 16 * (bits e 0 4 + bits n 10 4) + bits e 4 4 + bits n 14 4;
      ((MayTrap s) ∧ (ValidName s n) ∧ (¬ (0 ≤ row ∧ row ≤ bits e 8 4 ∧ 0 ≤ col ∧ col ≤
        bits e 12 4))) ∧ ((ValidName s n)) ∧ ((MayTrap s) ∧ (ValidName s n) ∧ ((¬ ValidName s m ∨
        bits m 6 4 ≠ bits n 6 4))) ∧ ((ValidName s n) ∧ (core / 64 = s.cur.core / 64))) ∧
    (let s : State := c1 0x0FD;
      let a : BitVec 5 := 1;
      let b : BitVec 5 := 2;
      let n := s.g a;
      let m := s.g b;
      let e := s.rect s.cur.site (bits n 6 4);
      let row := (bits n 10 4 : Int) + (BitVec.ofNat 8 m.toNat).toInt;
      let col := (bits n 14 4 : Int) + (BitVec.ofNat 8 (m.toNat / 256)).toInt;
      (ValidName s n) ∧ (0 ≤ row ∧ row ≤ bits e 8 4 ∧ 0 ≤ col ∧ col ≤ bits e 12 4)) ∧
    (let s : State := c1 (nm 0 15);
      let a : BitVec 5 := 1;
      let b : BitVec 5 := 2;
      let n := s.g a;
      let m := s.g b;
      (ValidName s n) ∧ (ValidName s m) ∧ (bits m 6 4 = bits n 6 4)) ∧
    (let s : State := base.gw 1 7;
      let a : BitVec 5 := 1;
      let n := s.g a;
      (MayTrap s) ∧ (¬ ValidName s n)) ∧
    (let s : State := base.gw 1 (nm 15 0);
      let a : BitVec 5 := 1;
      let n := s.g a;
      let e := s.rect s.cur.site (bits n 6 4);
      let core := 16 * (bits e 0 4 + bits n 10 4) + bits e 4 4 + bits n 14 4;
      (MayTrap s) ∧ (ValidName s n) ∧ (core / 64 ≠ s.cur.core / 64)) := by
  refine ⟨?_, ?_, ?_, ?_, ?_⟩ <;>
    (first | decide +kernel | (dsimp only [MayTrap, NoneParked, ValidName]; decide +kernel))

/-- States and operands that meet the hypotheses of `Obligations.CoordinateInstructionResults` (its part on
differences), clause by clause. -/
theorem witness_CoordinateInstructionResults_StepByDifferenceReturnsTheName :
    (let s : State := (base.gw 1 (nm 15 0)).gw 2 (nm 0 15);
      let d : BitVec 5 := 3;
      let a : BitVec 5 := 1;
      let b : BitVec 5 := 2;
      (d ≠ 0) ∧ (d ≠ a) ∧ (ValidName s (s.g a)) ∧ (ValidName s (s.g b)) ∧
        (bits (s.g b) 6 4 = bits (s.g a) 6 4)) := by
  first | decide +kernel | (dsimp only [ValidName]; decide +kernel)

/-- States and operands that meet the hypotheses of `Obligations.ControlTransferAndLoopResults` (its part on branches),
clause by clause. -/
theorem witness_ControlTransferAndLoopResults_TransferResults :
    (let s : State := tr id 0x200080;
      let p : BitVec 3 := 0;
      let n : Bool := false;
      let a : BitVec 5 := 1;
      let ga := s.ctl.rg a;
      ((bits s.c.pc 0 3 = 0) ∧ ((s.ctl.rp p != n) = true)) ∧
        ((bits s.c.pc 0 3 = 0) ∧ (bits ga 0 3 = 0)) ∧ ((bits s.c.pc 0 3 = 0) ∧
        (bits s.ctl.lr 0 3 = 0))) ∧
    (let s : State := tr (fun c => {c with lr := 0x33}) 0x200081;
      let p : BitVec 3 := 0;
      let n : Bool := true;
      let a : BitVec 5 := 1;
      let ga := s.ctl.rg a;
      ((bits s.c.pc 0 3 = 0) ∧ ((s.ctl.rp p != n) = false)) ∧
        ((bits s.c.pc 0 3 = 0) ∧ (bits ga 0 3 ≠ 0) ∧ (MayTrap s)) ∧
        ((bits s.c.pc 0 3 = 0) ∧ (bits s.ctl.lr 0 3 ≠ 0) ∧ (MayTrap s))) := by
  refine ⟨?_, ?_⟩ <;>
    (first | decide +kernel | (dsimp only [MayTrap, NoneParked]; decide +kernel))

/-- States and operands that meet the hypotheses of `Obligations.ControlTransferAndLoopResults` (its part on control
register moves), clause by clause. -/
theorem witness_ControlTransferAndLoopResults_ControlRegisterMoves :
    (let s : State := tr id 0x200080;
      let a : BitVec 5 := 1;
      let ga := s.g a;
      (bits ga 0 3 = 0)) ∧
    (let s : State := tr id 0x200084;
      let a : BitVec 5 := 1;
      let ga := s.g a;
      (bits ga 0 3 ≠ 0) ∧ (MayTrap s)) := by
  refine ⟨?_, ?_⟩ <;>
    (first | decide +kernel | (dsimp only [MayTrap, NoneParked]; decide +kernel))

/-- States and operands that meet the hypotheses of `Obligations.ControlTransferAndLoopResults` (its part on loops),
clause by clause. -/
theorem witness_ControlTransferAndLoopResults_LoopSetup :
    (let s : State := tr id 7;
      let l : BitVec 2 := 3;
      let a : BitVec 5 := 1;
      let i : BitVec 14 := 5;
      let e := BitVec.ofNat 64 (s.c.pc.toNat + 8 * i.toNat);
      let n := BitVec.ofNat 32 (s.ctl.rg a).toNat;
      let lc := fun j => s.ctl.lc.toList.getD j 0;
      let le := fun j => s.ctl.le.toList.getD j 0;
      let nests := ∀ j, j < 4 → lc j ≠ 0 → j ≤ l.toNat ∧ (j < l.toNat → e.toNat < (le j).toNat);
      (nests) ∧ (n ≠ 0)) ∧
    (let s : State := tr id 0;
      let l : BitVec 2 := 3;
      let a : BitVec 5 := 1;
      let i : BitVec 14 := 5;
      let e := BitVec.ofNat 64 (s.c.pc.toNat + 8 * i.toNat);
      let n := BitVec.ofNat 32 (s.ctl.rg a).toNat;
      let lc := fun j => s.ctl.lc.toList.getD j 0;
      let le := fun j => s.ctl.le.toList.getD j 0;
      let nests := ∀ j, j < 4 → lc j ≠ 0 → j ≤ l.toNat ∧ (j < l.toNat → e.toNat < (le j).toNat);
      (nests) ∧ (n = 0)) ∧
    (let s : State := tr (fun c => {c with lc := c.lc.set 2 4, le := c.le.set 2 0x200128}) 9;
      let l : BitVec 2 := 3;
      let i : BitVec 14 := 5;
      let e := BitVec.ofNat 64 (s.c.pc.toNat + 8 * i.toNat);
      let lc := fun j => s.ctl.lc.toList.getD j 0;
      let le := fun j => s.ctl.le.toList.getD j 0;
      let nests := ∀ j, j < 4 → lc j ≠ 0 → j ≤ l.toNat ∧ (j < l.toNat → e.toNat < (le j).toNat);
      (¬ nests) ∧ (MayTrap s) ∧ (s.issue.dict = none)) := by
  refine ⟨?_, ?_, ?_⟩ <;>
    (first | decide +kernel | (dsimp only [MayTrap, NoneParked]; decide +kernel))

/-- States and operands that meet the hypotheses of `Obligations.VectorIntegerResults`, clause by clause. -/
theorem witness_VectorIntegerResults :
    VectorOk (vs 1) 0 ∧ VectorOk (vg 1 1) 2 := by
  dsimp only [VectorOk]; decide +kernel

/-- States and operands that meet the hypotheses of `Obligations.LanePatterns`, clause by clause. -/
theorem witness_LanePatterns :
    (let s : State := vs 1;
      let i : Nat := 31;
      (i < s.c.vl)) := by
  decide +kernel

/-- States and operands that meet the hypotheses of `Obligations.VectorFloatingResults`, clause by clause. -/
theorem witness_VectorFloatingResults :
    (let s : State := vs 1;
      let g : BitVec 2 := 0;
      (VectorOk s g)) := by
  first | decide +kernel | (dsimp only [VectorOk]; decide +kernel)

/-- States and operands that meet the hypotheses of `Obligations.VectorMoveAndMaskResults`, clause by clause. -/
theorem witness_VectorMoveAndMaskResults :
    (let s : State := (vs 1).gw 2 0x1F00000005;
      let a : BitVec 4 := 2;
      let g : BitVec 2 := 0;
      let h : BitVec 1 := 0;
      let gs := s.g (h ++ a);
      let e := bits gs 32 8;
      ((VectorOk s g)) ∧ ((VectorOk s 0)) ∧ ((VectorOk s 0) ∧ (e < s.c.vl))) ∧
    (let s : State := (vs 1).gw 2 0x2000000005;
      let a : BitVec 4 := 2;
      let h : BitVec 1 := 0;
      let gs := s.g (h ++ a);
      let e := bits gs 32 8;
      (VectorOk s 0) ∧ (s.c.vl ≤ e) ∧ (MayTrap s)) := by
  refine ⟨?_, ?_⟩ <;>
    (first | decide +kernel | (dsimp only [MayTrap, NoneParked, VectorOk]; decide +kernel))

/-- States and operands that meet the hypotheses of `Obligations.VectorConversionResults`, clause by clause. -/
theorem witness_VectorConversionResults :
    (let s : State := vs 1;
      (VectorOk s 0)) := by
  first | decide +kernel | (dsimp only [VectorOk]; decide +kernel)

/-- States and operands that meet the hypotheses of `Obligations.VectorReductionResults`, clause by clause. -/
theorem witness_VectorReductionResults :
    (let s : State := vs 1;
      (VectorOk s 0)) := by
  first | decide +kernel | (dsimp only [VectorOk]; decide +kernel)

/-- States and operands that meet the hypotheses of `Obligations.VectorChecksTrap`, clause by clause. -/
theorem witness_VectorChecksTrap :
    (let s : State := vs 1;
      let i : Instr := .vadd 1 2 3 .none 2 0;
      let g : BitVec 2 := 2;
      (vectorOffset i = some g) ∧ (MayTrap s) ∧ (s.issue.dict = none) ∧ (g ≠ 0) ∧
        (s.c.gang = false)) ∧
    (let s : State := base;
      let i : Instr := .mall 1;
      let g : BitVec 2 := 0;
      (vectorOffset i = some g) ∧ (MayTrap s) ∧ (s.issue.dict = none) ∧
        ((g = 0 ∨ s.c.gang = true)) ∧ (s.c.claim = 0)) ∧
    (let s : State := vg 1 2;
      let i : Instr := .vadd 1 2 3 .none 2 0;
      let g : BitVec 2 := 2;
      (vectorOffset i = some g) ∧ (MayTrap s) ∧ (s.issue.dict = none) ∧ (g ≠ 0) ∧
        (s.c.gang = true) ∧ ((s.member ((qpos s.cur + g.toNat) % 4)).claim ≠ s.c.claim)) := by
  refine ⟨?_, ?_, ?_⟩ <;>
    (first | decide +kernel | (dsimp only [MayTrap, NoneParked]; decide +kernel))

/-- States and operands that meet the hypotheses of `Obligations.LocalLoadResults`, clause by clause. -/
theorem witness_LocalLoadResults :
    (let s : State := ol 0 0x7FFF8;
      let a : BitVec 5 := 1;
      let b : BitVec 5 := 2;
      let m : LdMode := .d;
      let o : BitVec 11 := 1;
      let off : Nat := 0x7FFF8;
      let n := loadedBytes m;
      ((OwnLocal s (offAddr s a o n) off n 0 false)) ∧ ((OwnLocal s (s.g a + s.g b) off n 0 false))) ∧
    (let s : State := ol 5 0x7FFFF;
      let a : BitVec 5 := 1;
      let o : BitVec 11 := 8;
      let off : Nat := 0x7FFFF;
      let c : Nat := 5;
      (OwnLocal s (offAddr s a o 1) off 1 c false) ∧ ((c = 1 ∨ c = 2 ∨ c = 5)) ∧
        (bit (s.c.wscale.toList.getD (c - 1) 0) 0 = false)) ∧
    (let s : State := ol 3 0x16000;
      let a : BitVec 5 := 1;
      let o : BitVec 11 := 4;
      let off : Nat := 0x16000;
      let c : Nat := 3;
      (OwnLocal s (offAddr s a o 2) off 2 c false) ∧ ((c = 3 ∨ c = 4)) ∧
        (bit (s.c.wscale.toList.getD (c - 1) 0) 0 = false)) := by
  refine ⟨?_, ?_, ?_⟩ <;>
    (first | decide +kernel | (dsimp only [OwnLocal, State.Inv]; decide +kernel))

/-- States and operands that meet the hypotheses of `Obligations.LocalStoreResults`, clause by clause. -/
theorem witness_LocalStoreResults :
    (let s : State := ol 0 0x7FFF8;
      let a : BitVec 5 := 1;
      let b : BitVec 5 := 2;
      let z : StSize := .d;
      let o : BitVec 11 := 1;
      let off : Nat := 0x7FFF8;
      let n := storedBytes z;
      ((OwnLocal s (offAddr s a o n) off n 0 true)) ∧ ((OwnLocal s (s.g a + s.g b) off n 0 true))) ∧
    (let s : State := ol 1 0x7FFFF;
      let a : BitVec 5 := 1;
      let o : BitVec 11 := 8;
      let off : Nat := 0x7FFFF;
      let c : Nat := 1;
      let desc := s.c.wscale.toList.getD (c - 1) 0;
      (OwnLocal s (offAddr s a o 1) off 1 c true) ∧ ((c = 1 ∨ c = 2 ∨ c = 5)) ∧
        (bit desc 0 = false) ∧ (bits desc 1 3 ≤ 4)) ∧
    (let s : State := ol 4 0x7FFFE;
      let a : BitVec 5 := 1;
      let o : BitVec 11 := 4;
      let off : Nat := 0x7FFFE;
      let c : Nat := 4;
      let desc := s.c.wscale.toList.getD (c - 1) 0;
      (OwnLocal s (offAddr s a o 2) off 2 c true) ∧ ((c = 3 ∨ c = 4)) ∧ (bit desc 0 = false) ∧
        (bits desc 1 3 ≤ 4)) := by
  refine ⟨?_, ?_, ?_⟩ <;>
    (first | decide +kernel | (dsimp only [OwnLocal, State.Inv]; decide +kernel))

/-- States and operands that meet the hypotheses of `Obligations.PlainAccessAddressCauses`, clause by clause. -/
theorem witness_PlainAccessAddressCauses :
    let top := fun va : W64 => va.toNat / 2 ^ 55;
    let bad := fun (va : W64) n code => (top va ≠ 0 ∧ top va ≠ 511 ∧ code = 0x09) ∨
      (top va = 0 ∧ va.toNat % n ≠ 0 ∧ code = 0x0B);
    (let s := (base.gw 1 0x0080000000000000).gw 2 0;
      MayTrap s ∧ bad (offAddr s 1 0 (loadedBytes .d)) (loadedBytes .d) 0x09 ∧
        bad (s.g 1 + s.g 2) (loadedBytes .d) 0x09 ∧ bad (offAddr s 1 0 (storedBytes .d)) (storedBytes .d) 0x09 ∧
        bad (s.g 1 + s.g 2) (storedBytes .d) 0x09) ∧
    (let s := (base.gw 1 0x007FFFFFFFFFFFFF).gw 2 0;
      MayTrap s ∧ bad (offAddr s 1 0 (loadedBytes .d)) (loadedBytes .d) 0x0B ∧
        bad (s.g 1 + s.g 2) (loadedBytes .h) 0x0B ∧ bad (offAddr s 1 0 (storedBytes .d)) (storedBytes .d) 0x0B ∧
        bad (s.g 1 + s.g 2) (storedBytes .w) 0x0B) := by
  dsimp only [MayTrap, NoneParked]; decide +kernel

/-- States and operands that meet the hypotheses of `Obligations.GlobalStoreResults` (its part on stores refused for
now), clause by clause. -/
theorem witness_GlobalStoreResults_RefusedStoreParks :
    (let s : State := ro base;
      let a : BitVec 5 := 1;
      let z : StSize := .d;
      let o : BitVec 11 := 0;
      let code : Nat := 9;
      let n := storedBytes z;
      let va := offAddr s a o n;
      (s.check s.cur (Access.plain n true) va = .refused code) ∧ (s.c.walkFault = none) ∧
        (s.c.st ≠ .waiting) ∧ (s.c.ocs ≠ 255) ∧ ((s.core s.cur.site s.cur.core).rq.length < 16) ∧
        (s.pageParked s.cur va = false) ∧ (s.pageWalking s.cur va = false)) := by
  decide +kernel

/-- States and operands that meet the hypotheses of `Obligations.LocalAtomicResults`, clause by clause. -/
theorem witness_LocalAtomicResults :
    (let s : State := ol 0 0x10008;
      let a : BitVec 5 := 1;
      let r : AmoOrd := .rel .die;
      let z : Bool := true;
      let off : Nat := 0x10000;
      let n := if z then 8 else 4;
      ((OwnLocal s (s.g a) off n 0 true) ∧ (ReleaseReady s (s.g a) r)) ∧
        ((OwnLocal s (s.g a) off n 0 true))) := by
  first | decide +kernel | (dsimp only [OwnLocal, ReleaseReady, State.Inv]; decide +kernel)

/-- A word for each of the twelve clauses about words of `Obligations.MultiplyAndDivideResults`. -/
theorem witness_MultiplyAndDivideResults :
    (∀ k : BitVec 2, fld (0x04084600#32 ||| (k.setWidth 32)) 24 6 = 0x04 ∧
      fld (0x04084600#32 ||| (k.setWidth 32)) 0 9 = k.setWidth 9) ∧
    (∀ k : BitVec 3, fld (0x05084200#32 ||| (k.setWidth 32)) 24 6 = 0x05 ∧
      fld (0x05084200#32 ||| (k.setWidth 32)) 0 9 = k.setWidth 9) := by
  decide +kernel

/-- The counts of `Obligations.SelectFieldAndImmediateResults` at both ends: 64 for the value 0, 0 for all ones. -/
theorem witness_SelectFieldAndImmediateResults :
    (let s : State := base;
      let x := s.g 0;
      (64 ≤ 64) ∧ (∀ j, 64 - 64 ≤ j → x.getLsbD j = false) ∧ (64 < 64 → x.getLsbD (63 - 64) = true) ∧
        (∀ j, j < 64 → x.getLsbD j = false) ∧ (64 < 64 → x.getLsbD 64 = true)) ∧
    (let s : State := base.gw 1 (-1);
      let x := s.g 1;
      (0 ≤ 64) ∧ (∀ j, 64 - 0 ≤ j → x.getLsbD j = false) ∧ (0 < 64 → x.getLsbD (63 - 0) = true) ∧
        (∀ j, j < 0 → x.getLsbD j = false) ∧ (0 < 64 → x.getLsbD 0 = true)) := by
  have h : base.g 0 = 0 := by decide +kernel
  refine ⟨⟨by decide, fun j _ => ?_, by decide, fun j _ => ?_, by decide⟩,
    ⟨by decide, fun j l => BitVec.getLsbD_of_ge _ j l, fun _ => by decide +kernel, by decide,
      fun _ => by decide +kernel⟩⟩ <;> rw [h] <;> simp

/-- Operands that meet the hypotheses of `Obligations.ExactSumProductQuotient`: 3/1 and 1/2. -/
theorem witness_ExactSumProductQuotient : 0 < 1 ∧ 0 < 2 ∧ (1 : Nat) ≠ 0 := by decide

/-- A format and a value that meet the hypotheses of `Obligations.RoundNearestIsNearest` and of
`Obligations.DirectedRoundingTakesItsSide`: in E4M3 the largest number is 448, and 17/16 is below it. -/
theorem witness_RoundNearestIsNearest : Fmt.e4m3 ∈ formats ∧ 0 < 1 ∧
    Fmt.e4m3.HasVal Fmt.e4m3.maxCode 448 ∧ |Fp.val false 17 1 (-4)| ≤ (448 : ℚ) := by
  refine ⟨by simp [formats], by decide, ⟨false, 14, 1, 5, by decide +kernel, ?_⟩, ?_⟩ <;>
    norm_num [Fp.val, zpow_neg]

/-- The same for the directed modes, at the largest number of the format itself. -/
theorem witness_DirectedRoundingTakesItsSide : Fmt.e4m3 ∈ formats ∧ 0 < 1 ∧
    Fmt.e4m3.HasVal Fmt.e4m3.maxCode 448 ∧ |Fp.val true 448 1 0| ≤ (448 : ℚ) := by
  refine ⟨by simp [formats], by decide, ⟨false, 14, 1, 5, by decide +kernel, ?_⟩, ?_⟩ <;>
    norm_num [Fp.val]

/-- Codes that meet the hypotheses of `Obligations.WideningKeepsTheNumber`: 1.0 in E4M3 and in FP32. -/
theorem witness_WideningKeepsTheNumber : Fmt.e4m3.HasVal 0x38 1 ∧ Fmt.fp32.HasVal 0x3F800000 1 := by
  refine ⟨⟨false, 8, 1, -3, by decide +kernel, ?_⟩, ⟨false, 2 ^ 23, 1, -23, by decide +kernel, ?_⟩⟩ <;>
    norm_num [Fp.val, zpow_neg]

def gl : State := base.gw 1 0x200080
/-- A state without containment groups is in no logged interval. -/
theorem unlogged_of_no_groups (s : State) (h : s.groups = []) : s.Unlogged := fun g => by
  rw [h]; simp [Table.get]

def line : CLine := ⟨0x4001, List.replicate 128 7⟩
def acc : Access := ⟨1, 1, false, false, true, false, false, false, false, false⟩

/-- States and operands that meet the hypotheses of `Obligations.GlobalLoadAndPrefetchResults` and of the first part of
`Obligations.GlobalStoreResults`, clause by clause. -/
theorem witness_GlobalLoadAndPrefetchResults :
    (GlobalOk gl (Access.plain 8 false) (offAddr gl 1 0 8) 0x200080 0x2000EF#64 ∧
      gl.l1Find gl.cur.site gl.cur.core (gl.lineOf 0x200080) = none ∧
      gl.homeOf 0x200080 0x2000EF#64 = gl.cur.site ∧ gl.c.ocl ≠ 255) ∧
    (let s := gl.modCore 0 0 fun k => { k with l1 := [line] };
      GlobalOk s (Access.plain 8 false) (offAddr s 1 0 8) 0x200080 0x2000EF#64 ∧
        s.l1Find s.cur.site s.cur.core (s.lineOf 0x200080) = some line) ∧
    (let s := base.gw 1 0x800000;
      ∀ pa leaf n, s.check s.cur acc (offAddr s 1 0 128) ≠ .ok (.mem pa leaf n)) ∧
    (let s := gl;
      GlobalOk s acc (offAddr s 1 0 128) 0x200080 0x2000EF#64 ∧ leafFmt 0x2000EF#64 = 0 ∧
        s.poison.contains (s.lineOf 0x200080) = false ∧
        s.near s.cur 0x200080 0x2000EF#64 0 128 = .far) := by
  refine ⟨⟨⟨⟨0x200000, ?_⟩, ?_, ?_, ?_, ?_, ?_, ?_⟩, ?_, ?_, ?_⟩,
    ⟨⟨⟨0x200000, ?_⟩, ?_, ?_, ?_, ?_, ?_, ?_⟩, ?_⟩, ?_,
    ⟨⟨⟨0x200000, ?_⟩, ?_, ?_, ?_, ?_, ?_, ?_⟩, ?_, ?_, ?_⟩⟩ <;> try ((try dsimp only [Warm]); decide +kernel)
  intro s pa leaf n h
  have e : s.check s.cur acc (offAddr s 1 0 128) = .miss := by decide +kernel
  rw [e] at h; exact nomatch h

/-- A state and operands that meet the hypotheses of the first part of `Obligations.GlobalStoreResults`. -/
theorem witness_GlobalStoreResults_GlobalStoreLeavesAsRequest :
    GlobalOk gl (Access.plain 8 true) (offAddr gl 1 0 8) 0x200080 0x2000EF#64 ∧
      gl.homeOf 0x200080 0x2000EF#64 = gl.cur.site ∧ gl.c.ocs ≠ 255 := by
  refine ⟨⟨⟨0x200000, ?_⟩, ?_, ?_, ?_, ?_, ?_, ?_⟩, ?_, ?_⟩ <;> ((try dsimp only [Warm]); decide +kernel)

def vl : State := ((base.modC fun _ => { vc 1 with
  sys := true, v := (vc 1).v.set 2 ((List.range 32).map fun i => BitVec.ofNat 32 (12 * i)) }).gw 1
    (BitVec.ofNat 64 (lb + 0x100))).gw 2 8

/-- A state and operands that meet the hypotheses of `Obligations.VectorLoadAndStoreResults`: 32 lanes of which each
other one is active, at unit stride, at a stride of 8, at one address, and at 12 bytes per lane. -/
theorem witness_VectorLoadAndStoreResults :
    let b := offAddr vl 1 0 4;
    (∀ w, LocalLanes vl 1 (vl.g 1) (fun j => b + BitVec.ofNat 64 (4 * j)) (fun j => 0x100 + 4 * j) w) ∧
    (∀ w, LocalLanes vl 1 (vl.g 1) (fun j => b + BitVec.ofNat 64 (j * (vl.g (1 + 1)).toNat))
      (fun j => 0x100 + 8 * j) w) ∧
    LocalLanes vl 1 (vl.g 1) (fun _ => b) (fun _ => 0x100) false ∧
    (∀ w, LocalLanes vl 1 (vl.g 1) (fun j => vl.g 1 + BitVec.ofNat 64 (lane (vl.c.rv 2) j).toNat)
      (fun j => 0x100 + 12 * j) w) ∧
    (∀ i j, i ≠ j → 0x100 + 4 * i + 4 ≤ 0x100 + 4 * j ∨ 0x100 + 4 * j + 4 ≤ 0x100 + 4 * i) := by
  refine ⟨fun w => ?_, fun w => ?_, ?_, fun w => ?_, fun i j h => by omega⟩ <;> (try cases w) <;>
    refine ⟨?_, ?_, ⟨2, ?_⟩, ?_⟩ <;> ((try dsimp only [LocalLanes, VectorOk, OwnLocal, State.Inv]); decide +kernel)

/-- A well-formed instruction of each side, for `Obligations.DecodeAndEncodeAgree`, and words that decode. -/
theorem witness_DecodeAndEncodeAgree :
    ((Instr.ld 5 2 .w 2).wf = true ∧ (Instr.ld 5 2 .w 2).side = .wordA) ∧
    ((Instr.add 1 1 3).wf = true ∧ (Instr.add 1 1 3).side = .wordB) ∧
    decodeA 0x41289002 = .ok (.ld 5 2 .w 2) ∧ decodeB 0x01084600 = .ok (.add 1 1 3) := by
  decide +kernel

/-- A state whose memory lists bytes, for `Obligations.StepKeepsMemoryForm`, and the step from it. -/
theorem witness_StepKeepsMemoryForm :
    (base.setBytes 0x1000 [1, 2]).Inv ∧ ∃ t, step (base.setBytes 0x1000 [1, 2]) = .next t := by
  refine ⟨by dsimp only [State.Inv]; decide +kernel, ?_⟩
  unfold step; exact ⟨_, rfl⟩

end Instructions

namespace Packets

def a1 : State := (base.gw 1 0x400080).gw 3 77
def a2 : State := a1.modC fun c => {c with ocs := 255}
def ub : RdcLine := ⟨5, 0, List.replicate 128 1, List.replicate 128 true, List.replicate 128 false,
  none⟩
def bd : RdcLine := ⟨6, 0, List.replicate 128 1, List.replicate 128 true, List.replicate 128 false,
  some 1⟩
def a3 : State := base.modDie 0 fun d => {d with rdc := [ub, bd]}
def sl : List XSlot := (List.range 8).map fun i => ⟨i, BitVec.ofNat 16 i, []⟩
def a4 : State := (base.gw 2 (3 + 32*3)).modC fun c => {c with xslots := sl, xseq := 9}
def a5 : State := (base.gw 2 (3 + 32*3)).modC fun c => {c with xslots := (sl.take 3), xseq := 9}

def a6 : State := { a1 with reqs := [⟨7, base.cur, 0, 0x400080, 0x400080, a1.homeOf 0x400080 0x800000004000EF, .store [(0, 1)] 0,
  .sent, 0, 0, [], 0, 0, false, false, false, false, 7, 0, none, [], false⟩], nextId := 8 }

/-- States and operands that meet the hypotheses of `Obligations.PushAndPopSendPackets`, clause by clause. -/
theorem witness_PushAndPopSendPackets :
    (let s : State := a1;
      let a : BitVec 5 := 1;
      let pa : Nat := 0x400080;
      let page : Nat := 0x200000;
      let leaf : W64 := 0x800000004000EF#64;
      AddressOk s Access.exchange (s.g a) pa leaf page ∧ s.peerWin pa = none ∧
        s.exchBusy s.cur (s.lineOf pa) = false ∧ s.injFull s.cur (s.homeOf pa leaf) = false ∧
        s.drained s.cur = true ∧ s.c.ocs ≠ 255 ∧ s.rdcFind s.cur.site (s.lineOf pa) = none) ∧
    (let s : State := a2;
      let a : BitVec 5 := 1;
      let pa : Nat := 0x400080;
      let page : Nat := 0x200000;
      let leaf : W64 := 0x800000004000EF#64;
      AddressOk s Access.exchange (s.g a) pa leaf page ∧ s.peerWin pa = none ∧
        s.exchBusy s.cur (s.lineOf pa) = false ∧ s.injFull s.cur (s.homeOf pa leaf) = false ∧
        (s.drained s.cur = false ∨ s.c.ocs = 255)) ∧
    (let s : State := a6;
      let a : BitVec 5 := 1;
      let pa : Nat := 0x400080;
      let page : Nat := 0x200000;
      let leaf : W64 := 0x800000004000EF#64;
      AddressOk s Access.exchange (s.g a) pa leaf page ∧ s.peerWin pa = none ∧ s.exchBusy s.cur (s.lineOf pa) = true) := by
  refine ⟨?_, ?_, ?_⟩ <;>
    (first | decide +kernel | (dsimp only [AddressOk, Warm]; decide +kernel))

/-- States and operands that meet the hypotheses of `Obligations.FenceInstructionResults` (its part on fences), clause
by clause. -/
theorem witness_FenceInstructionResults_FenceResults :
    (let s : State := a3;
      let e : Scope := .system;
      (s.drained s.cur = true) ∧ ((e = .module ∨ e = .system))) ∧
    (let s : State := a3;
      let e : Scope := .die;
      (s.drained s.cur = true) ∧ ((e = .core ∨ e = .cluster ∨ e = .die))) ∧
    (let s : State := a2;
      (s.drained s.cur = false)) := by
  refine ⟨?_, ?_, ?_⟩ <;>
    decide +kernel

/-- States and operands that meet the hypotheses of `Obligations.FenceInstructionResults` (its part on split fences),
clause by clause. -/
theorem witness_FenceInstructionResults_SplitFenceResults :
    (let s : State := a4;
      let a : BitVec 5 := 2;
      let free := fun i => i < 8 ∧ ∀ x ∈ s.c.xslots, x.slot ≠ i;
      let v := s.g a;
      (let x := (⟨0,0,[]⟩ : XSlot);
        let l := (sl.drop 1);
        ((¬ ∃ i, free i)) ∧ (s.c.xslots = x :: l) ∧ (s.capsDone s.cur x = true)) ∧
          ((bits v 21 43 = 0) ∧ (bits v 3 2 = s.cur.ctx) ∧
        let x := (⟨3,3,[]⟩ : XSlot);
        (s.c.xslots.find? (fun y => y.slot = bits v 0 3 ∧ y.seq.toNat = bits v 5 16) = some x) ∧
          (s.capsDone s.cur x = true))) ∧
    (let s : State := a5;
      let a : BitVec 5 := 2;
      let free := fun i => i < 8 ∧ ∀ x ∈ s.c.xslots, x.slot ≠ i;
      let v := s.g a;
      let named := fun x : XSlot => x.slot = bits v 0 3 ∧ x.seq.toNat = bits v 5 16;
      (((∃ i, free i))) ∧ ((bits v 21 43 = 0) ∧ (bits v 3 2 = s.cur.ctx) ∧
        ((∀ x ∈ s.c.xslots, ¬ named x)))) ∧
    (let s : State := a5.gw 2 8;
      let a : BitVec 5 := 2;
      let v := s.g a;
      ((bits v 21 43 ≠ 0 ∨ bits v 3 2 ≠ s.cur.ctx)) ∧ (MayTrap s) ∧ (s.issue.dict = none)) := by
  refine ⟨?_, ?_, ?_⟩ <;>
    (first | decide +kernel | (dsimp only [MayTrap, NoneParked]; decide +kernel))

end Packets

namespace Binding

def lf : W64 := 0x2000EF#64
def rq0 : Req := ⟨7, base.cur, 0, 0x200080, 0x200080, 0, .store [(0,1)] 0, .sent, 0, 0, [], 0, 0,
  false, false, false, false, 7, 0, none, [], false⟩
def sl : List XSlot := (List.range 8).map fun i => ⟨i, BitVec.ofNat 16 i, [7]⟩
def a4 : State := (base.gw 2 (3 + 32*3)).modC fun c => {c with xslots := sl, xseq := 9, ocs := 1}
def a5 : State := {a4 with reqs := [rq0], nextId := 8}
def b0 : State := (base.gw 1 0x200080).setDword 16 0x300000
def L0 : State := b0.gw 4 0x280000 |>.gw 5 0
def L1 : State := b0.gw 4 0x280000 |>.gw 5 256

/-- States and operands that meet the hypotheses of `Obligations.FenceInstructionResults` (its part on split fences),
clause by clause. -/
theorem witness_FenceInstructionResults_SplitFenceResults :
    (let s : State := a5;
      let a : BitVec 5 := 2;
      let free := fun i => i < 8 ∧ ∀ x ∈ s.c.xslots, x.slot ≠ i;
      let v := s.g a;
      ((bits v 21 43 = 0) ∧ (bits v 3 2 = s.cur.ctx) ∧
        let x := (⟨3,3,[7]⟩ : XSlot);
        (s.c.xslots.find? (fun y => y.slot = bits v 0 3 ∧ y.seq.toNat = bits v 5 16) = some x) ∧
          (s.capsDone s.cur x = false)) ∧ (
        let x := (⟨0,0,[7]⟩ : XSlot);
        let l := (sl.drop 1);
        ((¬ ∃ i, free i)) ∧ (s.c.xslots = x :: l) ∧ (s.capsDone s.cur x = false))) := by
  decide +kernel

/-- The eight probed entries of the object at 0x200080 (line 0x4001, entry 1 of 64 first), each valid, the first naming
line `o`. -/
def full (o : Nat) : State := ((List.range 8).foldl (fun s i =>
  s.setDword (0x300000 + 32 * (1 + i)) (BitVec.ofNat 64 (1 + 128 * (if i = 0 then o else 7)))) L1)

/-- States and operands that meet the hypotheses of `Obligations.BindAcquireReleaseResults`, clause by clause: the answers of
`bind` 4, 1, 0 and 3, then 2 and 0 of an object that the table holds; `acq` and `rel`. -/
theorem witness_BindAcquireReleaseResults :
    let tbl := 0x300000
    let n := 64
    let pa := 0x200080
    let asid := fun s : State => s.lineOf (s.asidPa s.c.asid.toNat)
    let binds := fun s : State => AddressOk s (Access.object false) (s.g 1) pa lf 0x200000 ∧
      s.bindTable s.c.asid = some (tbl, n) ∧
      s.Ready (asid s :: (probeAddrs tbl n (vline (s.g 1))).map s.lineOf) ∧
      (s.bindFills (s.g 1) (s.g 4) (s.g 5) tbl n = true →
        ∃ u ∈ s.victimSlot s.cur.site, ∀ l ∈ (s.die s.cur.site).rdc, l.tag ≠ some u)
    let held := fun s : State => s.probe tbl n (vline (s.g 1))
    let room := fun s : State => (probeAddrs tbl n (vline (s.g 1))).find? fun x => !bit (s.dword x) 0
    let good := fun s : State => bindArgsBad (s.g 1) (s.g 4) (s.g 5) = false
    (binds L0 ∧ L0.g 5 = 0 ∧ held L0 = none) ∧
    (let s := full 5; binds s ∧ s.g 5 ≠ 0 ∧ good s ∧ held s = none ∧ room s = none) ∧
    (binds L1 ∧ L1.g 5 ≠ 0 ∧ good L1 ∧ held L1 = none ∧ room L1 ≠ none ∧ L1.bindFills (L1.g 1) (L1.g 4) (L1.g 5) tbl n = true) ∧
    (let s := L1.gw 4 0x280001; binds s ∧ s.g 5 ≠ 0 ∧ ¬ good s) ∧
    (let s := full 0x4001; binds s ∧ s.g 5 ≠ 0 ∧ good s ∧ held s ≠ none) ∧
    (let s := (full 0x4001).gw 5 0; binds s ∧ s.g 5 = 0 ∧ held s ≠ none) ∧
    (let s := L0; s.Ready [asid s] ∧ AddressOk s (Access.object false) (s.g 1) pa lf 0x200000 ∧ s.bindBad (s.g 1) = false ∧
      s.lineBusy s.cur.site s.cur.core (s.lineOf pa) = false ∧ s.injFull s.cur (s.homeOf pa lf) = false) ∧
    (let s := L0; s.Ready [asid s] ∧ AddressOk s (Access.object true) (s.g 1) pa lf 0x200000 ∧ s.bindBad (s.g 1) = false ∧
      s.drained s.cur = true ∧ s.bindSlot s.cur.site s.c.asid (s.g 1) (some s.cur) = (s, .unbound) ∧
      s.Ready [s.lineOf pa] ∧ s.rdcFind s.cur.site (s.lineOf pa) = none) ∧
    (let s : State := { L1 with reqs := [rq0], nextId := 8 }.modC fun c => { c with ocs := 1 }
     s.Ready [asid s] ∧ AddressOk s (Access.object true) (s.g 1) pa lf 0x200000 ∧ s.bindBad (s.g 1) = false ∧
       s.drained s.cur = false) ∧
    (∀ s ∈ [L0.setDword 16 0x300009, L0.setDword 16 0x300010],
      s.Ready [asid s] ∧ MayTrap s ∧ AddressOk s (Access.object false) (s.g 1) pa lf 0x200000 ∧
        AddressOk s (Access.object true) (s.g 1) pa lf 0x200000 ∧
        s.bindTable s.c.asid = none ∧ s.bindBad (s.g 1) = true) := by
  refine ⟨?_, ?_, ?_, ?_, ?_, ?_, ?_, ?_, ?_, ?_⟩ <;>
    (dsimp only [AddressOk, Warm, State.Ready, MayTrap, NoneParked]; decide +kernel)

end Binding

namespace Waits

def a0 : State := base.modC fun c => {c with ocl := 2, ocs := 0, sfuBusy := true}
def w0 : State := (((base.setDword (lmemPa 0 0 0x10) 5).gw 1 0xFFFFFFFFFFC00010).gw 3 5).modC fun c
  => {c with st := .running, sys := true}
def w1 : State := (w0.gw 2 0xFFFFFFFFFFC00018).gw 4 9
def w2 : State := w0.modC fun c => {c with fired := some 4}
def offs : Nat → Nat := fun i => 0x10 + 8*i
def g0 : State := base.modDie 0 fun d => {d with
  girthMask := [(8, 3)], girthArr := [], girthPhase := 4, girthTo := d.girthTo.set 2 100}
def g1 : State := g0.modDie 0 fun d => {d with girthArr := [(8, 1)]}
def g2 : State := g1.modC fun c => {c with girthFlip := 4}
def g3 : State := g0.modC fun c => {c with ocs := 2, occ := 1}
def px (k : ReqKind) (st : ReqStage) (id : Nat) (who : CtxRef) : Req :=
  ⟨id, who, 0, 0x400080, 0x400080, 0, k, st, 0, 0, [], 0, 0, false, false, false, false, id, 0x200000,
  none, [], false⟩
def pu (st : ReqStage) : Req := px (.push 77 1 5 .die) st 7 base.cur
def pu0 (st : ReqStage) : Req := px (.push 77 0 5 .die) st 7 base.cur
def po (st : ReqStage) : Req := px (.pop 1 5 2 .die) st 8 ⟨0,1,0⟩
def x0 : State := {base with reqs := [pu (.atSwitch 0 3)], nextId := 9}
def x1 : State := {base with reqs := [pu0 (.atSwitch 0 3)], nextId := 9}
def x2 : State := {base with reqs := [po (.inBuckle 0 2), pu0 (.atSwitch 0 3)], nextId := 9}
def x3 : State := {base with reqs := [pu (.inBuckle 0 2), po (.atSwitch 0 3)], nextId := 9}
def h0 (d0 d1 : W64) : State := (base.setDword 0x400080 d0).setDword 0x400088 d1
def clean (s : State) (pa : Nat) : L2Line := ⟨s.lineOf pa, 0, false, false, false⟩
def h1 (d0 d1 : W64) : State := {h0 d0 d1 with
  reqs := [pu (.atSwitch 1 3)], nextId := 9, l2 := [clean base 0x400080]}
def h2 (d0 d1 : W64) : State := {((h0 d0 d1).setDword 0x400108 55).setDword 0x400100 44 with
  reqs := [po (.atSwitch 1 3)], nextId := 9, l2 := [clean base 0x400080]}

/-- States and operands that meet the hypotheses of `Obligations.WaitInstructionResults`, clause by clause. -/
theorem witness_WaitInstructionResults :
    (let s : State := a0;
      let l : BitVec 5 := 1;
      let x : BitVec 5 := 31;
      let c : BitVec 5 := 31;
      let t : BitVec 5 := 31;
      let meets := fun (lim : BitVec 5) (v : Nat) => lim = 31 ∨ v ≤ lim.toNat;
      let met := meets l s.c.ocl ∧ meets x s.c.ocs ∧ meets c s.c.occ ∧ meets t s.c.oct;
      ((s.c.inHandler = false) ∧ (¬ met)) ∧ ((s.c.sfuBusy = true))) ∧
    (let s : State := a0;
      let l : BitVec 5 := 2;
      let x : BitVec 5 := 31;
      let c : BitVec 5 := 0;
      let t : BitVec 5 := 31;
      let meets := fun (lim : BitVec 5) (v : Nat) => lim = 31 ∨ v ≤ lim.toNat;
      let met := meets l s.c.ocl ∧ meets x s.c.ocs ∧ meets c s.c.occ ∧ meets t s.c.oct;
      (s.c.inHandler = false) ∧ (met)) ∧
    (let s : State := base;
      (s.c.sfuBusy = false)) ∧
    (let s : State := w0;
      let a : BitVec 5 := 1;
      let b : BitVec 5 := 3;
      let n : BitVec 2 := 0;
      let off : Nat → Nat := offs;
      let differs := fun i => s.dword (ownPa s (off i)) ≠ s.g (b + BitVec.ofNat 5 i);
      let ready := s.c.fired = none ∧ ∀ i, i ≤ n.toNat →
          OwnLocal s (s.g (a + BitVec.ofNat 5 i)) (off i) 8 0 false ∧
          s.watchLocal s.cur.core (off i) = true;
      (ready) ∧ ((∀ i, i ≤ n.toNat → ¬ differs i))) ∧
    (let s : State := w1;
      let a : BitVec 5 := 1;
      let b : BitVec 5 := 3;
      let n : BitVec 2 := 1;
      let off : Nat → Nat := offs;
      let differs := fun i => s.dword (ownPa s (off i)) ≠ s.g (b + BitVec.ofNat 5 i);
      let ready := s.c.fired = none ∧ ∀ i, i ≤ n.toNat →
          OwnLocal s (s.g (a + BitVec.ofNat 5 i)) (off i) 8 0 false ∧
          s.watchLocal s.cur.core (off i) = true;
      let i := 1;
      (ready) ∧ (i ≤ n.toNat) ∧ (differs i) ∧ ((∀ j, j < i → ¬ differs j)) ∧ (NoUnbound s)) ∧
    (let s : State := w2;
      let v := 4;
      (s.c.fired = some v) ∧ (NoUnbound s)) := by
  refine ⟨?_, ?_, ?_, ?_, ?_, ?_⟩ <;>
    (first | decide +kernel | (dsimp only [OwnLocal, NoUnbound, State.Inv]; decide +kernel))

/-- States and operands that meet the hypotheses of `Obligations.BarrierInstructionResults`, clause by clause. -/
theorem witness_BarrierInstructionResults :
    (let s : State := g0;
      let g : BitVec 3 := 2;
      let n := g.toNat;
      let die := s.die s.cur.site;
      let member := die.gmember n s.cur.core = true;
      let alone := s.gspans s.cur.site n = false ∧ s.gmods s.cur.site n = [];
      let clear := s.c.ocs = 0 ∧ s.c.occ = 0 ∧ s.parked s.cur = [] ∧
        ((s.gspans s.cur.site n = false ∧ s.gmods s.cur.site n = []) ∨ s.awaiting s.cur = false);
      ((member) ∧ (die.garrived n s.cur.core = false)) ∧
        ((member) ∧ (die.garrived n s.cur.core = false) ∧ (clear) ∧ ((alone ∨ NoUnbound s))) ∧
        ((member) ∧ (s.c.fired = none) ∧ (s.c.girthFlip.getLsbD n = false))) ∧
    (let s : State := g1;
      let g : BitVec 3 := 2;
      let n := g.toNat;
      let die := s.die s.cur.site;
      let member := die.gmember n s.cur.core = true;
      (member) ∧ (die.garrived n s.cur.core = true)) ∧
    (let s : State := g2;
      let g : BitVec 3 := 2;
      let n := g.toNat;
      let die := s.die s.cur.site;
      let member := die.gmember n s.cur.core = true;
      let alone := s.gspans s.cur.site n = false ∧ s.gmods s.cur.site n = [];
      (alone) ∧ (member ∧ s.c.girthFlip.getLsbD n = true)) ∧
    (let s : State := g3.modC fun c => {c with fired := some 1};
      let n := 3;
      let alone := s.gspans s.cur.site n = false ∧ s.gmods s.cur.site n = [];
      alone ∧ s.c.fired ≠ none) ∧
    (let s : State := g3;
      let g : BitVec 3 := 2;
      let n := g.toNat;
      let die := s.die s.cur.site;
      let member := die.gmember n s.cur.core = true;
      let clear := s.c.ocs = 0 ∧ s.c.occ = 0 ∧ s.parked s.cur = [] ∧
        ((s.gspans s.cur.site n = false ∧ s.gmods s.cur.site n = []) ∨ s.awaiting s.cur = false);
      (member) ∧ (¬ clear)) ∧
    (let s : State := g3;
      let g : BitVec 3 := 3;
      let n := g.toNat;
      let die := s.die s.cur.site;
      let member := die.gmember n s.cur.core = true;
      (¬ member) ∧ (MayTrap s) ∧ s.c.fired = none) := by
  refine ⟨?_, ?_, ?_, ?_, ?_, ?_⟩ <;>
    (first | decide +kernel | (dsimp only [MayTrap, NoneParked, NoUnbound]; decide +kernel))

/-- A descriptor at the end of its page: 0x5FFF80, with room for no element. -/
def hEnd : State := {(base.setDword 0x5FFF80 0x101) with
  reqs := [{ pu (.atSwitch 1 3) with pa := 0x5FFF80 }], nextId := 9, l2 := [clean base 0x5FFF80]}

/-- States and operands that meet the hypotheses of `Obligations.ExchangePacketEvents`, clause by clause: at the switch, and at
the home with a malformed descriptor, and with a queue and a stack that are full, empty, and neither. -/
theorem witness_ExchangePacketEvents :
    let met := fun (s : State) (id : Nat) (q : Req) => s.req id = some q ∧ q.ext = none ∧ s.peerWin q.pa = none
    let at_ := fun (s : State) (q : Req) => q.exchStep = some (0, 3) ∧ s.mayLeave q = true ∧
      s.exchAt q 0 = some (0, false)
    let mates := fun (s : State) (q : Req) =>
      (s.buckled 0).filter fun w => w.1.kind.isPush != q.kind.isPush && s.exchObj w.1 == s.exchObj q
    let room := fun s : State => ((s.buckled 0).filter fun w => w.2.1 = false).length < 32
    let pairs := fun (s : State) (id : Nat) (q : Req) (w : Req × Bool × Nat) => met s id q ∧ at_ s q ∧ mates s q = [w] ∧
      s.req w.1.id = some w.1 ∧ w.1.ext = none ∧ w.1.id ≠ id
    let cap := fun (s : State) (q : Req) => bits (s.dword q.pa) 8 32
    let count := fun (s : State) (q : Req) => bits (s.dword (q.pa + 8)) 0 32
    let home := fun (s : State) (q : Req) => ((q.stage = .atSwitch 1 3 ∧ s.exchHere q 1 3 = true ∧
        (s.slice q.home (s.sliceOfReq q)).full q = false ∧ s.inL2 (s.lineOf q.pa) = true) ∨
      (q.stage = .queued ∧ q.id ∉ (s.slice q.home (s.sliceOfReq q)).queue)) ∧ q.kind.exch = true ∧
      s.poison = [] ∧ (∀ l ∈ s.l2, l.host = false) ∧ s.groups = []
    let wrong := fun (s : State) (q : Req) =>
      let kind := bits (s.dword q.pa) 0 2
      let head := bits (s.dword (q.pa + 8)) 32 32
      kind = 0 ∨ kind = 3 ∨ cap s q = 0 ∨ bits (s.dword q.pa) 2 6 ≠ 0 ∨ bits (s.dword q.pa) 40 24 ≠ 0 ∨ cap s q ≤ head ∨
        (kind = 2 ∧ head ≠ 0) ∨ cap s q < count s q ∨ q.page < q.pa % q.page + 128 + 8 * cap s q
    let sound := fun (s : State) (q : Req) => home s q ∧ ¬ wrong s q ∧ q.pa % 128 = 0
    let apart := fun (s : State) (a b : Nat) => ∀ i < 8, ∀ j < 8, s.canon (a + i) ≠ s.canon (b + j)
    (let s := x0; let q := pu (.atSwitch 0 3)
     met s 7 q ∧ at_ s q ∧ mates s q = [] ∧ q.kind.window ≠ 0 ∧ room s) ∧
    (let s := x1; let q := pu0 (.atSwitch 0 3)
     met s 7 q ∧ at_ s q ∧ mates s q = [] ∧ (q.kind.window = 0 ∨ ¬ room s)) ∧
    pairs x2 7 (pu0 (.atSwitch 0 3)) (po (.inBuckle 0 2), false, 2) ∧
    pairs x3 8 (po (.atSwitch 0 3)) (pu (.inBuckle 0 2), false, 2) ∧
    (let s := x3; let q := pu (.inBuckle 0 2)
     met s 7 q ∧ q.stage = .inBuckle 0 2) ∧
    (let s := h1 0x200 0; let q := pu (.atSwitch 1 3)
     met s 7 q ∧ home s q ∧ wrong s q) ∧
    (let s := hEnd; let q := { pu (.atSwitch 1 3) with pa := 0x5FFF80 }
     met s 7 q ∧ home s q ∧ wrong s q) ∧
    (let s := h1 0x201 0; let q := pu (.atSwitch 1 3)
     met s 7 q ∧ sound s q ∧ q.kind.isPush = true ∧ count s q < cap s q ∧
       apart s (s.plain (q.pa + 128)) (s.plain q.pa + 8)) ∧
    (let s := h1 0x202 1; let q := pu (.atSwitch 1 3)
     met s 7 q ∧ sound s q ∧ q.kind.isPush = true ∧ count s q < cap s q ∧
       apart s (s.plain (q.pa + 136)) (s.plain q.pa + 8)) ∧
    (let s := h1 0x201 2; let q := pu (.atSwitch 1 3)
     met s 7 q ∧ sound s q ∧ q.kind.isPush = true ∧ count s q = cap s q) ∧
    (let s : State := { h1 0x201 2 with reqs := [pu .queued] }; let q := pu .queued
     met s 7 q ∧ sound s q ∧ q.kind.isPush = true ∧ count s q = cap s q) ∧
    (let s := h2 0x201 2; let q := po (.atSwitch 1 3)
     met s 8 q ∧ sound s q ∧ q.kind.isPush = false ∧ 0 < count s q) ∧
    (let s := h2 0x202 2; let q := po (.atSwitch 1 3)
     met s 8 q ∧ sound s q ∧ q.kind.isPush = false ∧ 0 < count s q) ∧
    (let s := h2 0x201 0; let q := po (.atSwitch 1 3)
     met s 8 q ∧ sound s q ∧ q.kind.isPush = false ∧ count s q = 0) := by
  refine ⟨?_, ?_, ?_, ?_, ?_, ?_, ?_, ?_, ?_, ?_, ?_, ?_, ?_, ?_⟩ <;> decide +kernel

end Waits

namespace Handles

def hv : W64 := handleOf 3 0 5 0x600 2
def rg (st : RegionState) (pin : Bool) : State := (((base.modCore 0 0 fun k => {k with
  regions := [(3, ⟨st, 0x600, 2, 5, pin, none⟩)]}).gw 1 hv).gw 2 0x41)
def me : Holder := ⟨0,0⟩
def ot : Holder := ⟨1,1⟩
/-- A store of the context to the region is on its way through a translated page of its own local memory (R72). -/
def inUse : State := { rg (.exclusive me) false with nextId := 8, reqs := [⟨7, base.cur, 0, 0, lmemPa 0 0 0x18000, 0,
  .store [(0, 1)] 0, .sent, 0, 0, [], 0, 0, false, false, false, false, 7, 0, none, [], false⟩] }
def gsys (s : State) : State := s.modC fun c => {c with sys := true}
def g0 : State := (base.gw 1 (handleOf 0 0 0 0x600 2)).gw 2 0x41
def g1 : State := gsys ((rg (.exclusive me) false).gw 2 0x41)
def gm : State := (gsys (g0)).setByte (lmemPa 0 0 0x18001) 7 |>.setByte (lmemPa 0 0 0x18080) 9
def gful : State := (gsys g0).modCore 0 0 fun k => {k with
  regions := (List.range 32).map fun i => (i, ⟨.exclusive ot, 0x700, 1, 0, false, none⟩)}
def vc (n : Nat) : Ctx := {Ctx.reset with
  st := .running, held := List.range n, want := n, v := Vector.replicate 16
    ((List.range (32*n)).map fun i => BitVec.ofNat 32 (i+1)), m :=
    Vector.replicate 4 ((List.range (32*n)).map fun i => i % 2 == 0)}
def l0 : State := base.modCtx ⟨0,1,0⟩ fun c => {c with st := .running, held := [7,6], want := 3}
def l1 : State := l0.modC fun _ => vc 3
def l2 : State := l1.modCtx ⟨0,1,0⟩ fun c => {c with want := 2}
def l3 : State := l1.modC fun c => {c with pend := ⟨0,0,1,0⟩}

/-- States and operands that meet the hypotheses of `Obligations.HandleInstructionResults`, clause by clause: the entry that the
handle names in each state, its range free or in use, the target named valid or not; a stale handle, and an entry that no
instruction but `hgrant` may change. -/
theorem witness_HandleInstructionResults :
    let core := fun s : State => hCore s.cur (s.g 1)
    let entry := fun s : State => (s.core s.cur.site (core s)).region (hSlot (s.g 1))
    let ok := fun (s : State) (st : RegionState) => core s < 256 ∧ s.handleOk s.cur (s.g 1) = true ∧ (entry s).state = st
    let busy := fun s : State => s.regionBusy s.cur (core s) (entry s).base (entry s).len
    let target := fun s : State => s.target s.cur (s.g 2)
    holderOf base.cur = me ∧
    (let s := rg (.exclusive me) false
     ok s (.exclusive me) ∧ (entry s).pin = false ∧ target s = some ot ∧ busy s = false) ∧
    (let s := inUse
     ok s (.exclusive me) ∧ (entry s).pin = false ∧ target s = some ot ∧ busy s = true) ∧
    (let s := rg (.shared [me]) false
     ok s (.shared [me]) ∧ (entry s).pin = false ∧ target s = some ot ∧ busy s = false) ∧
    (let s := rg (.shared [me, ot]) true
     ok s (.shared [me, ot]) ∧ target s = some ot ∧ busy s = false) ∧
    (let s := rg (.passing (some ot) me) false; ok s (.passing (some ot) me)) ∧
    (let s := rg (.passing (some me) ot) false; ok s (.passing (some me) ot)) ∧
    (let s := (rg (.passing (some me) ot) false).gw 1 7
     core s < 256 ∧ MayTrap s ∧ s.handleOk s.cur (s.g 1) = false) ∧
    (let s := rg (.exclusive ot) false; core s < 256 ∧ MayTrap s ∧ s.handleOk s.cur (s.g 1) = true ∧
      (entry s).state = .exclusive ot) ∧
    (let s := rg (.exclusive me) true; core s < 256 ∧ MayTrap s ∧ (entry s).state = .exclusive me ∧ (entry s).pin = true) ∧
    (let s := (rg (.exclusive me) false).gw 2 0x1041; core s < 256 ∧ MayTrap s ∧ target s = none) := by
  refine ⟨?_, ?_, ?_, ?_, ?_, ?_, ?_, ?_, ?_, ?_, ?_⟩ <;>
    (first | decide +kernel | (dsimp only [MayTrap, NoneParked]; decide +kernel))

/-- States and operands that meet the hypotheses of `Obligations.RegionAndBankResults` (its part on granting regions),
clause by clause. -/
theorem witness_RegionAndBankResults_RegionGrantResults :
    (let s : State := g0;
      (s.c.sys = false) ∧ (MayTrap s)) ∧
    (let s : State := gsys (g0.gw 2 0x1041);
      let b : BitVec 5 := 2;
      (s.c.sys = true) ∧ (s.target s.cur (s.g b) = none)) ∧
    (let s : State := gsys (g0.gw 1 0);
      let a : BitVec 5 := 1;
      let b : BitVec 5 := 2;
      let v := s.g a;
      let core := hCore s.cur v;
      let fits := inTask (hBase v) (hLen v) = true ∧ s.inRect s.cur.site core = true;
      (s.c.sys = true) ∧ (s.target s.cur (s.g b) ≠ none) ∧ (¬ fits)) ∧
    (let s : State := g1;
      let a : BitVec 5 := 1;
      let b : BitVec 5 := 2;
      let v := s.g a;
      let core := hCore s.cur v;
      let k := s.core s.cur.site core;
      let fits := inTask (hBase v) (hLen v) = true ∧ s.inRect s.cur.site core = true;
      (s.c.sys = true) ∧ (s.target s.cur (s.g b) ≠ none) ∧ (fits) ∧
        (k.overlaps (hBase v) (hLen v) = true)) ∧
    (let s : State := gm;
      let a : BitVec 5 := 1;
      let b : BitVec 5 := 2;
      let v := s.g a;
      let core := hCore s.cur v;
      let k := s.core s.cur.site core;
      let fits := inTask (hBase v) (hLen v) = true ∧ s.inRect s.cur.site core = true;
      let h := ot;
      (s.c.sys = true) ∧ (s.target s.cur (s.g b) = some h) ∧ (fits) ∧
        (k.overlaps (hBase v) (hLen v) = false) ∧ ((∃ i, i < 32 ∧ (k.region i).state = .free))) ∧
    (let s : State := gful;
      let a : BitVec 5 := 1;
      let b : BitVec 5 := 2;
      let v := s.g a;
      let core := hCore s.cur v;
      let k := s.core s.cur.site core;
      let fits := inTask (hBase v) (hLen v) = true ∧ s.inRect s.cur.site core = true;
      (s.c.sys = true) ∧ (s.target s.cur (s.g b) ≠ none) ∧ (fits) ∧
        (k.overlaps (hBase v) (hLen v) = false) ∧ ((∀ i, i < 32 → (k.region i).state ≠ .free))) := by
  refine ⟨?_, ?_, ?_, ?_, ?_, ?_⟩ <;>
    (first | decide +kernel | (dsimp only [MayTrap, NoneParked]; decide +kernel))

/-- States and operands that meet the hypotheses of `Obligations.RegionAndBankResults` (its part on banks and retained
lanes), clause by clause. -/
theorem witness_RegionAndBankResults_BankAndRetainEvents :
    (let s : State := g1;
      let site : Nat := 0;
      let core : Nat := 0;
      let bank : Nat := 3;
      ((s.core site core).overlaps (512 * bank) 512 = true)) ∧
    (let s : State := gm.setByte (lmemPa 0 0 0x20000) 3;
      let site : Nat := 0;
      let core : Nat := 0;
      let bank : Nat := 4;
      (3 ≤ bank) ∧ (bank < 16) ∧ ((s.core site core).overlaps (512 * bank) 512 = false)) ∧
    (let s : State := rg (.retained 9) false;
      let site : Nat := 0;
      let core : Nat := 0;
      let slot : Nat := 3;
      let n : Nat := 9;
      (((s.core site core).region slot).state = .retained n)) := by
  refine ⟨?_, ?_, ?_⟩ <;>
    decide +kernel

/-- States and operands that meet the hypotheses of `Obligations.LaneClaimAndSfuResults` (its part on lane claims),
clause by clause. -/
theorem witness_LaneClaimAndSfuResults_LaneClaimResults :
    (let s : State := l0;
      ((s.c.gang = false) ∧ (s.c.claim = 0)) ∧ ((s.c.gang = false) ∧ (s.c.vecBusy = false) ∧
        (s.othersUnmet s.cur = true)) ∧ ((s.c.gang = false) ∧ (s.c.vecBusy = false))) ∧
    (let s : State := l1;
      (s.c.gang = false) ∧ (0 < s.c.claim) ∧ (MayTrap s)) ∧
    (let s : State := l2;
      (s.c.gang = false) ∧ (s.c.vecBusy = false) ∧ (s.othersUnmet s.cur = false)) ∧
    (let s : State := l3;
      (s.c.gang = false) ∧ (s.c.vecBusy = true)) := by
  refine ⟨?_, ?_, ?_, ?_⟩ <;>
    (first | decide +kernel | (dsimp only [MayTrap, NoneParked]; decide +kernel))

end Handles

namespace Lanes

def l4 : State := {(base.modCtx ⟨0,1,0⟩ fun c => {c with
                     gang := true, st := .running, held := [3]}) with
  cur := ⟨0,1,0⟩, issue := {Issue.reset with peers := List.replicate 4 {Ctx.reset with
                                               gang := true}}}
def gsys (s : State) : State := s.modC fun c => {c with sys := true}
def lb : Nat := 0xFFFFFFFFFFC00000
def mp (cnt fn : Nat) : W64 := BitVec.ofNat 64 ((lb + 0x17000) % 2^32 + cnt * 2^32 + fn * 2^48)
def sfq0 (fn : SfuFn) (st : Bool) (nx : Nat) (b : W64) (drop : Bool) : SfuReq :=
  ⟨base.cur, fn, if fn = .map then BitVec.ofNat 64 (lb+0x16000) else 0x40800000, b, 6, none, false,
  .die, st, nx, 3, drop⟩
def u0 : State := gsys ((base.gw 1 (BitVec.ofNat 64 (lb + 0x16000))).gw 2 (mp 3 0))
def u1 (q : List SfuReq) : State := ((u0.setBytes (lmemPa 0 0 0x16000) (toBytes 4 0x40000000 ++
  toBytes 4 0x3F800000)).modOctet 0 0 fun o => {o with sfuq := q})
def m3 := sfq0 .map true 0 (mp 3 0) false
def us (q : SfuReq) : State := (u1 [q]).modC fun c => {c with sys := false}
def bad := (us m3).mapStep m3 32 0

/-- States and operands that meet the hypotheses of `Obligations.LaneClaimAndSfuResults` (its part on lane claims),
clause by clause. -/
theorem witness_LaneClaimAndSfuResults_LaneClaimResults :
    (let s : State := l4;
      (s.follows = true) ∧ ((s.member (qpos s.cur)).claim = 0)) := by
  decide +kernel

/-- States and operands that meet the hypotheses of `Obligations.LaneClaimAndSfuResults` (its part on special
functions), clause by clause. -/
theorem witness_LaneClaimAndSfuResults_SfuResults :
    (let s : State := u0;
      let a : BitVec 5 := 1;
      let b : BitVec 5 := 2;
      let u : SfuFn := .rcp;
      let x := s.g a;
      let y := s.g b;
      let q0 := (s.octet s.cur.site (octetOf s.cur.core)).sfuq;
      let room := s.startOk s.cur = true ∧ q0.length < 16;
      let sound := u ≠ .map ∨ (bits y 48 4 ≤ 9 ∧ bits y 52 12 = 0 ∧
          s.mapCheck s.cur x (bits y 32 16) false = none ∧
          s.mapCheck s.cur (mapDst y) (bits y 32 16) true = none);
      (sound) ∧ (room)) ∧
    (let s : State := u1 (List.replicate 16 (sfq0 .exp false 0 0 false));
      let a : BitVec 5 := 1;
      let b : BitVec 5 := 2;
      let u : SfuFn := .rcp;
      let site : Nat := 0;
      let oct : Nat := 0;
      let x := s.g a;
      let y := s.g b;
      let q0 := (s.octet s.cur.site (octetOf s.cur.core)).sfuq;
      let room := s.startOk s.cur = true ∧ q0.length < 16;
      let sound := u ≠ .map ∨ (bits y 48 4 ≤ 9 ∧ bits y 52 12 = 0 ∧
          s.mapCheck s.cur x (bits y 32 16) false = none ∧
          s.mapCheck s.cur (mapDst y) (bits y 32 16) true = none);
      ((sound) ∧ (¬ room)) ∧ (
        let q := (sfq0 .exp false 0 0 false);
        ((s.octet site oct).sfuq.find? (fun q => !q.started) = some q) ∧ (q.acq = false))) ∧
    (let s : State := u1 [sfq0 .rsqrt true 0 0 false];
      let site : Nat := 0;
      let oct : Nat := 0;
      let q := sfq0 .rsqrt true 0 0 false;
      let l := ([] : List SfuReq);
      ((s.octet site oct).sfuq = q :: l) ∧ (q.started = true) ∧ (q.fn ≠ .map)) ∧
    (let s : State := us m3;
      let site : Nat := 0;
      let oct : Nat := 0;
      let q := m3;
      let l := ([] : List SfuReq);
      ((s.octet site oct).sfuq = q :: l) ∧ (q.started = true) ∧
      let s' := bad.1;
      let i := 0;
      (q.fn = .map) ∧ (s.mapStep q 32 q.next = (s', some i))) ∧
    (let q := m3;
      let s : State := u1 [q];
      let s' := (s.mapStep q 32 q.next).1;
      (s.octet 0 0).sfuq = [q] ∧ q.started = true ∧ q.fn = .map ∧ s.mapStep q 32 q.next = (s', none) ∧
        bits q.b 32 16 ≤ q.next + 32) ∧
    (let q := sfq0 .map true 0 (mp 33 0) false;
      let s : State := u1 [q];
      let s' := (s.mapStep q 32 q.next).1;
      (s.octet 0 0).sfuq = [q] ∧ q.started = true ∧ q.fn = .map ∧ s.mapStep q 32 q.next = (s', none) ∧
        q.next + 32 < bits q.b 32 16 ∧ q.drop = false) := by
  refine ⟨?_, ?_, ?_, ?_, ?_, ?_⟩ <;>
    decide +kernel

/-- R322, R325: the special-function unit delivers 1/√4 = 0.5 to g6 of the context that asked. -/
theorem test_sfu_result :
    (match exec (.sfuResult 0 0) (u1 [sfq0 .rsqrt true 0 0 false]) with
      | .next t => decide (t.g 6 = 0x3F000000)
      | _ => false) = true := by decide +kernel

end Lanes

namespace SystemRegisters

def gsys (s : State) : State := s.modC fun c => {c with sys := true}
def r0 : State := (base.modC fun c => {c with
  tcause := 5, tval := 6, trappc := 0x1003, tstat := 3, tvec := 0x2000, tscratch0 := 7, tscratch1 :=
    8, asid := 9, dictbase := 0x77, lanepat := 3, energy := 4, npsec := true, npcount := 8, held :=
    [1,3], want := 3, girthSel := 2, issued := 11, dactive := 2}).modDie 0 fun d => {d with
  girthMask := [(8, 3)], girthArr := [(8,1)], girthPhase := 4, girthTo := d.girthTo.set 2 100,
    tqctl := 9, tqbase := 0x3000, nplim := 77}
def r1 : State := gsys r0
def w1 : State := r1.gw 4 0xFEDCBA9876543217

/-- States and operands that meet the hypotheses of `Obligations.SystemRegisterReads`, clause by clause. -/
theorem witness_SystemRegisterReads :
    ((
        let i := 0;
        (i < 5)) ∧ (
        let i := 7;
        (i < 32)) ∧ (
        let i := 1;
        (i < 8)) ∧ (
        let i := 1;
        (i < 4))) ∧
    (let s : State := r1;
      let c := s.c;
      (c.sys = true)) := by
  refine ⟨?_, ?_⟩ <;>
    decide +kernel

/-- States and operands that meet the hypotheses of `Obligations.SystemRegisterWritesAndPrivilege` (its part on writes),
clause by clause. -/
theorem witness_SystemRegisterWritesAndPrivilege_SystemRegisterWrites :
    (let s : State := w1;
      let c := s.c;
      (c.sys = true) ∧ (s.die s.cur.site).tqheld = []) := by
  decide +kernel

end SystemRegisters

namespace Privilege

def r0 : State := (base.modC fun c => {c with
  tcause := 5, tval := 6, trappc := 0x1003, tstat := 3, tvec := 0x2000, tscratch0 := 7, tscratch1 :=
    8, asid := 9, dictbase := 0x77, lanepat := 3, energy := 4, npsec := true, npcount := 8, held :=
    [1,3], want := 3, girthSel := 2, issued := 11, dactive := 2}).modDie 0 fun d => {d with
  girthMask := [(8, 3)], girthArr := [(8,1)], girthPhase := 4, girthTo := d.girthTo.set 2 100,
    tqctl := 9, tqbase := 0x3000, nplim := 77}
def q0 : State := r0.modC fun c => {c with tstat := 0}
def q0' : State := q0.modDie 0 fun d => {d with tqctl := 0}

/-- States and operands that meet the hypotheses of `Obligations.SystemRegisterWritesAndPrivilege` (its part on
privilege), clause by clause. -/
theorem witness_SystemRegisterWritesAndPrivilege_SystemRegisterPrivilege :
    (let s : State := q0';
      ((MayTrap s) ∧ (s.c.sys = false) ∧
        let n := (0x150 : BitVec 12);
        (n ∈ [0x020, 0x021, 0x022, 0x023, 0x024, 0x028, 0x029, 0x150, 0x151, 0x152, 0x153, 0x154,
          0x155, 0x160])) ∧ ((MayTrap s) ∧ (s.c.sys = false) ∧
        let n := (0x180 : BitVec 12);
        (n ∈ [0x002, 0x104, 0x142, 0x180, 0x19F, 0x1A0, 0x1AF, 0x1B4, 0x1B7])) ∧ ((MayTrap s) ∧
          (s.issue.dict = none) ∧
        let n := (0x025 : BitVec 12);
        (n ∈ [0x003, 0x012, 0x025, 0x0C0, 0x0C6, 0x105, 0x143, 0x1B1, 0x1B8, 0x1C9, 0xFFF])) ∧
          ((MayTrap s) ∧
        let n := (0x1C1 : BitVec 12);
        (n ∈ [0x000, 0x001, 0x010, 0x011, 0x0D1, 0x101, 0x102, 0x103, 0x1C0, 0x1C1, 0x1C8]))) := by
  first | decide +kernel | (dsimp only [MayTrap, NoneParked]; decide +kernel)

end Privilege

namespace Traps

def gsys (s : State) : State := s.modC fun c => {c with sys := true}
def r0 : State := (base.modC fun c => {c with
  tcause := 5, tval := 6, trappc := 0x1003, tstat := 3, tvec := 0x2000, tscratch0 := 7, tscratch1 :=
    8, asid := 9, dictbase := 0x77, lanepat := 3, energy := 4, npsec := true, npcount := 8, held :=
    [1,3], want := 3, girthSel := 2, issued := 11, dactive := 2}).modDie 0 fun d => {d with
  girthMask := [(8, 3)], girthArr := [(8,1)], girthPhase := 4, girthTo := d.girthTo.set 2 100,
    tqctl := 9, tqbase := 0x3000, nplim := 77}
def q0 : State := r0.modC fun c => {c with tstat := 0}
def q0' : State := (r0.modC fun c => {c with tstat := 0}).modDie 0 fun d => {d with tqctl := 0}
def t0 : State := q0'.modC fun c => {c with
  pendStore := [(9,5),(14,6)], trappc := 0x5002, asid := 0}
def t0' : State := t0.modCore 0 0 fun k => {k with
  rq := [⟨0,0,5,[],true,.store,0,false,0,false,0,1,[],false⟩, ⟨1,0,5,[],true,.store,0,false,0,false,0,1,[],false⟩]}
def tn (n : W64) : State := gsys (t0'.modC fun c => {c with tstat := n})
def tl : State := gsys base

/-- States and operands that meet the hypotheses of `Obligations.TrapsAndReturnFromTrap` (its part on traps and return),
clause by clause. -/
theorem witness_TrapsAndReturnFromTrap_TrapAndReturn :
    (let s : State := t0';
      ((MayTrap s)) ∧ ((s.c.sys = false) ∧ (MayTrap s))) ∧
    (let s : State := tn 3;
      let nested := s.c.tstat.getLsbD 2;
      (s.c.sys = true) ∧ (nested = false)) ∧
    (let s : State := tn 6;
      let nested := s.c.tstat.getLsbD 2;
      (s.c.sys = true) ∧ (nested = true)) := by
  refine ⟨?_, ?_, ?_⟩ <;>
    (first | decide +kernel | (dsimp only [MayTrap, NoneParked]; decide +kernel))

/-- States and operands that meet the hypotheses of `Obligations.TrapsAndReturnFromTrap` (its part on causes in a
handler), clause by clause. -/
theorem witness_TrapsAndReturnFromTrap_CauseInHandlerEndsContext :
    (let s : State := tn 3;
      (s.c.inTrap = true) ∧ (s.c.gang = false) ∧ (s.cgroup s.c.asid.toNat = 0) ∧
        (bit (s.hreg (s.phys s.cur.site) 0x3608) 3 = false)) := by
  decide +kernel

/-- States and operands that meet the hypotheses of `Obligations.TranslationMaintenance`, clause by clause. -/
theorem witness_TranslationMaintenance :
    (let s : State := (tl.gw 1 0x200000).gw 2 0;
      let idle := s.reqs = [];
      ((s.c.sys = true) ∧ (idle)) ∧ s.c.ocs = 0 ∧ s.awaiting s.cur = false) ∧
    (let s : State := (base.gw 1 0x200000).gw 2 0;
      (s.c.sys = false) ∧ (MayTrap s)) ∧
    (let s : State := base.modC fun c => {c with ocs := 1};
      ¬ (s.c.ocs = 0 ∧ s.awaiting s.cur = false)) := by
  refine ⟨?_, ?_, ?_⟩ <;>
    (first | decide +kernel | (dsimp only [MayTrap, NoneParked]; decide +kernel))

end Traps

namespace Dictionary

def gsys (s : State) : State := s.modC fun c => {c with sys := true}
def lb : Nat := 0xFFFFFFFFFFC00000
def dc (o : Nat) : State := (base.setBytes (lmemPa 0 0 (o+8)) [1,2,3]).gw 1 (BitVec.ofNat 64 (lb +
  o))
def dc1 : State := (dc 0x600).modC fun c => {c with
  dict := [(64, 5), (65, 6)], dload := some ⟨1, 5⟩}
/-- A store of the context to the image is on its way. -/
def dcStore : State := { dc 0x600 with nextId := 8, reqs := [⟨7, base.cur, 0, 0, lmemPa 0 0 0x608, 0,
  .store [(8, 1)] 0, .sent, 0, 0, [], 0, 0, false, false, false, false, 7, 0, none, [], false⟩] }
def dc3 : State := (dc 0x600).modCtx ⟨0,1,2⟩ fun c => {c with
  st := .stopped, dict := [(64, 5), (65, 6)]}
def ls (v : W64) : State := base.gw 1 v
def off0 : State := (ls 5).setHreg 0 0x5008 0
def lv (l : Lease) (v : W64) : State := ((ls v).modDie 0 fun d => {d with
  lease := d.lease.set 0 l}).modC fun c => {c with asid := 4}

/-- States and operands that meet the hypotheses of `Obligations.DictionaryResults`, clause by clause: a load from the end of
local memory in system mode, one from the user's own window, the instructions while a load runs, and debug writes of a stopped
context that has its registers and of one that stands in its save area. -/
theorem witness_DictionaryResults :
    let named := fun (s : State) (off : Nat) => s.g 1 = BitVec.ofNat 64 (0xFFFFFFFFFFC00000 + off) ∧ off < 524288 ∧
      off % 64 = 0 ∧ (s.c.sys = true ∨ (0x800 * s.cur.ctx ≤ off ∧ off + 512 ≤ 0x800 * s.cur.ctx + 0x800) ∨
        (s.core s.cur.site s.cur.core).covers (holderOf s.cur) false off 512 = true)
    let r : CtxRef := ⟨0, 1, 2⟩
    let free := fun (s : State) (off : Nat) => s.c.dload = none ∧ s.imageStores off = false ∧
      ∀ k ∈ banksOf off 512, (s.core s.cur.site s.cur.core).gated.getLsbD k = false
    (let s := gsys (dc 0x7FFC0); named s 0x7FFC0 ∧ free s 0x7FFC0) ∧
    (let s := dc 0x600; named s 0x600 ∧ free s 0x600) ∧
    (let s := dcStore; named s 0x600 ∧ s.imageStores 0x600 = true) ∧
    (let s := dc1; named s 0x600 ∧ s.c.dload ≠ none ∧ (s.ctx base.cur).saved = false) ∧
    (let c := dc3.ctx r; c.st = .stopped ∧ c.dload = none ∧ c.saved = false) ∧
    (let c := (dc3.modCtx r fun c => { c with prior := .preempted }).ctx r
     c.st = .stopped ∧ c.dload = none ∧ c.saved = true ∧ RealCtx r ∧ r.site < 64 ∧ 3 < 4 ∧ 63 < 64) ∧
    (dc3.ctx base.cur).st ≠ .stopped := by
  dsimp only [RealCtx]; decide +kernel

/-- States and operands that meet the hypotheses of `Obligations.LeaseResults`, clause by clause. -/
theorem witness_LeaseResults :
    (let s : State := ls 5;
      let a : BitVec 5 := 1;
      let cl := s.cur.core / 64;
      let v := s.g a;
      let cfg := s.sreg s.cur.site 0x5008;
      let l := (s.die s.cur.site).leaseOf cl;
      let bad := bits v 13 51 ≠ 0 ∨ bits v 0 13 = 0 ∨ 5000 < bits v 0 13;
      let cold := s.throttled s.cur.site = false ∧ s.refreeze s.cur.site = false;
      ((bit cfg 0 = true) ∧ (¬ bad) ∧ (cold) ∧ (s.meltFrac s.cur.site < bits cfg 1 10) ∧
        (l.st = .idle) ∧ (cl < 4)) ∧ ((l.live = false))) ∧
    (let s : State := off0;
      let cfg := s.sreg s.cur.site 0x5008;
      (bit cfg 0 = false)) ∧
    (let s : State := ls 5001;
      let a : BitVec 5 := 1;
      let v := s.g a;
      let cfg := s.sreg s.cur.site 0x5008;
      let bad := bits v 13 51 ≠ 0 ∨ bits v 0 13 = 0 ∨ 5000 < bits v 0 13;
      (bit cfg 0 = true) ∧ (bad)) ∧
    (let s : State := (ls 5).setHreg 0 0x5018 1;
      let a : BitVec 5 := 1;
      let v := s.g a;
      let cfg := s.sreg s.cur.site 0x5008;
      let bad := bits v 13 51 ≠ 0 ∨ bits v 0 13 = 0 ∨ 5000 < bits v 0 13;
      (bit cfg 0 = true) ∧ (¬ bad) ∧ (s.throttled s.cur.site = true)) ∧
    (let s : State := (ls 5).setHreg 0 0x5000 700;
      let a : BitVec 5 := 1;
      let v := s.g a;
      let cfg := s.sreg s.cur.site 0x5008;
      let bad := bits v 13 51 ≠ 0 ∨ bits v 0 13 = 0 ∨ 5000 < bits v 0 13;
      let cold := s.throttled s.cur.site = false ∧ s.refreeze s.cur.site = false;
      (bit cfg 0 = true) ∧ (¬ bad) ∧ (cold) ∧ (bits cfg 1 10 ≤ s.meltFrac s.cur.site)) ∧
    (let s : State := lv ⟨.sprint, 4, 50⟩ 5;
      let a : BitVec 5 := 1;
      let cl := s.cur.core / 64;
      let v := s.g a;
      let cfg := s.sreg s.cur.site 0x5008;
      let l := (s.die s.cur.site).leaseOf cl;
      let bad := bits v 13 51 ≠ 0 ∨ bits v 0 13 = 0 ∨ 5000 < bits v 0 13;
      let cold := s.throttled s.cur.site = false ∧ s.refreeze s.cur.site = false;
      ((bit cfg 0 = true) ∧ (¬ bad) ∧ (cold) ∧ (s.meltFrac s.cur.site < bits cfg 1 10) ∧
        (l.st ≠ .idle)) ∧ ((l.live = true) ∧ (l.asid = s.c.asid) ∧ (cl < 4))) ∧
    (let s : State := (lv ⟨.sprint, 4, 50⟩ 5).modCtx ⟨0, 9, 2⟩ fun c => { c with st := .running, asid := 4 };
      let cl := s.cur.core / 64;
      let l := (s.die s.cur.site).leaseOf cl;
      let r : CtxRef := ⟨0, 9, 2⟩;
      ((l.live = true) ∧ (l.asid = s.c.asid) ∧ (cl < 4)) ∧ RealCtx r ∧ r.site = s.cur.site ∧ r.core / 64 = cl ∧ r ≠ s.cur ∧
        (s.ctx r).st ≠ .free ∧ (s.ctx r).st ≠ .halting ∧ (s.ctx r).asid = l.asid) ∧
    (let s : State := lv ⟨.rampup, 7, 50⟩ 5;
      let cl := s.cur.core / 64;
      let l := (s.die s.cur.site).leaseOf cl;
      (l.live = true) ∧ (l.asid ≠ s.c.asid)) := by
  refine ⟨?_, ?_, ?_, ?_, ?_, ?_, ?_, ?_⟩ <;>
    (first | decide +kernel | (dsimp only [RealCtx]; decide +kernel))

end Dictionary

namespace Scheduling

def q (c k : Nat) : CtxRef := ⟨0,c,k⟩
def y1 : State := base.modCtx (q 0 2) fun c => {c with st := .ready}
def wg (s : State) : State := [1,2,3].foldl (fun s i => s.modCtx (q i 0) fun c => {c with
  st := .waiting, wait := .gang}) s
def fd (s : State) (v : Nat) : State := s.modC fun c => {c with fired := some v}
def gd (s : State) : State := [1,2,3].foldl (fun s i => s.modCtx (q i 0) fun c => {c with
  st := .waiting, wait := .gangDone}) s
def ga (s : State) : State := s.modC fun c => {c with gang := true}
def wgNo : State := (wg base).modCtx (q 2 0) fun c => {c with asid := 9}
def lr (n a : Nat) (d : W64) : State := (((base.setHreg 0 0x3200 0x4000).setHreg 0 0x3208 8).gw 1
  (BitVec.ofNat 64 a)).setBytes (0x4000+256*n) (toBytes 8 d.toNat)

/-- States and operands that meet the hypotheses of `Obligations.SchedulingInstructionResults`, clause by clause. -/
theorem witness_SchedulingInstructionResults :
    (let s : State := base;
      let a : BitVec 5 := 1;
      let r := s.cur;
      let c := s.c;
      let os := quadOthers r;
      let waits := fun o : CtxRef => (s.ctx o).st = .waiting ∧ (s.ctx o).wait = .gang;
      let n := (s.g a).toNat;
      let ready := s.drained r = true;
      ((s.nextReady r.site r.core r.ctx = none)) ∧ ((bits (s.g a) 16 48 = 0)) ∧
        ((c.gang = false) ∧ (c.fired = none) ∧ ((∃ o ∈ os, ¬ waits o))) ∧
        ((c.gang = false) ∧ (MayTrap s) ∧ (s.issue.dict = none)) ∧
        ((ready) ∧ (AtHome s) ∧ (65536 ≤ n ∨ s.recCount ≤ n))) ∧
    (let s : State := y1;
      let r := s.cur;
      let n := (2:Nat);
      (s.nextReady r.site r.core r.ctx = some n) ∧ (r.ctx < 4) ∧
        ((s.core r.site r.core).owner = some r.ctx)) ∧
    (let s : State := base.gw 1 0x10000;
      let a : BitVec 5 := 1;
      (bits (s.g a) 16 48 ≠ 0) ∧ (MayTrap s) ∧ (s.issue.dict = none)) ∧
    (let s : State := wg base;
      let r := s.cur;
      let c := s.c;
      let os := quadOthers r;
      let waits := fun o : CtxRef => (s.ctx o).st = .waiting ∧ (s.ctx o).wait = .gang;
      (c.gang = false) ∧ (c.fired = none) ∧ (c.st = .running) ∧ ((∀ o ∈ os, waits o)) ∧
        (s.gangFits r = true)) ∧
    (let s : State := wgNo;
      let r := s.cur;
      let c := s.c;
      let os := quadOthers r;
      let waits := fun o : CtxRef => (s.ctx o).st = .waiting ∧ (s.ctx o).wait = .gang;
      (c.gang = false) ∧ (c.fired = none) ∧ (c.st = .running) ∧ ((∀ o ∈ os, waits o)) ∧
        (s.gangFits r = false)) ∧
    (let s : State := gd (fd base 0);
      let r := s.cur;
      let c := s.c;
      let os := quadOthers r;
      (c.gang = false) ∧ (c.fired = some 0) ∧ ((∀ o ∈ os, (s.ctx o).wait = .gangDone))) ∧
    (let s : State := fd base 2;
      let c := s.c;
      let v := (2:Nat);
      (c.gang = false) ∧ (c.fired = some v) ∧ (v ≠ 0)) ∧
    (let s : State := ga base;
      let c := s.c;
      (c.gang = true)) ∧
    (let s : State := (base.modC fun c => {c with ocs := 1});
      let r := s.cur;
      let ready := s.drained r = true;
      (¬ ready)) ∧
    (let s : State := lr 3 3 0;
      let a : BitVec 5 := 1;
      let r := s.cur;
      let c := s.c;
      let n := (s.g a).toNat;
      let rec0 := s.recDw n 0;
      let ready := s.drained r = true;
      (ready) ∧ (AtHome s) ∧ (n < 65536) ∧ (n < s.recCount) ∧ (bits rec0 32 16 ≠ c.asid.toNat ∨ bit rec0 3 =
        false)) ∧
    (let s : State := lr 3 3 8;
      let a : BitVec 5 := 1;
      let r := s.cur;
      let c := s.c;
      let n := (s.g a).toNat;
      let rec0 := s.recDw n 0;
      let mine := n < 65536 ∧ n < s.recCount ∧ bits rec0 32 16 = c.asid.toNat ∧ bit rec0 3 = true;
      let ready := s.drained r = true;
      (ready) ∧ (HostFree s) ∧ (mine) ∧ (s.recIdle n = true) ∧ ((∀ l ∈ s.launches, l.lser < s.nextLser))) ∧
    (let s : State := lr 3 3 9;
      let a : BitVec 5 := 1;
      let r := s.cur;
      let c := s.c;
      let n := (s.g a).toNat;
      let rec0 := s.recDw n 0;
      let mine := n < 65536 ∧ n < s.recCount ∧ bits rec0 32 16 = c.asid.toNat ∧ bit rec0 3 = true;
      let ready := s.drained r = true;
      (ready) ∧ (AtHome s) ∧ (mine) ∧ (s.recIdle n = false)) := by
  refine ⟨?_, ?_, ?_, ?_, ?_, ?_, ?_, ?_, ?_, ?_, ?_, ?_⟩ <;>
    (first | decide +kernel | (dsimp only [MayTrap, NoneParked, HostFree, AtHome]; decide +kernel))

end Scheduling

namespace Launches

def lpb (s : State) : State := (s.setHreg 0 0x3200 0x4000).setHreg 0 0x3208 8
def rcd (n : Nat) (dw : Nat → Nat) (s : State) : State :=
  (List.range 32).foldl (fun s i => s.setDword (0x4000+256*n+8*i) (BitVec.ofNat 64 (dw i))) s
def good (succ : Nat) (ready : Nat) : Nat → Nat := fun i =>
if i = 0 then 4 + 8 + ready else if i = 2 then 0x5000 else if i = 3 then 0 else if i = 4 then
  succ else if i = 19 then 1 + 128 + 16384 + 2^21 + 2^35 + 2^49 else 0
def noS : Nat := 0xFFFFFFFFFFFFFFFF
def L (s : State) (n ser : Nat) (infl : Bool) (nb run code : Nat) : Launch :=
  ⟨n, ser, (List.range 32).map (s.recDw n), [], infl, nb, run, code, none⟩
def s0 : State := rcd 3 (good noS 0) (lpb base)
def sd : State := rcd 3 (good noS 2) (lpb base)
def wl (l : Launch) (s : State) : State := {s with launches := [l], nextLser := 5}
def s1 : State := wl (L sd 3 4 true 0 0 0) sd   -- to deal
def s2 : State := wl (L sd 3 4 true 1 0 0) sd   -- done
def s3 : State := s2.modHub 0 fun u => {u with tasks := [⟨3,4,0,0⟩]} -- to dispatch
def s4 : State := wl (L (rcd 3 (fun i => if i = 19 then 64 + 128 + 16384 + 2^21 + 2^35 + 2^49 else
  good noS 2 i) (lpb base)) 3 4 true 0 0 0) sd |>.setHreg 0 0x1400 0x11100
def sDue : State := wl (L sd 3 4 false 0 0 0) sd   -- to start
def stopped : State := s3.setHreg 0 0x3608 0x10

/-- States and operands that meet the hypotheses of `Obligations.LaunchEvents`, clause by clause. -/
theorem witness_LaunchEvents :
    (let s : State := s0;
      let n : Nat := 3;
      let site : Nat := 0;
      let start := s.launches.find? (fun x => x.lrec = n ∧ x.inflight ∧ x.code = 0 ∧ x.nextBlock <
          x.blocks);
      ((HostFree s) ∧ (n < s.recCount) ∧ (s.recIdle n = true) ∧ ((∀ l ∈ s.launches, l.lser < s.nextLser))) ∧
        ((s.launches.find? (fun x => x.lrec = n ∧ s.launchDone x) = none)) ∧ ((s.startDue n = none) ∧ (start = none)) ∧
        ((bit (s.sreg site 0x3608) 4 = false) ∧ (s.firstPlaced site (s.candidates site) = none))) ∧
    (let s : State := s0;
      let n : Nat := 9;
      (AtHome s) ∧ (s.recCount ≤ n ∨ s.recIdle n = false)) ∧
    (let s : State := s1;
      let n : Nat := 3;
      let l : Launch := L sd 3 4 true 0 0 0;
      let start := s.launches.find? (fun x => x.lrec = n ∧ x.inflight ∧ x.code = 0 ∧ x.nextBlock <
          x.blocks);
      let d := (s.launchDies l).getD ((l.lseq + l.nextBlock) % (s.launchDies l).length) 0;
      let tasks := (s.hub (s.phys d)).tasks;
      (s.startDue n = none) ∧ (start = some l) ∧ (s.launchDies l ≠ []) ∧ (s.everPlaced d l = true) ∧
        (tasks.length + l.nstm1 + 1 ≤ 4096)) ∧
    (let s : State := s2;
      let n : Nat := 3;
      let l : Launch := L sd 3 4 true 1 0 0;
      (HostFree s) ∧ (s.launches.find? (fun x => x.lrec = n ∧ s.launchDone x) = some l)) ∧
    (let s : State := sDue;
      let n : Nat := 3;
      let l : Launch := L sd 3 4 false 0 0 0;
      (HostFree s) ∧ (s.startDue n = some l) ∧ (s.launch l.lser = some l) ∧ (l.bcnt = 0) ∧
        (bit (s.recDw n 1) 41 = false)) ∧
    (let s : State := s3;
      let site : Nat := 0;
      let l : Launch := L sd 3 4 true 1 0 0;
      let task := (⟨3,4,0,0⟩ : TaskRec);
      let core := (0:Nat);
      let k := (1:Nat);
      (bit (s.sreg site 0x3608) 4 = false) ∧ (s.firstPlaced site (s.candidates site) =
        some (l, task, [(core, k)])) ∧ (l.fps = []) ∧ (k < 4)) ∧
    (let s : State := s4;
      let n : Nat := 3;
      let l : Launch := s4.launches.headD (L sd 3 4 true 1 0 0);
      let start := s.launches.find? (fun x => x.lrec = n ∧ x.inflight ∧ x.code = 0 ∧ x.nextBlock <
          x.blocks);
      let d := (s.launchDies l).getD ((l.lseq + l.nextBlock) % (s.launchDies l).length) 0;
      (s.startDue n = none) ∧ (start = some l) ∧ (s.launchDies l ≠ []) ∧ (s.everPlaced d l = false)) ∧
    (let s : State := stopped;
      let site : Nat := 0;
      (bit (s.sreg site 0x3608) 4 = true)) := by
  refine ⟨?_, ?_, ?_, ?_, ?_, ?_, ?_, ?_⟩ <;>
    (first | decide +kernel | (dsimp only [HostFree, AtHome]; decide +kernel))

end Launches

namespace HostQueues

def lpb (s : State) : State := (s.setHreg 0 0x3200 0x4000).setHreg 0 0x3208 8
def hq (st ctl base tail prog : Nat) (s : State) : State :=
((((s.setHreg 0 0x3028 (BitVec.ofNat 64 st)).setHreg 0 0x3008 (BitVec.ofNat 64 ctl)).setHreg 0
  0x3000 (BitVec.ofNat 64 base)).setHreg 0 0x3010 (BitVec.ofNat 64 tail)).setHreg 0 0x3018
  (BitVec.ofNat 64 prog)
def ent (pa : Nat) (a b c : Nat) (s : State) : State :=
  ((s.setDword pa (BitVec.ofNat 64 a)).setDword (pa+8) (BitVec.ofNat 64 b)).setDword (pa+16)
  (BitVec.ofNat 64 c)
def e0 (a b c : Nat) : State := ent 0x5000 a b c (hq 1 5 0x5000 2 0 (lpb base))
def it (s : State) : State := s.modHub 0 fun u => u.modHq 0 fun q => {q with
  items := [.signal false]}
def sw (v : W64) (s : State) : State := s.modHub 0 fun u => u.modHq 0 fun q => {q with
  switch := some v}

/-- States and operands that meet the hypotheses of `Obligations.HostQueueEvents`, clause by clause. -/
theorem witness_HostQueueEvents :
    (let s : State := e0 0 0 0;
      let site : Nat := 0;
      let slot : Nat := 0;
      let pa : Nat := 0x5000;
      let n : Nat := 0;
      let v : W64 := 3;
      let q := s.hqRun site slot;
      let st := s.hqState site slot;
      let prog := bits (s.hqReg site slot 0x18) 0 32;
      let size := bits (s.hqReg site slot 0x08) 1 5;
      let kind := bits (s.dword pa) 0 4;
      let here := AtHome s ∧ s.hqNext site slot = some (n, pa);
      ((here) ∧ (kind = 0) ∧ (q.items = [])) ∧ ((slot < 4) ∧ (st = 1) ∧
        ((bits v 0 32 + 4294967296 - prog) % 4294967296 ≤ 2 ^ size)) ∧ ((slot < 4) ∧ (st ≠ 2)) ∧
        ((slot < 4) ∧ (st ≠ 2) ∧ (q.desc = none)) ∧ (((s.die site).tqheld = []))) ∧
    (let s : State := e0 3 0 0;
      let site : Nat := 0;
      let slot : Nat := 0;
      let pa : Nat := 0x5000;
      let n : Nat := 0;
      let kind := bits (s.dword pa) 0 4;
      let here := AtHome s ∧ s.hqNext site slot = some (n, pa);
      (here) ∧ (2 < kind)) ∧
    (let s : State := e0 (1+0x90000) 0 0;
      let site : Nat := 0;
      let slot : Nat := 0;
      let pa : Nat := 0x5000;
      let n : Nat := 0;
      let kind := bits (s.dword pa) 0 4;
      let here := AtHome s ∧ s.hqNext site slot = some (n, pa);
      let rec0 := bits (s.dword pa) 16 16;
      (here) ∧ (kind = 1) ∧ (s.recCount ≤ rec0)) ∧
    (let s : State := e0 (1+0x30000) 0 0;
      let site : Nat := 0;
      let slot : Nat := 0;
      let pa : Nat := 0x5000;
      let n : Nat := 0;
      let q := s.hqRun site slot;
      let kind := bits (s.dword pa) 0 4;
      let here := AtHome s ∧ s.hqNext site slot = some (n, pa);
      let rec0 := bits (s.dword pa) 16 16;
      (here) ∧ (kind = 1) ∧ (rec0 < s.recCount) ∧ (s.recIdle rec0 = true) ∧ (q.items = []) ∧
        ((∀ l ∈ s.launches, l.lser < s.nextLser))) ∧
    (let s : State := (e0 (1+0x30000) 0 0).setDword 0x4300 1;
      let site : Nat := 0;
      let slot : Nat := 0;
      let pa : Nat := 0x5000;
      let n : Nat := 0;
      let kind := bits (s.dword pa) 0 4;
      let here := AtHome s ∧ s.hqNext site slot = some (n, pa);
      let rec0 := bits (s.dword pa) 16 16;
      (here) ∧ (kind = 1) ∧ (rec0 < s.recCount) ∧ (s.recIdle rec0 = false)) ∧
    (let s : State := it (e0 2 0x8001 7);
      let site : Nat := 0;
      let slot : Nat := 0;
      let pa : Nat := 0x5000;
      let n : Nat := 0;
      let q := s.hqRun site slot;
      let kind := bits (s.dword pa) 0 4;
      let here := AtHome s ∧ s.hqNext site slot = some (n, pa);
      (here) ∧ (kind = 2) ∧ (q.items ≠ [])) ∧
    (let s : State := e0 2 0x8001 0x1234567;
      let site : Nat := 0;
      let slot : Nat := 0;
      let pa : Nat := 0x5000;
      let n : Nat := 0;
      let q := s.hqRun site slot;
      let kind := bits (s.dword pa) 0 4;
      let here := AtHome s ∧ s.hqNext site slot = some (n, pa);
      let a := (s.dword (pa + 8)).toNat / 8 * 8 % 4503599627370496;
      (here) ∧ (kind = 2) ∧ (q.items = []) ∧ (s.hasTarget a = true) ∧ (paRegion a = 0)) ∧
    (let s : State := hq 0 0 0 0 0 base;
      let site : Nat := 0;
      let slot : Nat := 0;
      let st := s.hqState site slot;
      (slot < 4) ∧ (st = 0 ∨ st = 3)) ∧
    (let s : State := hq 1 5 0x5000 0 0 base;
      let site : Nat := 0;
      let slot : Nat := 0;
      let v : W64 := 5;
      let st := s.hqState site slot;
      let prog := bits (s.hqReg site slot 0x18) 0 32;
      let size := bits (s.hqReg site slot 0x08) 1 5;
      (slot < 4) ∧ (st = 1) ∧ (2 ^ size < (bits v 0 32 + 4294967296 - prog) % 4294967296)) ∧
    (let s : State := hq 2 5 0x5000 0 0 base;
      let site : Nat := 0;
      let slot : Nat := 0;
      let st := s.hqState site slot;
      (st = 2)) ∧
    (let s : State := sw 0 (hq 2 5 0x5000 0 0 base);
      let site : Nat := 0;
      let slot : Nat := 0;
      let v : W64 := 0;
      let q := s.hqRun site slot;
      let st := s.hqState site slot;
      (slot < 4) ∧ (st = 2) ∧ (q.switch = some v) ∧ (bit v 0 = false)) ∧
    (let s : State := sw 0x6001 (((hq 2 5 0x5000 0 0 base).setDword 0x6000 0x7FFF).setDword 0x6020
      0x5);
      let site : Nat := 0;
      let slot : Nat := 0;
      let v : W64 := 0x6001;
      let q := s.hqRun site slot;
      let st := s.hqState site slot;
      (slot < 4) ∧ (st = 2) ∧ (q.switch = some v) ∧ (bit v 0 = true) ∧ (AtHome s) ∧ (s.reqs = []) ∧
        (∀ k, (s.die k).rdc = []) ∧ (paRegion (bits v 6 46 * 64) < 3)) := by
  have h : ∀ k, ((sw 0x6001 (((hq 2 5 0x5000 0 0 base).setDword 0x6000 0x7FFF).setDword 0x6020 0x5)).die k).rdc = [] := by
    intro k; cases k <;> rfl
  refine ⟨?_, ?_, ?_, ?_, ?_, ?_, ?_, ?_, ?_, ?_, ?_, ?_, ?_, ?_, ?_, ?_, ?_, h, ?_⟩ <;>
    (first | decide +kernel | (dsimp only [HostFree, AtHome]; decide +kernel))

end HostQueues

namespace Contexts

def r0 : CtxRef := ⟨0,0,0⟩
def m (f : Ctx → Ctx) (s : State) : State := s.modC f
def lch : Launch := ⟨3,4,[],[],true,1,1,0,none⟩
def tk (s : State) : State := {(s.modC fun c => {c with task := some ⟨3,4,0,0,0⟩}) with
  launches := [lch]}
def w0 (held seen : Bool) : Watch := ⟨r0, 2, 0x8000, 0x8000, 5, held, seen⟩

/-- States and operands that meet the hypotheses of `Obligations.ContextEvents`, clause by clause. -/
theorem witness_ContextEvents :
    (let s : State := m (fun c => {c with pendAsync := [(7, 9), (0x22, 1)]}) base;
      let r : CtxRef := r0;
      let code : Nat := 7;
      let v : W64 := 9;
      let c := s.ctx r;
      let d := s.die r.site;
      let hidden := bits d.tqctl 0 3 = 0;
      let alone := c.gang = false;
      let lone := alone ∧ hidden ∧ c.inTrap = false;
      let boundary := (c.st = .running ∨ c.st = .ready) ∧ c.mid = false ∧ c.redo = false ∧ c.fired = none;
      let lim := if bits d.nplim 0 32 = 0 then 65536 else bits d.nplim 0 32;
      ((lone) ∧ (boundary) ∧ (NoneParked s r) ∧ (c.preReq = false ∧ c.testReq = false) ∧ (c.pendStore = []) ∧ ((code, v) ∈ c.pendAsync) ∧
        ((∀ x ∈ c.pendAsync, x = (code, v) ∨ code < x.1))) ∧ ((c.fatal = none)) ∧
        ((c.npcount.toNat < lim ∨ c.npsec = false)) ∧ ((alone) ∧
        ((c.preReq = false ∧ c.testReq = false) ∨ s.mayPreempt r = false)) ∧ ((c.st ≠ .preempted ∨ c.chosen = false)) ∧
        ((c.st ≠ .halting ∨ s.quiet r = false)) ∧ ((c.st ≠ .ready ∨ (s.core r.site r.core).owner =
        none))) ∧
    (let s : State := m (fun c => {c with
      pendAsync := [(7, 9), (0x22, 1)], pendStore := [(8, 9), (9,0)]}) base;
      let r : CtxRef := r0;
      let code : Nat := 8;
      let v : W64 := 9;
      let c := s.ctx r;
      let d := s.die r.site;
      let hidden := bits d.tqctl 0 3 = 0;
      let alone := c.gang = false;
      let lone := alone ∧ hidden ∧ c.inTrap = false;
      let boundary := (c.st = .running ∨ c.st = .ready) ∧ c.mid = false ∧ c.redo = false ∧ c.fired = none;
      let rest := ([(9,0)] : List (Nat × W64));
      (lone) ∧ (boundary) ∧ (NoneParked s r) ∧ (c.pendStore = (code, v) :: rest) ∧ ((∀ x ∈ rest, code ≤ x.1))) ∧
    (let s : State := base;
      let r : CtxRef := r0;
      let c := s.ctx r;
      let alone := c.gang = false;
      (alone) ∧ (c.preReq = false ∧ c.testReq = false) ∧ (c.pendStore = []) ∧ (c.pendAsync = [])) ∧
    (let s : State := tk (m (fun c => {c with fatal := some (0x30, 9)}) base);
      let r : CtxRef := r0;
      let code : Nat := 0x30;
      let v : W64 := 9;
      let c := s.ctx r;
      let alone := c.gang = false;
      let quietEnd := alone ∧ s.cgroup c.asid.toNat = 0 ∧ bit (s.hreg (s.phys r.site) 0x3608) 3 =
          false;
      (c.fatal = some (code, v)) ∧ (c.st ≠ .free) ∧ (quietEnd)) ∧
    (let s : State := tk (m (fun c => {c with npsec := true, npcount := 65536}) base);
      let r : CtxRef := r0;
      let c := s.ctx r;
      let d := s.die r.site;
      let alone := c.gang = false;
      let quietEnd := alone ∧ s.cgroup c.asid.toNat = 0 ∧ bit (s.hreg (s.phys r.site) 0x3608) 3 =
          false;
      let lim := if bits d.nplim 0 32 = 0 then 65536 else bits d.nplim 0 32;
      (c.npsec = true) ∧ (lim ≤ c.npcount.toNat) ∧ (c.st ≠ .free) ∧ (c.st ≠ .stopped) ∧ (quietEnd)) ∧
    (let s : State := tk (m (fun c => {c with
        preReq := true, held := [2], want := 1, v := Vector.replicate 16 (List.replicate 32 5) }) base);
      let r : CtxRef := r0;
      let c := s.ctx r;
      let alone := c.gang = false;
      let boundary := (c.st = .running ∨ c.st = .ready) ∧ c.mid = false ∧ c.redo = false ∧ c.fired = none;
      (alone) ∧ (boundary) ∧ (c.preReq = true ∨ c.testReq = true) ∧ (s.mayPreempt r = true) ∧ (c.pendStore = []) ∧ RealCtx r ∧
        r.site < 64 ∧ c.claim ≤ 8 ∧ (∀ q ∈ (s.octet r.site (octetOf r.core)).sfuq, q.who ≠ r) ∧ 3 < 32 * c.claim ∧ 3 < (c.rv 2).length) ∧
    (let s : State := tk (m (fun c => {c with
      st := .preempted, chosen := true, tvec := 0x1234}) (base.setDword (savePa r0 0x10) 0x7777));
      let r : CtxRef := r0;
      let c := s.ctx r;
      let alone := c.gang = false;
      let s1 := (s.reserve r.site (octetOf r.core)).reserveSlots r;
      (alone) ∧ (c.st = .preempted) ∧ (c.chosen = true) ∧ ((s.core r.site r.core).retired = false) ∧
        (s1.reserved r = true) ∧ (s1.resumeRoom [r] = true)) ∧
    (let s : State := tk (m (fun c => {c with st := .halting}) base);
      let r : CtxRef := r0;
      let c := s.ctx r;
      (HostFree s) ∧ (c.st = .halting) ∧ (s.quiet r = true)) ∧
    (let s : State := tk (m (fun c => {c with st := .waiting, wait := .gang}) base);
      let r : CtxRef := r0;
      let c := s.ctx r;
      (c.st = .waiting) ∧ (c.wait = .gang)) ∧
    (let s : State := (tk (m (fun c => {c with
      st := .waiting, wait := .waitb 2}) base)).modDie 0 fun d => {d with
      girthTo := d.girthTo.set 2 100};
      let r : CtxRef := r0;
      let c := s.ctx r;
      let d := s.die r.site;
      let hidden := bits d.tqctl 0 3 = 0;
      let alone := c.gang = false;
      let lone := alone ∧ hidden ∧ c.inTrap = false;
      let g : BitVec 3 := (2 : BitVec 3);
      (lone) ∧ (c.st = .waiting) ∧ (c.wait = .waitb g) ∧
        (bits (d.girthTo.toList.getD g.toNat 0) 0 32 ≠ 0)) ∧
    (let s : State := tk (m (fun c => {c with st := .waiting, wait := .waita 0}) {base with
      watches := [w0 true true]});
      let r : CtxRef := r0;
      let c := s.ctx r;
      let alone := c.gang = false;
      ((c.wait = .waita 0)) ∧ (
        let i := (2:Nat);
        let k := (0 : BitVec 3);
        (alone) ∧ (c.st = .waiting) ∧ (c.wait = .waita k) ∧
          (s.firstWatch r (fun w => w.held && w.seen) = some i))) ∧
    (let s : State := tk (m (fun c => {c with st := .waiting, wait := .waita 2}) {base with
      watches := [w0 false true]});
      let r : CtxRef := r0;
      let c := s.ctx r;
      let alone := c.gang = false;
      (let k : BitVec 3 := (2 : BitVec 3);
        (alone) ∧ (c.st = .waiting) ∧ (c.wait = .waita k) ∧ (k ≠ 0)) ∧ (
        let i := (2:Nat);
        let k := (2 : BitVec 3);
        (alone) ∧ (s.watchReady r ((s.watches.filter fun w => w.who == r && !w.held).map (·.pa)) = (s, true)) ∧
          (c.st = .waiting) ∧ (c.wait = .waita k) ∧
          (s.firstWatch r (fun w => !w.held && s.watchValue w.pa != w.expect) = some i))) ∧
    (let s : State := tk (m (fun c => {c with st := .ready}) {base with
      watches := [w0 false true]});
      let r : CtxRef := r0;
      let c := s.ctx r;
      (c.st = .ready) ∧ ((s.core r.site r.core).owner ≠ none)) := by
  refine ⟨?_, ?_, ?_, ?_, ?_, ?_, ?_, ?_, ?_, ?_, ?_, ?_, ?_⟩ <;>
    (first | decide +kernel | (dsimp only [NoneParked, HostFree, RealCtx]; decide +kernel))

end Contexts

namespace DieControl

def nt (s : State) : State := s.modC fun _ => Ctx.reset
def tst (f : State) : State := f.modDie 0 fun d => {d with
  testing := some (0, [0]), ststat := 0x100}
def big : State := (((base.setHreg 0 0x3610 1).modCtx ⟨0,0,2⟩ fun c => {c with
  st := .preempted, hold := true}).modCtx ⟨0,1,1⟩ fun c => {c with st := .waiting})
def grp (g : Nat) (s : State) : State := s.setDword (s.asidPa 0 + 8) (BitVec.ofNat 64 g)
/-- Group 5 is in its logged interval, with one undo record; no context of it is in use. -/
def logged : State := ({ base with groups := [(5, ⟨1, false⟩)] }).modHub 0 fun u => { u with
  undo := [⟨0x4000, 5, List.replicate 128 9, false⟩] }
def ck (b : Bool) (s : State) : State := s.modHub 0 fun u => {u with ckBusy := b}

/-- States and operands that meet the hypotheses of `Obligations.DieControlEvents`, clause by clause. -/
theorem witness_DieControlEvents :
    (let s : State := big;
      let site : Nat := 0;
      let core : Nat := 0;
      let g : Nat := 5;
      let h := s.phys site;
      ((s.inRect site core = true)) ∧ ((g ≠ 0) ∧ (s.groupLive g = false)) ∧
        ((g ≠ 0) ∧ (s.reqs = []) ∧ (∀ r ∈ s.liveCtxs, s.cgroup (s.ctx r).asid.toNat ≠ g)) ∧ (0 ∉ s.rollbacks) ∧
        ((s.busyTasks = true)) ∧ ((s.hub h).ckBusy = false ∨ s.rollbacks ≠ []) ∧
        (let r : CtxRef := ⟨0,0,2⟩;
          (s.ctx r).gang = false ∧ (s.ctx r).st = .preempted ∧ (s.ctx r).hold = true) ∧
        (let r : CtxRef := ⟨0,1,1⟩;
          RealCtx r ∧ r.site ∈ s.htDies h ∧ (s.ctx r).st ≠ .free ∧ (s.ctx r).st ≠ .stopped ∧ (s.ctx r).mid = false)) ∧
    (let s : State := ((base.setHreg 0 0x3610 1).modC fun c => {c with mid := true}).modCtx ⟨0,1,1⟩ fun c => {c with
      st := .stopped, prior := .waiting};
      let h := s.phys 0;
      (s.inRect 0 256 = false) ∧
        (RealCtx base.cur ∧ base.cur.site ∈ s.htDies h ∧ s.c.st ≠ .stopped ∧ s.c.mid = true) ∧
        (let r : CtxRef := ⟨0,1,1⟩;
          RealCtx r ∧ r.site ∈ s.htDies h ∧ (s.ctx r).st = .stopped ∧ (s.ctx r).prior ≠ .stopped)) ∧
    (let s : State := (big).modDie 0 fun d => {d with ststat := 255};
      let site : Nat := 0;
      let d := s.die site;
      let c := (0:Nat);
      (bit d.stctl 0 = true) ∧ (d.testing = none) ∧ (s.nextTested site = some c)) ∧
    (let s : State := (big).modDie 0 fun d => {d with ststat := 255, stctl := 0};
      let site : Nat := 0;
      let d := s.die site;
      (bit d.stctl 0 = false ∨ d.testing ≠ none)) ∧
    (let s : State := tst big;
      let site : Nat := 0;
      let d := s.die site;
      let c := (0:Nat);
      let l := ([0] : List Nat);
      (d.testing = some (c, l)) ∧ (s.testReady site c = false)) ∧
    (let s : State := tst (nt big);
      let site : Nat := 0;
      let d := s.die site;
      let c := (0:Nat);
      let l := ([0] : List Nat);
      (d.testing = some (c, l)) ∧ (s.testReady site c = true)) ∧
    (let s : State := grp 5 (nt base);
      (State.Inv s) ∧ (s.busyTasks = false) ∧ (s.ckHeld = [])) ∧
    (let s : State := { nt base with l2 := [⟨7, 0, true, true, false⟩] };
      (s.busyTasks = false) ∧ (s.ckHeld ≠ [])) ∧
    (let s : State := logged;
      let undone := s.hubs.flatMap fun e => e.2.undo.filter fun u => u.group = 5 && !u.dead;
      let group := Table.get (⟨0, false⟩ : CkGroup) s.groups 5;
      (s.reqs = []) ∧ (∀ r ∈ s.liveCtxs, s.cgroup (s.ctx r).asid.toNat ≠ 5) ∧ (group.st = 1) ∧ (group.ovf = false) ∧
        (∀ e ∈ s.dies, e.2.tqwait = []) ∧ (undone = [⟨0x4000, 5, List.replicate 128 9, false⟩]) ∧
        (∀ u ∈ undone, u.data.length = 128)) ∧
    (let s : State := grp 5 ({base with groups := [(5, ⟨1,true⟩)]});
      let g : Nat := 5;
      (g ≠ 0) ∧ (s.groupLive g = true)) ∧
    (let s : State := ck true (grp 5 ((nt base).setByte 0x1000000000007 8));
      let site : Nat := 0;
      let h := s.phys site;
      ((s.hub h).ckBusy = true) ∧ (s.rollbacks = []) ∧ ((s.hub h).ckWait = false)) := by
  refine ⟨?_, ?_, ?_, ?_, ?_, ?_, ?_, ?_, ?_, ?_, ?_⟩ <;>
    (first | decide +kernel | (dsimp only [State.Inv, RealCtx]; decide +kernel))

end DieControl

namespace Errors

def q0 : Mcast := ⟨4, .barrier 2 3, 0, 0, false, false, [0], []⟩
def qs (l : List Mcast) : State := {base with mcasts := l, sites := [0,1,2]}
def scr (v : Nat) (s : State) : State := s.setHreg 0 0x2008 (BitVec.ofNat 64 v)
def ec (line : Nat) (dirty : Bool) : RdcLine :=
  ⟨line, 0, List.replicate 128 1, List.replicate 128 true, List.replicate 128 dirty, none⟩
def gg (s : State) : State := (s.modDie 0 fun d => {d with
  girthMask := [(8, 3)], girthArr := [(8,3)]}).modC fun c => {c with
  st := .waiting, wait := .waitb 2}

/-- States and operands that meet the hypotheses of `Obligations.ErrorAndBarrierEvents`, clause by clause. -/
theorem witness_ErrorAndBarrierEvents :
    (let s : State := base.modCore 0 0 fun k => {k with
      l1 := [⟨5,[]⟩,⟨6,[]⟩], ic := [⟨5,[]⟩,⟨7,[]⟩]};
      let site : Nat := 0;
      let g : Nat := 2;
      let v := s.sreg site 0x2008;
      let n := bits v 7 29;
      ((bit (s.sreg site 0x2000) 0 = true) ∧ (n < 536870911)) ∧ ((s.gmoduleDone site g = false))) ∧
    (let s : State := base.setHreg 0 0x2000 0;
      let site : Nat := 0;
      (bit (s.sreg site 0x2000) 0 = false)) ∧
    (let s : State := scr (536870911*128 + 2^47) base;
      let site : Nat := 0;
      let v := s.sreg site 0x2008;
      let n := bits v 7 29;
      (bit (s.sreg site 0x2000) 0 = true) ∧ (n = 536870911)) ∧
    (let s : State := {(base.modDie 0 fun d => {d with rdc := [ec 5 true, ec 6 false]}) with
        l2 := [⟨7, 0, true, false, false⟩, ⟨8, 0, false, false, false⟩]};
      (s.rdcFind 0 5 = some (ec 5 true)) ∧ ((ec 5 true).dirty.any id = true) ∧
        (s.rdcFind 0 6 = some (ec 6 false)) ∧ ((ec 6 false).dirty.any id = false) ∧ (s.rdcFind 0 7 = none) ∧
        (s.l2.find? (fun x => x.line = 7) = some ⟨7, 0, true, false, false⟩ ∧ s.ownerOf 7 = none) ∧
        (s.l2.find? (fun x => x.line = 8) = some ⟨8, 0, false, false, false⟩ ∧ s.ownerOf 8 = none) ∧
        (s.inL2 9 = false)) ∧
    (let s : State := base.modCore 0 0 fun k => {k with
        regions := [(2, ⟨.exclusive ⟨0, 0⟩, 0x600, 2, 0, false, none⟩)]};
      let k := s.core 0 0;
      (0x16000 % 8 = 0 ∧ 0x16000 < 524288 ∧ k.overlaps (0x16000 / 64) 1 = false) ∧
        (0x1FF8 % 8 = 0 ∧ 0x1FF8 < 0x2000 ∧ (s.ctx ⟨0, 0, 0⟩).st ≠ .free) ∧
        ((k.region 2).used = true ∧ ⟨0, 0⟩ ∈ (k.region 2).holders) ∧ ((k.region 3).used = false)) ∧
    (let s : State := gg base;
      let site : Nat := 0;
      let g : Nat := 2;
      let d := s.die site;
      (∃ x : BitVec 3, s.c.st = .waiting ∧ s.c.wait = .waitb x ∧ x.toNat = g) ∧ (s.gmoduleDone site g = true) ∧ ((∀ m ∈ s.gmods site g,
        d.reported g (64 + m + 32 * d.gphase g) = true)) ∧ ((s.gspans site g = false ∨
        d.reported g site = true))) ∧
    (let s : State := qs [q0];
      let site : Nat := 0;
      let g : Nat := 2;
      let src : Nat := 3;
      let q : Mcast := q0;
      (q ∈ s.mcasts) ∧ (q.msg = .barrier g src) ∧ (q.hub = s.phys site) ∧ (site ∈ q.dests) ∧
        (q.path = []) ∧ (s.mcastFirst q = true)) ∧
    (let s : State := qs [{q0 with path := [⟨1, true, true⟩]}];
      let id : Nat := 4;
      let q : Mcast := {q0 with path := [⟨1, true, true⟩]};
      let seen := s.mcasts.find? (fun m => m.id = id) = some q;
      let x : Hop := ⟨1, true, true⟩;
      let rest := ([] : List Hop);
      (seen) ∧ (s.mcastFirst q = true) ∧ (q.path = x :: rest)) ∧
    (let s : State := qs [{q0 with dests := [0,2]}];
      let id : Nat := 4;
      let q : Mcast := {q0 with dests := [0,2]};
      let seen := s.mcasts.find? (fun m => m.id = id) = some q;
      (seen) ∧ (s.mcastFirst q = true) ∧ (q.path = []) ∧ ((s.mcastPorts q)[0]? = some 1) ∧
        ((s.mcastPorts q)[1]? = none)) ∧
    (let s : State := qs [{q0 with id := 9}, q0];
      let id : Nat := 4;
      let q : Mcast := q0;
      let seen := s.mcasts.find? (fun m => m.id = id) = some q;
      (seen) ∧ (s.mcastFirst q = false)) := by
  refine ⟨?_, ?_, ?_, ?_, ?_, ?_, ?_, ?_, ?_, ?_⟩ <;>
    decide +kernel

end Errors

namespace PowerControl

def R (o v : Nat) (s : State) : State := s.setHreg 0 o (BitVec.ofNat 64 v)
def ls (l : Lease) (s : State) : State := s.modDie 0 fun d => {d with lease := d.lease.set 0 l}
def tn : State := base.modC fun c => {c with pwrreq := 0x100, asid := 4}
def vc (n : Nat) (s : State) : State := [0,1,2,3].foldl (fun s i => R (0x5040+8*i) n s) s

/-- States and operands that meet the hypotheses of `Obligations.PowerEvents`, clause by clause. -/
theorem witness_PowerEvents :
    (let s : State := vc 3 base;
      let site : Nat := 0;
      let cl : Nat := 0;
      let row : Nat := 0;
      let n : Nat := 5;
      let v : W64 := 7;
      let l := (s.die site).leaseOf cl;
      let rows := fun r : Nat => s.vcode site (4 * cl + r) = s.rowTarget site (4 * cl + r);
      let tgt := s.rowTarget site row;
      let code := s.vcode site row;
      let cfg := s.sreg site 0x5008;
      let refreezes := if s.refreeze site then ¬ min 1000 n < bits cfg 21 10 else bits cfg 11 10 <
          min 1000 n;
      let thr := s.sreg site 0x5018;
      let ordered := bits v 21 10 < bits v 1 10 ∧ bits v 1 10 ≤ bits v 11 10 ∧ bits v 11 10 ≤ 1000;
      let twh := bits (s.sreg site 0x5020) 20 7;
      let cool := fun temp power : Nat => temp + 5 ≤ twh ∧ 10 * power < 9 * s.budget site;
      let w := s.sreg site 0x3400;
      let closed := fun temp : Nat => if twh ≤ temp then putBits w row 1 1 else w;
      let reads := fun temp x : Nat => if x = row then temp else Table.get 0 (s.die site).rowTemp x;
      ((code < tgt) ∧ (tgt < 64)) ∧ ((l.live = false)) ∧ ((¬ (∀ r, r < 4 → rows r))) ∧
        ((¬ refreezes)) ∧ ((¬ ordered)) ∧ (
        (bit thr 0 = false) ∧ (s.alarms site (s.junction site 127) true false ≠ 0) ∧
          (∀ d, d < s.nSites → d ≠ site → s.phys d ≠ s.phys site)) ∧ ((bit (s.sreg site 0x5038) 0 = false)) ∧
          ((s.dieIdle site = false)) ∧ (
        let temp := (100 :Nat);
        let r := (0:Nat);
        (row < 16) ∧ (r < 16) ∧ (s.budget site < 10000) ∧ (bit (closed 10) r = false) ∧
          (∀ x, x < 16 → x ≠ r → bit (closed 10) x = false → reads 10 x < reads 10 r) ∧ ¬ cool temp 3 ∧ 3 ≤ s.budget site) ∧ (
        let temp := (10:Nat);
        let power := (3:Nat);
        (power ≤ s.budget site) ∧ (cool temp power))) ∧
    (let s : State := R 0x3400 0xFFFE base;
      let w := s.sreg 0 0x3400;
      let twh := bits (s.sreg 0 0x5020) 20 7;
      let closed := fun temp : Nat => if twh ≤ temp then putBits w 0 1 1 else w;
      (s.budget 0 < 10000) ∧ (∀ x, x < 16 → x ≠ 0 → bit w x = true) ∧ (bit (closed 100) 0 = true)) ∧
    (let s : State := vc 60 base;
      let site : Nat := 0;
      let core : Nat := 1;
      let row : Nat := 0;
      let n : Nat := 5;
      let tgt := s.rowTarget site row;
      let code := s.vcode site row;
      ((tgt < code)) ∧ ((s.busyCtxs site core = []) ∧ (n ≠ 0))) ∧
    (let s : State := R 0x5018 1 (ls ⟨.sprint,4,5⟩ tn);
      let site : Nat := 0;
      let cl : Nat := 0;
      let row : Nat := 0;
      let n : Nat := 950;
      let v : W64 := 0x1000000000+ 0x80000000+700*2+900*2048+200*2097152;
      let l := (s.die site).leaseOf cl;
      let tgt := s.rowTarget site row;
      let code := s.vcode site row;
      let cfg := s.sreg site 0x5008;
      let refreezes := if s.refreeze site then ¬ min 1000 n < bits cfg 21 10 else bits cfg 11 10 <
          min 1000 n;
      let thr := s.sreg site 0x5018;
      let ordered := bits v 21 10 < bits v 1 10 ∧ bits v 1 10 ≤ bits v 11 10 ∧ bits v 11 10 ≤ 1000;
      ((code = tgt)) ∧ ((l.live = true)) ∧ ((refreezes)) ∧
        ((bit thr 0 = true) ∧ (s.alarms site (bit thr 1) (bit thr 2) (bit thr 4) = 0)) ∧ ((ordered)) ∧
        (∀ d, d < s.nSites → d ≠ site → s.phys d ≠ s.phys site)) ∧
    (let s : State := R 0x5018 5 base;
      let thr := s.sreg 0 0x5018;
      s.alarms 0 (bit thr 1) (bit thr 2) (bit thr 4) ≠ 0) ∧
    (let s : State := (vc 30 (ls ⟨.rampdown,4,5⟩ tn));
      let site : Nat := 0;
      let cl : Nat := 0;
      let l := (s.die site).leaseOf cl;
      let rows := fun r : Nat => s.vcode site (4 * cl + r) = s.rowTarget site (4 * cl + r);
      (cl < 4) ∧ (l.st = .rampdown) ∧ ((∀ r, r < 4 → rows r)) ∧
        ((∀ k, k < 64 → 1 ≤ (s.core site (64 * cl + k)).div))) ∧
    (let s : State := R 0x5010 1 (R 0x5000 0x400 (vc 50 (ls ⟨.rampup,4,5⟩ tn)));
      let site : Nat := 0;
      let cl : Nat := 0;
      let l := (s.die site).leaseOf cl;
      let rows := fun r : Nat => s.vcode site (4 * cl + r) = s.rowTarget site (4 * cl + r);
      (cl < 4) ∧ (l.st = .rampup) ∧ ((∀ r, r < 4 → rows r))) ∧
    (let s : State := (R 0x5038 0x8001 base).modHub 0 (fun u => {u with energy := [(3,9)]});
      let site : Nat := 0;
      let h := s.phys site;
      ((HostFree s) ∧ (bit (s.sreg site 0x5038) 0 = true)) ∧ (
        let a := (3:Nat);
        let k := (9:Nat);
        let pa := (bits (s.sreg site 0x5038) 12 40 * 4096 + 8 * a);
        (State.Inv s) ∧ (HostFree s) ∧ (s.groups = []) ∧ (bit (s.sreg site 0x5038) 0 = true) ∧ ((s.hub h).energy = [(a, k)]) ∧
          (paRegion pa = 0) ∧ (s.hasTarget pa = true))) ∧
    (let s : State := ((base.setByte (lmemPa 0 3 7) 6).modC fun _ => Ctx.reset).modHub 0 (fun u =>
      {u with energy := [(3,9)], tasks := [⟨3,4,0,0⟩]});
      let site : Nat := 0;
      let h := s.phys site;
      ((State.Inv s) ∧ (site < 64) ∧ (bit (s.sreg site 0x5030) 0 = true) ∧
        ((s.die site).gated = false) ∧ (s.dieIdle site = true)) ∧ (((s.hub h).tasks ≠ []))) := by
  refine ⟨?_, ?_, ?_, ?_, ?_, ?_, ?_, ?_, ?_⟩ <;>
    (first | decide +kernel | (dsimp only [State.Inv, HostFree]; decide +kernel))

end PowerControl

namespace BringUp

def z : State := ({State.reset with grade := 0, standby := true} : State).setHreg 0 0x6030 4
def on (s : State) : State := {s with mainPower := true}
def halt (s : State) : State := {s with bootstat := 0x4C}
def hs (h : Nat) (st : HubState) (s : State) : State := s.modHub h fun u => {u with st := st}
def tested : State := on (hs 0 .tested z)
def cfg : State := (((on (hs 0 .configured z)).setHreg 0 0x1000 0x80).setHreg 0 0x1200 1).setHreg 0
  0x1600 0x400
def good (s : State) : State := (((s.setHreg 0 0x8000 0).setHreg 0 0x8008
  0xABABABABABABABAB).setHreg 0 0x8010 0xABABABABABABABAB)
/-- Results of a hub that passes, with pairs that work or not. -/
def res (pairs : W64) : List W64 := List.replicate 12 0 ++ [0x7F0000 ||| pairs, 1]
def st (b : Nat) (s : State) : State := {s with
  starting := true, stage := 3, bootstat := BitVec.ofNat 64 b}

/-- States and operands that meet the hypotheses of `Obligations.BringUpEvents`, clause by clause. -/
theorem witness_BringUpEvents :
    (let s : State := z;
      let hub : Nat := 0;
      let off : Nat := 0x2000;
      let port : Nat := 3;
      let u := s.hub hub;
      ((s.mainPower = false) ∧ (s.halter = false) ∧ (s.starting = false)) ∧
        ((edgeHub hub = false ∨ s.mainPower = false ∨ s.halter = true)) ∧ ((u.st ≠ .clocked)) ∧
        ((s.bootHears hub = false)) ∧ ((off ∉ configOffs ∨ (u.st ≠ .tested ∧ u.st ≠ .configured))) ∧
        ((s.starting = false)) ∧ ((s.standby = true)) ∧ ((port < 16)) ∧
        ((edgeHub hub = true) ∧ (bit (s.hreg hub 0x6030) 2 = true))) ∧
    (let s : State := halt z;
      (s.mainPower = false) ∧ (s.halter = true)) ∧
    (let s : State := on z;
      let hub : Nat := 0;
      let port : Nat := 3;
      let u := s.hub hub;
      let live := s.mainPower = true ∧ s.halter = false;
      ((s.mainPower = true)) ∧ ((edgeHub hub = true) ∧ (live) ∧ (s.starting = false)) ∧
        ((live) ∧ (u.st = .off) ∧ (hub < 64) ∧ (edgeHub hub = true)) ∧
        ((port < 16) ∧ ((s.hub (cxlHub port)).st ≠ .failed) ∧ (s.mainPower = true))) ∧
    (let s : State := on (hs 1 .clocked z);
      let hub : Nat := 9;
      let port : Nat := 16;
      let u := s.hub hub;
      let live := s.mainPower = true ∧ s.halter = false;
      (let n := (1, 1);
        (live) ∧ (u.st = .off) ∧ (hub < 64) ∧ (edgeHub hub = false) ∧ (u.offer = none) ∧
          ((neighbours hub).find? (fun n => (s.hub n.2).st.offers) = some n)) ∧
          ((16 ≤ port ∨ (s.hub (cxlHub port)).st = .failed))) ∧
    (let s : State := on (hs 9 .clocked z);
      let hub : Nat := 9;
      let off : Nat := 0x5029;
      let u := s.hub hub;
      ((u.st ≠ .off)) ∧ ((u.st = .clocked)) ∧ ((hubReg off = none))) ∧
    (let s : State := on (hs 9 .linked z);
      let hub : Nat := 9;
      let u := s.hub hub;
      ((u.st = .linked) ∧ (s.halter = false) ∧ (hubGood true [] = false)) ∧ (hubGood true (res 0) = true) ∧ (s.badPairs hub (res 0) = [])) ∧
    (let s : State := on (hs 9 .linked (hs 1 .linked z));
      (hubGood true (res 0) = true) ∧ (s.badPairs 9 (res 0) ≠ []) ∧ (∃ k ∈ s.badPairs 9 (res 0), (s.hub k).st = .linked)) ∧
    (let s : State := on (hs 9 .linked (hs 1 .tested z));
      (hubGood true (res 0) = true) ∧ (s.badPairs 9 (res 0) ≠ []) ∧ (∀ k ∈ s.badPairs 9 (res 0), (s.hub k).st ≠ .linked)) ∧
    (let s : State := on ((hs 1 .clocked z).modHub 9 fun u => { u with offer := some (1, 4) });
      let u := s.hub 9;
      (((1, 1) : Nat × Nat) ∈ neighbours 9) ∧ (u.st = .off) ∧ (edgeHub 9 = false) ∧ (u.offer = some (1, 4)) ∧
        ((s.hub 1).st.offers = true)) ∧
    ((bits (5 : W64) 0 16 ≠ 0) ∧ (bits (0x10000 : W64) 0 16 = 0) ∧
      (let s : State := base.modCore 0 3 fun k => { k with regions := [(2, ⟨.retained 7, 0x600, 2, 0, false, none⟩)] };
        3 < 256 ∧ ((s.core (s.siteOf 0) 3).region 2).state = .retained 7)) ∧
    (let s : State := tested;
      let hub : Nat := 0;
      let off : Nat := 0x1200;
      let u := s.hub hub;
      ((s.bootHears hub = true) ∧ (s.halter = false) ∧ (u.st ≠ .configured)) ∧ (
        let e := (⟨0x7F,false⟩ : HubReg);
        (off ∈ configOffs) ∧ (hubReg off = some e) ∧ (u.st = .tested))) ∧
    (let s : State := good cfg;
      let hub : Nat := 0;
      let off : Nat := 0x1200;
      let u := s.hub hub;
      let named := s.namedBy hub;
      ((s.bootHears hub = true) ∧ (s.halter = false) ∧ (u.st = .configured) ∧ (named ≠ []) ∧
        ((∀ k ∈ hub :: named, s.serveErr named k = none))) ∧ (
        let e := (⟨0x7F,false⟩ : HubReg);
        (off ∈ configOffs) ∧ (hubReg off = some e) ∧ (u.st = .configured))) ∧
    (let off : Nat := 0x5020;
      let x := ((0x5020, 0x7FFFFFF) : Nat × W64);
      (x ∈ ([(0x2000, 0xFF), (0x3628, 0xFFFFFFFFFFFFF), (0x3630, 0xFFFFFFFFFF),
        (0x3640, 0xFFFFFFFFFFFFFFFF), (0x5010, 0xFFFFFF), (0x5020, 0x7FFFFFF), (0x5028, 0x7F),
        (0x5030, 0x1FFFF)] : List (Nat × W64))) ∧ (off = x.1)) ∧
    (let s : State := st 4 tested;
      (s.starting = true) ∧ (bits s.bootstat 4 2 < 2)) ∧
    (let s : State := ({st 0x28 tested with standby := false});
      ((s.starting = true) ∧ (2 ≤ bits s.bootstat 4 2)) ∧ ((s.standby = false))) := by
  refine ⟨?_, ?_, ?_, ?_, ?_, ?_, ?_, ?_, ?_, ?_, ?_, ?_, ?_, ?_, ?_⟩ <;>
    decide +kernel

end BringUp

namespace HostAndLinks

/-- Port 3 is trained, and its decoders map two ranges of host addresses: to module addresses from 0 and from 0x2000_0000_0000. -/
def up : State := {(base.setHreg 0 0x5000 7).modHub 0 (fun u => { u with linked := true }) with
  ports := 8, standby := true, hdm := [(6, ⟨true, 0, 4, 0, 0, 0⟩), (7, ⟨true, 16, 4, 0, 0, 0x200000000000⟩)]}
def lk (s : State) : State := {s with links := [(3, ⟨true, 5⟩), (4, ⟨true, 5⟩)]}
def mp (s : State) : State := s.setHreg 0 (0x1B80+40) 0x83
def l2h : State := {up with l2 := [⟨0x80, 0, false, true, true⟩]}
def q : Req := { id := 9, who := ⟨0,0,0⟩, asid := 0, va := 0, pa := 0x4000, home := 0, kind :=
                   .pop 0 3 1 .system, stage := .peer, refusals := 0, overtaken := 0, data := [],
                   value := 0, status := 0, install := false, orphan := false, device := false, uncached := false,
                   grp := 9, page := 4096, ext := none, fwd := [], replayed := false }
def pw (s : State) : State := ((s.setHreg 0 0x1B00 (BitVec.ofNat 64 (1 + 5*2 + 2^30 +
  2^48))).setHreg 0 0x1B08 0)
def q2 : Req := {q with pa := 2*2^48 + 2^30 + 0x40}

/-- States and operands that meet the hypotheses of `Obligations.HostAndLinkEvents`, clause by clause. -/
theorem witness_HostAndLinkEvents :
    let decoded := fun (s : State) addr pa => s.portUp 3 = true ∧ s.halter = false ∧ s.hdmPa 3 addr = some pa
    let calm := fun s : State => ∀ e ∈ s.dies, e.2.tqwait = []
    let entry := fun (s : State) port => bits (s.sreg 0 (0x1B80 + 8 * (s.link port).peer)) 0 5
    let ap := fun (s : State) off => s.portUp 3 = true ∧ off / 2147483648 % 2 = 1
    let reach := fun (s : State) off => s.treeReach 64 (off / 16777216 % 64)
    let band := fun (s : State) (hub : Nat) => (hub = 0 ∨ hub = 63) ∧ s.standby = true
    let there := fun s : State => decoded s 0x4001 0x4001 ∧ paRegion 0x4001 = 0 ∧ s.hasTarget 0x4001 = true ∧
      s.ownerOf (s.lineOf 0x4001) = none
    (let s : State := up.setByte 0x4001 5;
      there s ∧ calm s ∧ State.Inv s ∧ s.groups = [] ∧ (ap s 0x80000000 ∧ reach s 0x80000000 = true) ∧ band s 0 ∧ 4 < 32 ∧
        (s.link 3).up = false ∧ s.halter = false ∧ s.hdmPa 3 0x4000000000 = none ∧
        hdmOk ⟨true, 16, 4, 4, 6, 0⟩ = true) ∧
    (let s : State := up;
      (ap s 0x81000000 ∧ reach s 0x81000000 = false) ∧ ¬ band s 1 ∧
        (decoded s 0x100004001 0x200000004001 ∧ s.hasTarget 0x200000004001 = false)) ∧
    (let s : State := l2h;
      let off : Nat := 0x80;
      let b2 := bar2Pa off;
      let local_ := fun n : Nat => s.portUp 3 = true ∧ (n = 1 ∨ n = 2 ∨ n = 4 ∨ n = 8) ∧
          off % n = 0 ∧ off < 68719476736 ∧ s.hasTarget b2 = true ∧ off / 134217728 % 8 = 0;
      calm s ∧ (∃ l ∈ s.l2, l.line = off ∧ l.snooped = true) ∧
        (s.mainPower = true ∧ s.treeReach 64 0 = true ∧ off < 16777216) ∧ local_ 1 ∧ local_ 8 ∧ State.Inv s) ∧
    (let s : State := (lk (mp up)).setByte 0x4001 5;
      s.linkTakes 3 = true ∧ s.peerMay 0x4001 8 = true ∧ (s.link 3).up = true ∧ (s.link 4).up = true ∧
        s.peerMay 0x4001 ([7, 8] : List Byte).length = true ∧ entry s 3 = 3 ∧ entry s 4 ≠ 4 ∧ (∀ e ∈ s.cores, e.2.chunks = [])) ∧
    (let s : State := lk (mp up);
      let pa : Nat := 0x200000004001;
      s.linkTakes 3 = true ∧ s.peerMay pa 8 = false ∧ s.peerMay pa ([7, 8] : List Byte).length = false) ∧
    (let s : State := {lk (mp up) with mainPower := false};
      let off : Nat := 0x2028;
      s.mainPower = false ∧ s.portUp 3 = true ∧ off / 2147483648 % 2 = 0 ∧ s.hasTarget (mkPa 5 0 off) = true ∧
        s.hubRead (s.phys 0) off = some (1563 : W64)) ∧
    (let s : State := pw {up with reqs := [q2]};
      let w := (5, 0x40);
      s.req 9 = some q2 ∧ q2.stage = .peer ∧ s.peerWin q2.pa = some w ∧ s.linkUp w.1 = false ∧ (s.ctx q2.who).st ≠ .free) := by
  refine ⟨?_, ?_, ?_, ?_, ?_, ?_, ?_⟩ <;>
    (first | decide +kernel | (dsimp only [State.Inv]; decide +kernel))

end HostAndLinks

namespace Requests

def rq (k : ReqKind) (st : ReqStage) : Req := {
  id := 9, who := ⟨0,0,0⟩, asid := 0, va := 0x208040, pa := 0x8040, home := 0, kind := k, stage := st,
  refusals := 0, overtaken := 0, data := (List.range 128).map (BitVec.ofNat 8), value := 0x99,
  status := 1, install := true, orphan := false, device := false, uncached := false, grp := 9, page := 4096, ext := none, fwd := [], replayed := false }
def S (q : Req) : State := {base with
  reqs := [q], l2 := [⟨0x999, 0, false, false, false⟩], nextId :=
    20} |>.setBytes 0x8040 [9,8,7,6,5,4,3,2] |>.modC fun c => {c with
  ocl := 1, ocs := 1, st := .parked, wait := .replies [9]}
def rd : ReqKind := .reduce .add false 5 [(9, ⟨0,0,0⟩)]
def w1 : Req :=
  {rq (.reduce .add false 7 [(5, ⟨0,1,0⟩)]) .queued with id := 5, who := ⟨0,1,0⟩}
def sl (n m : Nat) (s : State) : State := {s with
  slices := (List.range 16).map fun i => (i, ⟨List.range n, [], (List.range m).map fun i => ⟨i, []⟩⟩)}
def inl (s : State) : State := {s with l2 := [⟨0x100, 0, false, false, false⟩]}
def ld : ReqKind := .load (.g 3 .h 2)
def at_ : ReqKind := .atomic (.op .add) false 5 4 .relaxed false
def pu : ReqKind := .push 8 0 6 .die
def sto : ReqKind := .store [(3,4)] 0
def pt (leaf : W64) (s : State) : State := ((((s.setDword 0 0x10001).setDword 0x10000
  0x11001).setDword 0x11000 0x12001).setDword 0x12000 0x13001).setDword 0x13008 leaf
def ms : Miss := ⟨0, 0x208, [⟨0,0,0⟩], false⟩
def wk : State := (base.modDie 0 fun d => {d with miss := [ms]}).modC fun c => {c with
  st := .parked, wait := .walk 0x208}

theorem noStw {s : State} (h : s.cores = base.cores) (core : Nat) : (s.core 0 core).stw = [] := by
  have e : s.core 0 core = Sys2Proof.Table.get Core.reset
      (Sys2Proof.Table.put [] 0 (base.core 0 0)) (0 * 256 + core) := by
    rw [State.core, h]; rfl
  rw [e, Sys2Proof.Table.get_put]
  split
  · decide +kernel
  · rfl

/-- States and operands that meet the hypotheses of `Obligations.MemoryEvents`, clause by clause. -/
theorem witness_MemoryEvents :
    (let s : State := inl (S (rq ld .sent));
      let q : Req := rq ld .sent;
      let id : Nat := 9;
      let site : Nat := 0;
      let core : Nat := 0;
      let line0 : Nat := 0x100;
      let line := s.lineOf q.pa;
      let k := s.sliceOfReq q;
      let sl := s.slice q.home k;
      let mine := s.req id = some q;
      let calm := q.direct = false ∧ s.hostHolds line = false ∧ line ∉ s.poison ∧ s.ownerOf line = none ∧ paRegion q.pa < 8;
      (let dst := (LoadDst.g 3 .h 2);
        (mine) ∧ (calm) ∧ (q.kind = .load dst) ∧ (s.mayLeave q = true) ∧ (s.inL2 line = true) ∧
          (sl.full q = false)) ∧ (((s.core site core).owned.any (fun o => o.line = line0) =
          false)) ∧ ((mine) ∧ (q.stage ≠ .done))) ∧
    (let s : State := sl 3 4 (S (rq ld .sent));
      let q : Req := rq ld .sent;
      let id : Nat := 9;
      let line := s.lineOf q.pa;
      let k := s.sliceOfReq q;
      let sl := s.slice q.home k;
      let mine := s.req id = some q;
      let calm := q.direct = false ∧ s.hostHolds line = false ∧ line ∉ s.poison ∧ s.ownerOf line = none ∧ paRegion q.pa < 8;
      let dst := LoadDst.g 3 .h 2;
      (mine) ∧ (calm) ∧ (q.kind = .load dst) ∧ (s.mayLeave q = true) ∧ (s.inL2 line = false) ∧
        (sl.full q = false) ∧ ((∀ m ∈ sl.miss, m.line ≠ line)) ∧ (sl.miss.length < 32)) ∧
    (let s : State := sl 14 4 (S (rq ld .sent));
      let q : Req := rq ld .sent;
      let id : Nat := 9;
      let line := s.lineOf q.pa;
      let k := s.sliceOfReq q;
      let sl := s.slice q.home k;
      let mine := s.req id = some q;
      let calm := q.direct = false ∧ s.hostHolds line = false ∧ line ∉ s.poison ∧ s.ownerOf line = none ∧ paRegion q.pa < 8;
      let dst := LoadDst.g 3 .h 2;
      (mine) ∧ (calm) ∧ (q.kind = .load dst) ∧ (s.mayLeave q = true) ∧ (sl.full q = true)) ∧
    (let s : State := sl 14 4 (S (rq ld (.refused 7)));
      let q : Req := rq ld (.refused 7);
      let id : Nat := 9;
      let mine := s.req id = some q;
      ((mine) ∧ (s.mayLeave q = false)) ∧ (
        let n := (7:Nat);
        (mine) ∧ (q.stage = .refused n))) ∧
    (let s : State := {S (rq ld .missing) with
      slices := (List.range 16).map fun i => (i, ⟨[], [], [⟨0x100,[]⟩, ⟨3,[]⟩]⟩)};
      let q : Req := rq ld .missing;
      let id : Nat := 9;
      let line := s.lineOf q.pa;
      let k := s.sliceOfReq q;
      let sl := s.slice q.home k;
      let mine := s.req id = some q;
      let calm := q.direct = false ∧ s.hostHolds line = false ∧ line ∉ s.poison ∧ s.ownerOf line = none ∧ paRegion q.pa < 8;
      let dst := LoadDst.g 3 .h 2;
      (mine) ∧ (calm) ∧ (q.kind = .load dst) ∧ (q.stage = .missing) ∧
        (s.inL2 line = true ∨ (s.l2.filter (L2Line.sameSet q.home line)).length < 16) ∧ (sl.miss.find? (fun m => m.line = line) = some ⟨line, []⟩) ∧ (sl.queue = [])) ∧
    (let s : State := (S (rq ld .missing)).modCore 0 0 fun k => {k with
      owned := [⟨0x100, 5, 0⟩, ⟨7, 7, 0⟩]};
      let site : Nat := 0;
      let core : Nat := 0;
      let line0 : Nat := 0x100;
      (((s.core site core).owned.any (fun o => o.line = line0) = true) ∧
        ((∃ x ∈ s.reqs, s.lineOf x.pa = line0 ∧ x.stage ≠ .done))) ∧
        (((s.core site core).owned.any (fun o => o.line = line0) = true))) ∧
    (let s : State := (S (rq ld .missing)).modCore 0 1 fun k => {k with owned := [⟨0x100, 5, 0⟩]};
      ((s.core 0 1).owned.any (fun o => o.line = 0x100) = true) ∧
        (∃ x ∈ s.reqs, s.lineOf x.pa = 0x100 ∧ x.stage ≠ .done ∧ (x.who.site ≠ 0 ∨ x.who.core ≠ 1))) ∧
    (let s : State := S (rq at_ .queued);
      let q : Req := rq at_ .queued;
      let id : Nat := 9;
      let line := s.lineOf q.pa;
      let k := s.sliceOfReq q;
      let sl := s.slice q.home k;
      let mine := s.req id = some q;
      let calm := q.direct = false ∧ s.hostHolds line = false ∧ line ∉ s.poison ∧ s.ownerOf line = none ∧ paRegion q.pa < 8;
      let word := fun dbl : Bool => if dbl then 8 else 4;
      let plainWord := fun dbl : Bool => State.Inv s ∧ s.groups = [] ∧ mine ∧ q.stage = .queued ∧ calm ∧
          paRegion q.pa = 0 ∧ q.pa % word dbl = 0;
      let o := AmoOp.add;
      let dbl := false;
      let v := (5 : W64);
      let x := (4 : BitVec 5);
      let ord := AmoOrd.relaxed;
      let near := false;
      (plainWord dbl) ∧ (q.kind = .atomic (.op o) dbl v x ord near) ∧ (id ∉ sl.queue)) ∧
    (let s : State := inl (S (rq rd .sent));
      let q : Req := rq rd .sent;
      let line := s.lineOf q.pa;
      let sl := s.slice q.home (s.sliceOfReq q);
      let calm := q.direct = false ∧ s.hostHolds line = false ∧ line ∉ s.poison ∧ s.ownerOf line = none ∧ paRegion q.pa < 8;
      let cs := [((9, ⟨0,0,0⟩) : Nat × CtxRef)];
      (s.req 9 = some q) ∧ (q.kind = .reduce .add false 5 cs) ∧ (cs ≠ []) ∧ (s.nextQueue q = some (0, none)) ∧
        (∀ w ∈ s.reqs, s.mergesWith none w q = false) ∧ (calm) ∧ (s.inL2 line = true) ∧ (sl.full q = false)) ∧
    (let q : Req := { rq rd .sent with home := 1 };
      let s : State := { S q with sites := [0, 1] };
      let place := some (0, false, 1);
      (s.req 9 = some q) ∧ (s.nextQueue q = some (0, place)) ∧ (∀ w ∈ s.reqs, s.mergesWith place w q = false)) ∧
    (let s : State := S (rq rd .queued);
      let q : Req := rq rd .queued;
      let id : Nat := 9;
      let line := s.lineOf q.pa;
      let mine := s.req id = some q;
      let calm := q.direct = false ∧ s.hostHolds line = false ∧ line ∉ s.poison ∧ s.ownerOf line = none ∧ paRegion q.pa < 8;
      let word := fun dbl : Bool => if dbl then 8 else 4;
      let plainWord := fun dbl : Bool => State.Inv s ∧ s.groups = [] ∧ mine ∧ q.stage = .queued ∧ calm ∧
          paRegion q.pa = 0 ∧ q.pa % word dbl = 0;
      let o := AmoOp.add;
      let dbl := false;
      let v := (5 : W64);
      (plainWord dbl) ∧ (s.inL2 line = true ∨ id ∉ (s.slice q.home (s.sliceOfReq q)).queue) ∧ (s.rollbacks = []) ∧
        (q.kind = .reduce o dbl v [(id, q.who)])) ∧
    (let s : State := {S (rq rd .sent) with
        reqs := [w1, rq rd .sent], slices := (List.range 16).map fun i => (i, ⟨[5], [], []⟩)};
      let q : Req := rq rd .sent;
      let id : Nat := 9;
      let mine := s.req id = some q;
      let o := AmoOp.add;
      let dbl := false;
      let v := (5 : W64);
      let cs := [((9, ⟨0,0,0⟩) : Nat × CtxRef)];
      let w := w1;
      let a := (7: W64);
      let ws := [((5, ⟨0,1,0⟩) : Nat × CtxRef)];
      (mine) ∧ (q.kind = .reduce o dbl v cs) ∧ (cs ≠ []) ∧ (s.nextQueue q = some (0, none)) ∧
        (s.reqs.find? (fun w => s.mergesWith none w q) = some w) ∧ (w.kind = .reduce o dbl a ws) ∧
        (s.req w.id = some w)) ∧
    (let s : State := S (rq ld .done);
      let q : Req := rq ld .done;
      let id : Nat := 9;
      let line := s.lineOf q.pa;
      let mine := s.req id = some q;
      let back := mine ∧ q.stage = .done ∧ q.orphan = false ∧ q.ext = none;
      let r := q.who;
      let d := (3 : BitVec 5);
      let m := LdMode.h;
      let off := (2:Nat);
      (back) ∧ (q.kind = .load (.g d m off)) ∧ (s.rdcFind r.site line = none) ∧ (q.fwd = [])) ∧
    (let q : Req := { rq ld .done with ext := some (3, 77) };
      let s : State := { S q with links := [(3, ⟨true, 5⟩)] };
      (s.req 9 = some q) ∧ (q.stage = .done) ∧ (q.ext = some (3, 77)) ∧ (q.kind = ld) ∧ ((s.link 3).up = true)) ∧
    (let q : Req := { rq (.writeback [(3, 4)] 64) .done with ext := some (3, 77) };
      let s : State := { S q with links := [(3, ⟨true, 5⟩)] };
      (s.req 9 = some q) ∧ (q.stage = .done) ∧ (q.ext = some (3, 77)) ∧ (q.kind = .writeback [(3, 4)] 64) ∧
        ((s.link 3).up = true)) ∧
    (let r : CtxRef := ⟨0, 0, 0⟩;
      let w : MissWait := ⟨r, 0, 0x900, false, true⟩;
      let s : State := base.modDie 0 fun d => { d with miss := [ms], missWait := [w] };
      let d := s.die r.site;
      (d.missWait.find? (fun w => w.who = r) = some w) ∧ (w.vpn < 4503599627370496) ∧
        (s.tlbFind r.site r.core w.asid (w.vpn * 4096) = none) ∧
        (∀ m ∈ d.miss, m.asid ≠ w.asid ∨ m.vpn ≠ w.vpn) ∧ (d.miss.length < 256)) ∧
    (let r : CtxRef := ⟨0, 0, 0⟩;
      let e : ReplayEntry := ⟨0, 0, 0x200080, [1, 2], true, .store, 0, false, 0, true, 0, 3, [], false⟩;
      let s : State := base.modCore 0 0 fun k => { k with rq := [e] };
      let t0 : TlbEntry := ⟨0, 0x200000, 0x200000, 0x2000EF#64, true⟩;
      let pa := t0.pa e.va.toNat;
      ((s.core 0 0).rq[0]? = some e) ∧ (s.replayReady r ((s.core 0 0).rq.take 0) e = true) ∧ (e.src = .store) ∧
        (s.engEntry r e.asid e.va false = (s, .entry t0)) ∧ (s.hasTarget pa = true) ∧ (s.noReg pa = false) ∧
        (leafD t0.leaf = true) ∧ (leafFmt t0.leaf = e.win) ∧ (s.storeRoom r e pa t0.leaf = true) ∧
        (leafCheck e.sys e.access t0.leaf pa e.va = none)) ∧
    (let s : State := S (rq at_ .done);
      let q : Req := rq at_ .done;
      let id : Nat := 9;
      let mine := s.req id = some q;
      let back := mine ∧ q.stage = .done ∧ q.orphan = false ∧ q.ext = none;
      let o := AtomOp.op AmoOp.add;
      let dbl := false;
      let v := (5 : W64);
      let d := (4 : BitVec 5);
      let ord := AmoOrd.relaxed;
      let near := false;
      (back) ∧ (q.kind = .atomic o dbl v d ord near) ∧ (d ≠ 0) ∧ (AmoOrd.acquires ord = none)) ∧
    (let s : State := S (rq pu .done);
      let q : Req := rq pu .done;
      let id : Nat := 9;
      let mine := s.req id = some q;
      let c := s.ctx q.who;
      let back := mine ∧ q.stage = .done ∧ q.orphan = false ∧ q.ext = none;
      let v := (8 : W64);
      let w := (0:Nat);
      let d := (6 : BitVec 5);
      let e := Scope.die;
      (back) ∧ (c.st ≠ .stopped) ∧ (q.kind = .push v w d e)) ∧
    (let s : State := S (rq sto .done);
      let q : Req := rq sto .done;
      let id : Nat := 9;
      let mine := s.req id = some q;
      let back := mine ∧ q.stage = .done ∧ q.orphan = false ∧ q.ext = none;
      let r := q.who;
      let bs := ([(3,4)] : List (Nat × Byte));
      (back) ∧ (q.kind = .store bs 0) ∧ ((∀ x ∈ s.reqs, x.id ≠ id → x.who ≠ r ∨ x.grp ≠ q.grp))) ∧
    (let s : State := wk;
      let site : Nat := 0;
      let idx : Nat := 0;
      let d := s.die site;
      let m := ms;
      let code := (0x09 : Nat);
      (d.miss[idx]? = some m) ∧ (idx ∈ walkersOf d.miss) ∧ ((∀ core, (s.core site core).stw = [])) ∧
        (HostFree s) ∧ (s.walkVa site m.asid (m.vpn * 4096) = .cause code)) ∧
    (let s : State := pt 0x2000CF wk;
      let site : Nat := 0;
      let idx : Nat := 0;
      let d := s.die site;
      let m := ms;
      let pa := (0x13008 : Nat);
      let e := (0x2000CF : W64);
      let size := (0x200000:Nat);
      (d.miss[idx]? = some m) ∧ (idx ∈ walkersOf d.miss) ∧ (m.setD = false) ∧
        ((∀ core, (s.core site core).stw = [])) ∧ (HostFree s) ∧ (s.walkVa site m.asid (m.vpn * 4096) =
        .leaf pa e size)) := by
  refine ⟨?_, ?_, ?_, ?_, ?_, ?_, ?_, ?_, ?_, ?_, ?_, ?_, ?_, ?_, ?_, ?_, ?_, ?_, ?_, ?_,
    ⟨?_, ?_, noStw rfl, ?_, ?_⟩, ⟨?_, ?_, ?_, noStw rfl, ?_, ?_⟩⟩ <;>
    (first | decide +kernel | (dsimp only [State.Inv, HostFree]; decide +kernel))

/-- R99, R277: the reply of a load at byte 2 of a line that holds 0, 1, 2, … writes 0x0302 to g3 and ends the wait. -/
theorem test_reply :
    (match exec (.replyArrival 9) (S (rq ld .done)) with
      | .next t => decide (t.g 3 = 0x0302 ∧ t.c.ocl = 0 ∧ t.c.st = .ready)
      | _ => false) = true := by decide +kernel

end Requests

namespace Engines

def lb : Nat := 0xFFFFFFFFFFC00000
def gsys (s : State) : State := s.modC fun c => {c with sys := true, oct := 1, occ := 1}
def mx (d0 d1 d2 d3 d4 d5 : Nat) (next : Nat) : MxCmd :=
  ⟨#v[BitVec.ofNat 64 d0, BitVec.ofNat 64 d1, BitVec.ofNat 64 d2, BitVec.ofNat 64 d3,
  BitVec.ofNat 64 d4, BitVec.ofNat 64 d5, 0, 0x77], 0, 0, 5, next, true, false, 0⟩
def A : Nat := lb + 0x16000
def B : Nat := lb + 0x17000
def C : Nat := lb + 0x18000
def cmd (opc n : Nat) : MxCmd := mx (opc + 1*2^12 + 8*2^18 + 16*2^24 + 2*2^45) A B (64 + 64*2^20 +
  16*2^40) C 3 n
def S (m : MxCmd) (l : List MxCmd) : State := ((((gsys base).modCore 0 0 fun k => {k with
  mxq := m :: l}).setBytes (lmemPa 0 0 0x16000) [0,0,0x80,0x3f,0,0,0,0x40]).setBytes (lmemPa 0 0
  0x17000) [0,0,0x80,0x3f,0,0,0,0x40])
def o2 : MxCmd := {cmd 2 0 with job := 6, ctx := 1}
def z4 : MxCmd := mx (4 + 3*2^4 + 2^24) 0 0 0 0 0 0
def z5 : MxCmd := mx (5 + 3*2^4 + 0*2^24 + 1*2^12 + 2*2^18) A 0 16 0 0 0
def s5 : State := S z5 [o2]
def r5 : State × Table W64 := match s5.aclRead ⟨0,0,0⟩ z5 4 (List.range 6) [] true with
  | (s, .ok (some t)) => (s, t) | (s, _) => (s, [])
def z6 : MxCmd := mx (6 + 3*2^4 + 1*2^12 + 2*2^18) A 0 16 0 0 0
def oe : OutEntry := ⟨0, 0, BitVec.ofNat 64 A, [(3,4),(4,5)], 0, 5, 7, false⟩
def s7 : State := (gsys base).modCore 0 0 fun k => {k with obuf := [oe, oe]}
def r7 : State :=
  match s7.engWrite ⟨0,0,0⟩ oe.asid oe.va oe.data oe.win oe.job .epilogue oe.tag oe.dead with
  | some (s, _) => s
  | _ => s7
def jb : Job := ⟨0, 5, .copy, none, none⟩

def s9 : State := (gsys base).modCore 0 0 fun k => {k with jobs := [jb, {jb with job := 6}]}

theorem notWaitc (l x y z : BitVec 5) : (s9.ctx ⟨0, 0, 0⟩).wait ≠ .waitc l x y z := by
  have h : (s9.ctx ⟨0, 0, 0⟩).wait = .none := by decide +kernel
  rw [h]; exact nofun

/-- States and operands that meet the hypotheses of `Obligations.EngineEvents`, clause by clause. -/
theorem witness_EngineEvents :
    (let s : State := S (cmd 1 0) [o2];
      let site : Nat := 0;
      let core : Nat := 0;
      let i : Nat := 0;
      let j : Nat := 0;
      let m : MxCmd := cmd 1 0;
      let rest : List MxCmd := [o2];
      let w : MxRow := ⟨0,8,4,4⟩;
      let r : CtxRef := ⟨0,0,0⟩;
      let k := s.core site core;
      let me : CtxRef := ⟨site, core, m.ctx⟩;
      let goes := k.mxq = m :: rest ∧ m.started = true ∧ m.hold = false;
      let fine := goes ∧ m.row = some w ∧ (m.spans.flatMap fun sp => s.spanFaults me sp) = [];
      let c := s.ctx r;
      let kr := s.core r.site r.core;
      ((fine) ∧ (m.opc = 1) ∧ (m.slot < 8) ∧ (i < 64) ∧ (j < 64) ∧ (m.next + 1 < m.steps)) ∧
        ((k.obuf = [])) ∧ ((kr.jobs = [])) ∧ ((c.cpArmed = false) ∧ (c.occ < 255) ∧
        (s.startOk r = true))) ∧
    (let s : State := S (cmd 2 2) [o2];
      let site : Nat := 0;
      let core : Nat := 0;
      let i : Nat := 1;
      let j : Nat := 8;
      let m : MxCmd := cmd 2 2;
      let rest : List MxCmd := [o2];
      let w : MxRow := ⟨0,8,4,4⟩;
      let k := s.core site core;
      let me : CtxRef := ⟨site, core, m.ctx⟩;
      let goes := k.mxq = m :: rest ∧ m.started = true ∧ m.hold = false;
      let fine := goes ∧ m.row = some w ∧ (m.spans.flatMap fun sp => s.spanFaults me sp) = [];
      (fine) ∧ (m.opc = 2) ∧ (m.slot < 8) ∧ (i < 64) ∧ (j < 64) ∧ (m.next + 1 < m.steps)) ∧
    (let s : State := S (cmd 1 4) [o2];
      let site : Nat := 0;
      let core : Nat := 0;
      let m : MxCmd := cmd 1 4;
      let rest : List MxCmd := [o2];
      let w : MxRow := ⟨0,8,4,4⟩;
      let k := s.core site core;
      let me : CtxRef := ⟨site, core, m.ctx⟩;
      let goes := k.mxq = m :: rest ∧ m.started = true ∧ m.hold = false;
      let fine := goes ∧ m.row = some w ∧ (m.spans.flatMap fun sp => s.spanFaults me sp) = [];
      (fine) ∧ (m.opc = 1) ∧ (m.steps ≤ m.next)) ∧
    (let s : State := S (cmd 2 4) [o2];
      let site : Nat := 0;
      let core : Nat := 0;
      let m : MxCmd := cmd 2 4;
      let rest : List MxCmd := [o2];
      let w : MxRow := ⟨0,8,4,4⟩;
      let k := s.core site core;
      let me : CtxRef := ⟨site, core, m.ctx⟩;
      let goes := k.mxq = m :: rest ∧ m.started = true ∧ m.hold = false;
      let fine := goes ∧ m.row = some w ∧ (m.spans.flatMap fun sp => s.spanFaults me sp) = [];
      (fine) ∧ (m.opc = 2) ∧ (m.steps ≤ m.next)) ∧
    (let s : State := S (cmd 3 0) [o2];
      let site : Nat := 0;
      let core : Nat := 0;
      let m : MxCmd := cmd 3 0;
      let rest : List MxCmd := [o2];
      let w : MxRow := ⟨0,8,4,4⟩;
      let k := s.core site core;
      let me : CtxRef := ⟨site, core, m.ctx⟩;
      let goes := k.mxq = m :: rest ∧ m.started = true ∧ m.hold = false;
      let fine := goes ∧ m.row = some w ∧ (m.spans.flatMap fun sp => s.spanFaults me sp) = [];
      let x := (0:Nat);
      let o := (0x18000:Nat);
      let code := (0:Nat);
      (fine) ∧ (m.opc = 3) ∧ (State.Inv s) ∧ (s.engLoc me (m.d 4) = some (x, o, code)) ∧
        (m.next + 1 < m.rows) ∧ (site < 64) ∧ (x < 256) ∧
        (o + m.next * m.f 3 40 20 + 8 * m.f 0 45 5 ≤ 524288)) ∧
    (let s : State := S z4 [o2];
      let site : Nat := 0;
      let core : Nat := 0;
      let m : MxCmd := z4;
      let rest : List MxCmd := [o2];
      let k := s.core site core;
      let goes := k.mxq = m :: rest ∧ m.started = true ∧ m.hold = false;
      (goes) ∧ (m.opc = 4) ∧ (m.slot < 8)) ∧
    (let s : State := s5;
      let site : Nat := 0;
      let core : Nat := 0;
      let m : MxCmd := z5;
      let rest : List MxCmd := [o2];
      let k := s.core site core;
      let me : CtxRef := ⟨site, core, m.ctx⟩;
      let goes := k.mxq = m :: rest ∧ m.started = true ∧ m.hold = false;
      let s' := r5.1;
      let tb := r5.2;
      (goes) ∧ (m.opc = 5) ∧ (m.slot < 8) ∧ (s.engOut me false m.job = []) ∧
        (s.aclRead me m m.aclEs (List.range (m.rows * m.cols)) [] true = (s', .ok (some tb))) ∧ ((s'.core site core).mxq = k.mxq)) ∧
    (let s : State := S z6 [o2];
      let site : Nat := 0;
      let core : Nat := 0;
      let m : MxCmd := z6;
      let rest : List MxCmd := [o2];
      let k := s.core site core;
      let me : CtxRef := ⟨site, core, m.ctx⟩;
      let goes := k.mxq = m :: rest ∧ m.started = true ∧ m.hold = false;
      let slot := fun t : State => t.slotOf site core m.slot;
      let x := (0:Nat);
      let o := (0x16000:Nat);
      (goes) ∧ (m.opc = 6) ∧ (s.engLoc me (m.d 1) = some (x, o, 0)) ∧ (m.next = 0) ∧
        (1 < m.rows * m.cols) ∧ ((m.d 1).toNat % (if (slot s).type = 2 then 8 else 4) = 0) ∧
        (k.obuf = []) ∧ (s.engOut me false m.job = []) ∧ (m.f 0 25 2 = 0) ∧ (m.f 0 27 1 = 0) ∧ (m.f 0 28 4 = 0)) ∧
    (let s : State := s7;
      let site : Nat := 0;
      let core : Nat := 0;
      let k := s.core site core;
      let e := oe;
      let l := [oe];
      let s' := r7;
      (k.obuf = e :: l) ∧ ((l ≠ [] ∨ ∀ x ∈ k.mxq, x.job ≠ e.job)) ∧
        (s.engWrite ⟨site, core, e.ctx⟩ e.asid e.va e.data e.win e.job .epilogue e.tag e.dead = some (s', none))) ∧
    (let s : State := s9;
      let r : CtxRef := ⟨0,0,0⟩;
      let c := s.ctx r;
      let kr := s.core r.site r.core;
      let job : Job := jb;
      (kr.jobs.find? (fun x => x.ctx = r.ctx ∧ s.jobClear r x) = some job) ∧ (job.slot = none) ∧
        (job.rel = none) ∧ (c.st = .running) ∧ ((∀ l x y z, c.wait ≠ .waitc l x y z)) ∧
        (c.wait ≠ .sfufence) ∧ (c.prior ≠ .preempted) ∧ (job.kind ≠ .sfu)) ∧
    (let s : State := (gsys base).modC fun c => {c with cpArmed := true, cpfault := 0x37};
      let site : Nat := 0;
      let core : Nat := 0;
      let r : CtxRef := ⟨0,0,0⟩;
      let k := s.core site core;
      let c := s.ctx r;
      ((c.cpArmed = true ∨ 255 ≤ c.occ ∨ s.startOk r = false)) ∧ (
        let x := (0:Nat);
        let a := (s.ctx ⟨site, core, x⟩);
        let run : CopyRun := ⟨x, a.asid, s.nextId, a.cpsrc, a.cpdst, a.cplen, a.cpstride, a.cpctl,
            0, 0⟩;
        (k.cp = none) ∧ (s.nextArmed site core = some x) ∧ (a.savedCp = none) ∧ (((({ s with
          nextId := s.nextId + 1 } : State).modCtx ⟨site, core, x⟩ fun y => { y with
          cpArmed := false }).setCopy site core run).copyReasons ⟨site, core, x⟩ run = []) ∧
          (bit a.cpctl 1 = false))) ∧
    (let q : Req := { Requests.rq (.load (.g 3 .w 0)) .sent with id := 9 };
      let s : State := { (gsys base).modC (fun c => {c with cpArmed := true, cpctl := 2}) with reqs := [q] };
      ((s.core 0 0).cp = none) ∧ (s.nextArmed 0 0 = some 0) ∧ (s.copyHeld ⟨0, 0, 0⟩ = true)) := by
  refine ⟨?_, ?_, ?_, ?_, ?_, ?_, ?_, ?_, ?_, ⟨?_, ?_, ?_, ?_, notWaitc, ?_, ?_, ?_⟩, ?_, ?_⟩ <;>
    (first | decide +kernel | (dsimp only [State.Inv]; decide +kernel))

end Engines

namespace Steps

def r0 : CtxRef := ⟨0,0,0⟩
def le4 (w : W32) : List Byte := toBytes 4 w.toNat
def ln (a b : W32) : CLine := ⟨0x4002, le4 a ++ le4 b ++ List.replicate 120 0⟩
def S (a b : W32) (f : Ctx → Ctx) : State := {(base.modCore 0 0 fun k => {k with
                                                ic := [ln a b]}) with
  agenda := [.issue r0]} |>.modC fun c => f {c with
  g := Vector.ofFn fun i => BitVec.ofNat 64 (i.val*3)}
def E : TlbEntry := ⟨0, 0x200000, 0x200000, 0x2000EF#64, true⟩
def turn (s : State) : State := { s with agenda := [], cur := r0, issue := Issue.reset }
/-- The state in which the first word of the bundle in the instruction cache runs, beside word B `b`. -/
def at_ (s : State) (b : W32) : State :=
  let c := s.ctx r0
  let looped := (turn s).modCtx r0 fun x => { x with loopNext := loopDecision c c.pc }
  { (if c.redo then looped.modCtx r0 (fun x => { x with redo := false }) else looped) with
    issue := ⟨(bundleAt ((s.core 0 0).ic.headD ⟨0, []⟩).data 0).1, b, false, none, none, [], .fall⟩ }
def outO (i : Instr) (s : State) : State := match exec i s with | .next t => t | _ => s
def iA (w : W32) : Instr := match decodeA w with | .ok i => i | _ => .halt
def iB (w : W32) : Instr := match decodeB w with | .ok i => i | _ => .halt
def tb (s : State) (b : W32) (t : State) (j : Instr) : State := outO j { at_ s b with
  tick := t.tick, issue := ⟨(at_ s b).issue.a, b, true, none, none, [], .fall⟩ }
def s1 : State := S 0x69100005 0 id
def s2 : State := S 0x2818C001 0x01084600 id
def t2 : State := outO (iA 0x2818C001) (at_ s2 0x01084600)
def s3 : State := S 0x69100005 0 fun c => {c with
  ls := c.ls.set 1 0x200000, le := c.le.set 1 0x200100, lc := c.lc.set 1 7}
def wj : W32 := encode (.jr 1) ||| 0x40000000
def s4 : State := S wj 0 fun c => {c with g := c.g.set 1 0x200200}
def iM : Instr := iA 0x69100005
def lM : CLine := ln 0x69100005 0
def s5 : State := S 0x69100005 0 fun c => {c with redo := true}
def wl : W32 := encode (.movLcFromG 2 1) ||| 0x40000000
def iL : Instr := iA wl
def s6 : State := S wl 0 fun c => {c with
  ls := c.ls.set 1 0x200000, le := c.le.set 1 0x200100, lc := c.lc.set 1 7}

theorem nextOf {o : Host.Outcome State Fault Refusal} {t : State}
    (h : (match o with | .next u => decide (u = t) | _ => false) = true) : o = .next t := by
  cases o <;> simp_all

/-- The turn, the fetch and the decoding that `Obligations.StepRunsDecodedBundle` asks of the first word of a bundle. -/
abbrev Begins (s : State) (l : CLine) (i : Instr) : Prop :=
  let r := r0
  let c := s.ctx r
  let pa := E.pa c.pc.toNat
  (s.agenda = [.issue r] ∧ c.gang = false ∧ (c.st = .running ∨ c.st = .ready) ∧ c.fatal = none ∧ c.mid = false ∧
    c.preReq = false ∧ c.testReq = false ∧ s.npOver r = false ∧ c.pendStore = [] ∧ c.pendAsync = [] ∧ c.slot = 0 ∧
    c.pend = ⟨0, 0, 0, 0⟩ ∧ (accesses i = true → s.accessHeld r = false)) ∧
  (canonical c.pc = true ∧ bit c.pc 55 = false ∧ s.tlbFind r.site r.core c.asid c.pc.toNat = some E ∧
    (turn s).fetchLeaf E pa = true ∧ (s.core r.site r.core).ic.find? (fun x => x.line = s.lineOf pa) = some l) ∧
  pa % 128 = 0 ∧ decodeA (bundleAt l.data 0).1 = .ok i

/-- After the bundle its context still runs and its die is not stopped. -/
abbrev Goes (x : State) : Prop :=
  (x.ctx r0).st ≠ .free ∧ (x.ctx r0).st ≠ .waiting ∧ bit (x.sreg r0.site 0x3608) 4 = false

/-- A lone word A that runs. -/
abbrev Lone (s t : State) (l : CLine) (i : Instr) : Prop :=
  let w := bundleAt l.data 0
  Begins s l i ∧ decodeBundle w.1 w.2 = .ok (.lone w.1) ∧ exec i (at_ s 0) = .next t ∧ Goes t

/-- States and operands that meet the hypotheses of `Obligations.StepRunsDecodedBundle`, clause by clause: a bundle begun and begun
again, a transfer, a loop whose count the hardware writes and one whose count its last bundle writes, and a pair. -/
theorem witness_StepRunsDecodedBundle :
    (let t := outO iM (at_ s1 0);
      Lone s1 t lM iM ∧ t.issue.flow = .fall ∧ loopDecision (s1.ctx r0) (s1.ctx r0).pc = none) ∧
    (let t := outO iM (at_ s5 0);
      Lone s5 t lM iM ∧ t.issue.flow = .fall ∧ loopDecision (s5.ctx r0) (s5.ctx r0).pc = none ∧ (s5.ctx r0).redo = true) ∧
    (let t := outO (iA wj) (at_ s4 0);
      Lone s4 t (ln wj 0) (iA wj) ∧ t.issue.flow = .jump 0x200200 0) ∧
    (let t := outO iM (at_ s3 0);
      Lone s3 t lM iM ∧ t.issue.flow = .fall ∧ loopDecision (s3.ctx r0) (s3.ctx r0).pc = some (1, 0x200000, 6) ∧
        lcWritten iM ≠ some 1) ∧
    (let t := outO iL (at_ s6 0);
      Lone s6 t (ln wl 0) iL ∧ t.issue.flow = .fall ∧ loopDecision (s6.ctx r0) (s6.ctx r0).pc = some (1, 0x200000, 6) ∧
        lcWritten iL = some 1) ∧
    (let l := ln 0x2818C001 0x01084600;
      let w := bundleAt l.data 0;
      let i := iA 0x2818C001;
      let j := iB 0x01084600;
      let t := t2;
      let tb := tb s2 0x01084600 t2 j;
      Begins s2 l i ∧ decodeBundle w.1 w.2 = .ok (.pair w.1 w.2) ∧ decodeB w.2 = .ok j ∧
        (dests i).meets (dests j) = false ∧ fld w.2 30 2 = 0 ∧ exec i (at_ s2 w.2) = .next t ∧ t.issue.flow = .fall ∧
        exec j { at_ s2 w.2 with tick := t.tick, issue := ⟨w.1, w.2, true, none, none, [], .fall⟩ } = .next tb ∧
        tb.issue.flow = .fall ∧ loopDecision (s2.ctx r0) (s2.ctx r0).pc = none ∧
        Goes (({ t with tick := tb.tick } : State).modC fun y => y.takeB tb.c (dests j))) := by
  refine ⟨?_, ?_, ?_, ?_, ?_, ?_⟩ <;> dsimp only <;> repeat' apply And.intro
  all_goals first | decide +kernel | exact nextOf (by decide +kernel)

/-- Agendas and contexts that meet the hypotheses of `Obligations.EverythingAnswersNext`, clause by clause. -/
theorem witness_EverythingAnswersNext :
    (let s : State := { base with agenda := [.event .nop, .idle 0 0] }; s.agenda = .event .nop :: [.idle 0 0]) ∧
    (let s : State := ({ base with agenda := [.issue r0] } : State).modC fun c => { c with st := .parked };
      s.agenda = .issue r0 :: [] ∧ (s.ctx r0).gang = false ∧ (s.ctx r0).st ≠ .running ∧ (s.ctx r0).st ≠ .ready) ∧
    (let s : State := { base with agenda := [.idle 0 0] };
      s.agenda = .idle 0 0 :: [] ∧ ∀ e ∈ s.ctxs, e.2.npsec = false) := by
  decide +kernel

end Steps

end Sys2Proof.Tests
end

/-! # Every instruction, event and step answers a next state (O58)

A meaning is a tree of tests whose leaves are next states. `exec_answers` follows that tree: the checks that several meanings
share are settled first, then each meaning that decides for itself is split along its own branches. -/

namespace Sys2Proof.Table

/-- A change of the values that changes none of those listed changes nothing. -/
theorem mapVals_eq_self {α : Type} {f : Nat → α → α} {t : Table α} (h : ∀ e ∈ t, f e.1 e.2 = e.2) : mapVals f t = t :=
  (List.map_congr_left fun e he => congrArg (Prod.mk e.1) (h e he)).trans (List.map_id t)

end Sys2Proof.Table

namespace Sys2Proof.Machine

/-- A result that is a next state: no fault stops the machine, and nothing is refused. -/
def Answers (o : Result) : Prop := ∃ t, o = .next t

theorem answers_next (t : State) : Answers (.next t) := ⟨t, rfl⟩

/-! ### The checks that several meanings share -/

theorem State.vguard_answers (s : State) (g : BitVec 2) (f : State) : Answers (s.vguard g f) := by
  fun_cases State.vguard <;> exact answers_next _

theorem State.vfp_answers (s : State) (y : VTy) (v : BitVec 4) (x b c : List W32) (g k : BitVec 2)
    (f : Fmt → Nat → Nat → Nat → Nat) : Answers (s.vfp y v x b c g k f) := by
  fun_cases State.vfp <;> exact State.vguard_answers ..

theorem State.named_answers (s : State) (n : W64) (f : State) : Answers (s.named n f) := by
  fun_cases State.named <;> exact answers_next _

theorem State.loopReg_answers (s : State) (v : W64) (f : State) : Answers (s.loopReg v f) := by
  fun_cases State.loopReg <;> exact answers_next _

theorem State.girth_answers (s : State) (g : BitVec 3) (f : State) : Answers (s.girth g f) := by
  fun_cases State.girth <;> exact answers_next _

theorem State.srCheck_answers (s : State) (n : Nat) (write : Bool) (f : State) : Answers (s.srCheck n write f) := by
  fun_cases State.srCheck <;> exact answers_next _

theorem State.tlbinv_answers (s : State) (f : TlbEntry → Bool) (p : WalkPtr → Bool) (g : Req → Bool) :
    Answers (s.tlbinv f p g) := by
  fun_cases State.tlbinv <;> exact answers_next _

/-! ### Every meaning, every move and every step -/

/-- The meanings that end in a shared check come first, then those that branch themselves, by the part of the machine they
belong to; every other meaning but the recall's is written as a next state. -/
theorem exec_answers (i : Instr) (s : State) : Answers (exec i s) := by
  cases i <;> dsimp only [exec]
  case vld | vldS | vldBc | vldG | vst | vstS | vstG | vadd | vsub | vaddSat | vsubSat | vadduSat | vsubuSat | vneg | vand |
      vor | vxor | vandn | vnot | vshl | vshr | vsra | vmul | vmulh | vmulhu | vmla | vsmin | vsmax | vumin | vumax | vabs |
      vcmp | vsel | vmov | mand | mor | mxor | mandn | mnot | mall | mnone | mmov | vbcast | vext | mrd | mwr | mpopc |
      vcvtSW | vcvtWS | vcvtBfS | vcvtSBf | vcvtHS | vcvtSH | vcvtES | vcvtSE | vcvtBW | vcvtWB | vcvtDS | vcvtSD | vred |
      vperm | vpermB | vcompress =>
    exact State.vguard_answers ..
  case vfadd | vfsub | vfmul | vfmin | vfmax | vfma | vfms => exact State.vfp_answers ..
  case cwrap | crect | cidx => exact State.named_answers ..
  case movLsFromG | movLeFromG => exact State.loopReg_answers ..
  case arrive | arriveSs => exact State.girth_answers ..
  case srd | swr | srset | srclr => exact State.srCheck_answers ..
  case tlbinvVa | tlbinvAsid | tlbinvAll => exact State.tlbinv_answers ..
  -- control transfer and loops
  case br => fun_cases execBr <;> exact answers_next _
  case call => fun_cases execCall <;> exact answers_next _
  case loop => fun_cases execLoop <;> exact answers_next _
  -- core names
  case cstep => fun_cases execCstep <;> exact answers_next _
  case cdiff => fun_cases execCdiff <;> exact answers_next _
  case cclus => fun_cases execCclus <;> exact answers_next _
  -- owned lines
  case ownedLineTimeout => fun_cases execOwnedLineTimeout <;> exact answers_next _
  -- exchange
  case buckleArrival => fun_cases execBuckleArrival <;> exact answers_next _
  case windowExpiry => fun_cases execWindowExpiry <;> exact answers_next _
  -- fences, waits and barriers
  case fence => fun_cases execFence <;> exact answers_next _
  case xfi => fun_cases execXfi <;> exact answers_next _
  case xfw => fun_cases execXfw <;> exact answers_next _
  case waitc => fun_cases execWaitc <;> exact answers_next _
  case waita => fun_cases execWaita <;> exact answers_next _
  case waitb =>
    fun_cases execWaitb
    · exact answers_next _
    · exact State.girth_answers ..
  case sfufence => fun_cases execSfufence <;> exact answers_next _
  case watchNotify => fun_cases execWatchNotify <;> exact answers_next _
  case watchPoll => fun_cases execWatchPoll <;> exact answers_next _
  case waitaTimeout => fun_cases execWaitaTimeout <;> exact answers_next _
  case phaseComplete => fun_cases execPhaseComplete <;> exact answers_next _
  case girthTimeout => fun_cases execGirthTimeout <;> exact answers_next _
  case barrierPacket => fun_cases execBarrierPacket <;> exact answers_next _
  case multicastBranch => fun_cases execMulticastBranch <;> exact answers_next _
  -- handles and banks
  case hgrant => fun_cases execHgrant <;> exact answers_next _
  case bankPowerGate => fun_cases execBankPowerGate <;> exact answers_next _
  case retainTimeout => fun_cases execRetainTimeout <;> exact answers_next _
  -- lane claims and scalar functions
  case vclaim => fun_cases execVclaim <;> exact answers_next _
  case vrenew => fun_cases execVrenew <;> exact answers_next _
  case sfucmd => fun_cases execSfucmd <;> exact answers_next _
  case vrel => fun_cases execVrel <;> exact answers_next _
  case sfuRequestStart => fun_cases execSfuRequestStart <;> exact answers_next _
  case sfuResult => fun_cases execSfuResult <;> exact answers_next _
  -- system words
  case leaseend => fun_cases execLeaseend <;> exact answers_next _
  case dictld => fun_cases execDictld <;> exact answers_next _
  case dictrd => fun_cases execDictrd <;> exact answers_next _
  case dictfence => fun_cases execDictfence <;> exact answers_next _
  case rft => fun_cases execRft <;> exact answers_next _
  case icsync => fun_cases execIcsync <;> exact answers_next _
  case dictionaryLoadComplete => fun_cases execDictionaryLoadComplete <;> exact answers_next _
  -- vector words with checks of their own
  case vfcmp => fun_cases execVfcmp <;> exact State.vguard_answers ..
  case vins =>
    fun_cases execVins
    · exact answers_next _
    · exact State.vguard_answers ..
  -- engines
  case outputBufferDrain => fun_cases execOutputBufferDrain <;> exact answers_next _
  case engineCountDown => fun_cases execEngineCountDown <;> exact answers_next _
  -- leases and power
  case rowWithhold => fun_cases execRowWithhold <;> exact answers_next _
  case rampupComplete => fun_cases execRampupComplete <;> exact answers_next _
  case rampdownComplete => fun_cases execRampdownComplete <;> exact answers_next _
  case voltageStep => fun_cases execVoltageStep <;> exact answers_next _
  case throttleEnd => fun_cases execThrottleEnd <;> exact answers_next _
  case energyFlush => fun_cases execEnergyFlush <;> exact answers_next _
  case dieGate => fun_cases execDieGate <;> exact answers_next _
  case dieWake => fun_cases execDieWake <;> exact answers_next _
  -- gangs, records and host queues
  case haltRet => fun_cases execHaltRet <;> exact answers_next _
  case gang => fun_cases execGang <;> exact answers_next _
  case larm => fun_cases execLarm <;> exact answers_next _
  case yield => fun_cases execYield <;> exact answers_next _
  case split => fun_cases execSplit <;> exact answers_next _
  case floorIssue => fun_cases execFloorIssue <;> exact answers_next _
  case haltSequence => fun_cases execHaltSequence <;> exact answers_next _
  case gangTimeout => fun_cases execGangTimeout <;> exact answers_next _
  case arm => fun_cases execArm <;> exact answers_next _
  case complete => fun_cases execComplete <;> exact answers_next _
  case blockDeal => fun_cases execBlockDeal <;> exact answers_next _
  case dispatch => fun_cases execDispatch <;> exact answers_next _
  case hqtailWrite => fun_cases execHqtailWrite <;> exact answers_next _
  case hqctlWrite => fun_cases execHqctlWrite <;> exact answers_next _
  case hqdescWrite => fun_cases execHqdescWrite <;> exact answers_next _
  case queueSwitchComplete => fun_cases execQueueSwitchComplete <;> exact answers_next _
  -- traps, halts and self-test
  case endContext => fun_cases execEndContext <;> exact answers_next _
  case resumption => fun_cases execResumption <;> exact answers_next _
  case npcountLimit => fun_cases execNpcountLimit <;> exact answers_next _
  case patrolScrub => fun_cases execPatrolScrub <;> exact answers_next _
  case selfTestStart => fun_cases execSelfTestStart <;> exact answers_next _
  case selfTestWithdraw => fun_cases execSelfTestWithdraw <;> exact answers_next _
  case selfTestResult => fun_cases execSelfTestResult <;> exact answers_next _
  case checkpointOpDone => fun_cases execCheckpointOpDone <;> exact answers_next _
  -- slices, misses and replies
  case missRetry => fun_cases execMissRetry <;> exact answers_next _
  case walk => fun_cases execWalk <;> exact answers_next _
  case sliceRequest => fun_cases execSliceRequest <;> exact answers_next _
  case retryTimerExpiry => fun_cases execRetryTimerExpiry <;> exact answers_next _
  case missFill => fun_cases execMissFill <;> exact answers_next _
  case farAtomic => fun_cases execFarAtomic <;> exact answers_next _
  case reductionPacketArrival => fun_cases execReductionPacketArrival <;> exact answers_next _
  case reductionApply => fun_cases execReductionApply <;> exact answers_next _
  case exchangeApply => fun_cases execExchangeApply <;> exact answers_next _
  case replyArrival => fun_cases execReplyArrival <;> exact answers_next _
  case replayEntryIssue => fun_cases execReplayEntryIssue <;> exact answers_next _
  case writeAcknowledged => fun_cases execWriteAcknowledged <;> exact answers_next _
  -- host ports, bring-up and links
  case hostMemAccess => fun_cases execHostMemAccess <;> exact answers_next _
  case bisnpResponse => fun_cases execBisnpResponse <;> exact answers_next _
  case hostBar0Access => fun_cases execHostBar0Access <;> exact answers_next _
  case hostBar2Access => fun_cases execHostBar2Access <;> exact answers_next _
  case powerOn => fun_cases execPowerOn <;> exact answers_next _
  case clockLock => fun_cases execClockLock <;> exact answers_next _
  case linkTrain => fun_cases execLinkTrain <;> exact answers_next _
  case hubTestResult => fun_cases execHubTestResult <;> exact answers_next _
  case moduleLinkFlit => fun_cases execModuleLinkFlit <;> exact answers_next _
  case moduleLinkDown => fun_cases execModuleLinkDown <;> exact answers_next _
  case moduleLinkRetrain => fun_cases execModuleLinkRetrain <;> exact answers_next _
  case peerReplyTimeout => fun_cases execPeerReplyTimeout <;> exact answers_next _
  case standbyPowerApplied => fun_cases execStandbyPowerApplied <;> exact answers_next _
  case hostPortTrain => fun_cases execHostPortTrain <;> exact answers_next _
  any_goals exact answers_next _
  -- the recall of an owned line is left; its name is a keyword of Mathlib's, so that `case` cannot select it
  fun_cases execRecall <;> exact answers_next _

/-- What a word does is what `run` makes of it: `run` never falls back on the state before. -/
theorem exec_eq_next_run (i : Instr) (s : State) : exec i s = .next (run i s) := by
  obtain ⟨t, ht⟩ := exec_answers i s
  rw [run, ht]

theorem State.move_answers (s : State) (m : Move) : Answers (s.move m) := by
  cases m with
  | event i => exact exec_answers i s
  | issue | ahead | idle | corrected | hostStore | hostSnoop | conflict => exact answers_next _

/-- A step with moves to come takes the first of them, with the others still to come. -/
theorem step_cons {s : State} {m : Move} {rest : List Move} (h : s.agenda = m :: rest) :
    step s = ({ s with agenda := rest } : State).move m := by
  rw [step, h]

theorem step_nil {s : State} (h : s.agenda = []) : step s = .next s.free := by
  rw [step, h]

theorem step_answers (s : State) : Answers (step s) := by
  cases h : s.agenda with
  | nil => rw [step_nil h]; exact answers_next _
  | cons m rest => rw [step_cons h]; exact State.move_answers _ m

/-! ### Moves that leave most alone -/

theorem State.members_of_no_gang (s : State) {r : CtxRef} (h : (s.ctx r).gang = false) : s.members r = [r] := by
  simp [State.members, h]

/-- A context in no gang that cannot issue does nothing on its turn. -/
theorem State.issueOne_of_idle_ctx (s : State) {r : CtxRef} (hg : (s.ctx r).gang = false)
    (hrun : (s.ctx r).st ≠ .running) (hready : (s.ctx r).st ≠ .ready) : s.issueOne r = s := by
  simp [State.issueOne, s.members_of_no_gang hg, hrun, hready]

@[simp] theorem State.pass_mem (s : State) (site core : Nat) : (s.pass site core).mem = s.mem := rfl

@[simp] theorem State.pass_agenda (s : State) (site core : Nat) : (s.pass site core).agenda = s.agenda := rfl

/-- The core whose time passes counts its cycles (R269; log entry 6). -/
theorem State.pass_core_cycle (s : State) (site core : Nat) :
    ((s.pass site core).core site core).cycle = (s.core site core).cycle + BitVec.ofNat 64 (1 + Config.cycles s.tick) :=
  congrArg Core.cycle <| s.core_modCore_self site core fun k =>
    { k with cycle := k.cycle + BitVec.ofNat 64 (1 + Config.cycles s.tick) }

/-- Time that passes shows in a context only within a section (R380). -/
theorem State.pass_ctxs_of_no_section (s : State) (site core : Nat) (h : ∀ e ∈ s.ctxs, e.2.npsec = false) :
    (s.pass site core).ctxs = s.ctxs := by
  simp only [State.pass, State.modCore_ctxs]
  exact Table.mapVals_eq_self fun e he => by simp [h e he]

/-- Settles O58: `exec_answers` for the instructions and events, `step_answers` for the steps; the other clauses name the move
that the agenda begins with. -/
theorem everythingAnswersNext : Obligations.EverythingAnswersNext := by
  refine ⟨exec_answers, step_answers, fun s => ⟨rfl, rfl⟩, fun s i rest h => ?event, ?issue, ?idle⟩
  case event => rw [step_cons h, State.move]
  case issue =>
    intro s r rest h hg hrun hready
    rw [step_cons h, State.move, State.issueOne_of_idle_ctx { s with agenda := rest } hg hrun hready]
  case idle =>
    intro s site core rest h hsec
    exact ⟨_, step_cons h, State.pass_ctxs_of_no_section _ site core hsec, State.pass_mem _ site core,
      State.pass_agenda _ site core, State.pass_core_cycle _ site core⟩

end Sys2Proof.Machine

/-! # Exact sums, products and quotients (O6) -/

namespace Sys2Proof.Fp

/-- The factor of a sign. -/
def sgn (s : Bool) : ℚ := if s then -1 else 1

theorem val_eq (s : Bool) (m d : Nat) (e : Int) : val s m d e = sgn s * ((m : ℚ) / d) * 2 ^ e := rfl

@[simp] theorem val_zero (s : Bool) (d : Nat) (e : Int) : val s 0 d e = 0 := by simp [val_eq]

/-- Signs multiply by exclusive or. -/
theorem sgn_bne (a b : Bool) : sgn (a != b) = sgn a * sgn b := by cases a <;> cases b <;> simp [sgn]

theorem sgn_mul_self (s : Bool) : sgn s * sgn s = 1 := by cases s <;> simp [sgn]

theorem abs_sgn (s : Bool) : |sgn s| = 1 := by cases s <;> simp [sgn]

/-- A signed integer is its sign times its magnitude. -/
theorem sgn_mul_natAbs (v : ℤ) : sgn (decide (v < 0)) * (v.natAbs : ℚ) = v := by
  rw [Nat.cast_natAbs, Int.cast_abs]
  by_cases hv : v < 0
  · rw [sgn, if_pos (by simpa using hv), abs_of_neg (by exact_mod_cast hv)]; ring
  · rw [sgn, if_neg (by simpa using hv), abs_of_nonneg (by exact_mod_cast not_lt.mp hv), one_mul]

/-- The numerator over a smaller power of two is exact. -/
theorem scaled_mul_zpow (m : Nat) (s : Bool) {e k : ℤ} (h : k ≤ e) :
    (scaled m s e k : ℚ) * 2 ^ k = sgn s * m * 2 ^ e := by
  have hpow : (2 : ℚ) ^ (e - k).toNat * 2 ^ k = 2 ^ e := by
    rw [← zpow_natCast, ← zpow_add₀ two_ne_zero, Int.toNat_of_nonneg (by omega), sub_add_cancel]
  rw [← hpow]
  cases s <;> simp [scaled, sgn] <;> ring

/-- The numerators of `Fp.add` over the common denominator spell the exact sum. -/
theorem scaled_add_scaled (s t : Bool) (m n : Nat) {d q : Nat} {e f k : ℤ} (hd : 0 < d) (hq : 0 < q) (he : k ≤ e)
    (hf : k ≤ f) : ((scaled (m * q) s e k + scaled (n * d) t f k : ℤ) : ℚ) / (d * q : Nat) * 2 ^ k =
      val s m d e + val t n q f := by
  have hd' : (d : ℚ) ≠ 0 := by positivity
  have hq' : (q : ℚ) ≠ 0 := by positivity
  rw [div_mul_eq_mul_div, Int.cast_add, add_mul, scaled_mul_zpow _ _ he, scaled_mul_zpow _ _ hf, val_eq, val_eq]
  push_cast
  field_simp

theorem add_exact (md : Rm) (s t : Bool) (m n : Nat) {d q : Nat} (e f : ℤ) (hd : 0 < d) (hq : 0 < q) :
    ∃ r k u g, add md (.fin s m d e) (.fin t n q f) = .fin r k u g ∧ 0 < u ∧
      val r k u g = val s m d e + val t n q f := by
  have hsum := scaled_add_scaled s t m n hd hq (min_le_left e f) (min_le_right e f)
  simp only [add]
  split
  · next h => exact ⟨_, 0, 1, 0, rfl, Nat.one_pos, by simp [h]⟩
  split
  · next hv => exact ⟨_, 0, 1, 0, rfl, Nat.one_pos, by rw [← hsum, hv]; simp⟩
  · exact ⟨_, _, d * q, _, rfl, Nat.mul_pos hd hq, by rw [val_eq, ← mul_div_assoc, sgn_mul_natAbs, hsum]⟩

theorem val_mul (s t : Bool) (m n d q : Nat) (e f : ℤ) :
    val (s != t) (m * n) (d * q) (e + f) = val s m d e * val t n q f := by
  rw [val_eq, val_eq, val_eq, sgn_bne, zpow_add₀ two_ne_zero]
  push_cast
  rw [mul_div_mul_comm]
  ring

theorem val_div (s t : Bool) (m n d q : Nat) (e f : ℤ) :
    val (s != t) (m * q) (d * n) (e - f) = val s m d e / val t n q f := by
  have hsgn : (sgn t)⁻¹ = sgn t := (eq_inv_of_mul_eq_one_left (sgn_mul_self t)).symm
  rw [val_eq, val_eq, val_eq, sgn_bne, zpow_sub₀ two_ne_zero]
  push_cast
  rw [mul_div_mul_comm, div_eq_mul_inv _ (sgn t * _ * _), mul_inv, mul_inv, hsgn, inv_div]
  ring

theorem div_exact (s t : Bool) (m d : Nat) {n q : Nat} (e f : ℤ) (hn : n ≠ 0) :
    div (.fin s m d e) (.fin t n q f) = .fin (s != t) (m * q) (d * n) (e - f) := by
  simp [div, hn]

end Sys2Proof.Fp

namespace Sys2Proof.Machine

/-- Settles O6, by `Fp.add_exact`, `Fp.val_mul` and `Fp.div_exact` with `Fp.val_div`. -/
theorem exactSumProductQuotient : Obligations.ExactSumProductQuotient := by
  intro md s t m d n q e f hd hq
  exact ⟨Fp.add_exact md s t m n e f hd hq,
    ⟨_, _, d * q, _, rfl, Nat.mul_pos hd hq, Fp.val_mul s t m n d q e f⟩,
    fun hn => ⟨_, _, d * n, _, Fp.div_exact s t m d e f hn, Nat.mul_pos hd (Nat.pos_of_ne_zero hn),
      Fp.val_div s t m n d q e f⟩⟩

end Sys2Proof.Machine

/-! # Rounding (O7)

Below the sign, the codes of a format up to `maxCode` list its magnitudes in rising order (`Fmt.mag`). `Fmt.round` finds the code at or
below a magnitude and the part of the way to the next one (`Fmt.Between`); what it answers then depends on that part alone. -/

namespace Sys2Proof

/-! ### The magnitudes of codes -/

namespace Fmt

/-- What the rounding lemmas ask of a format: E4M3 is the one without infinities, and a code's last bit is one of the fraction. -/
structure Ok (f : Fmt) : Prop where
  e4 : f.e4 = true → f.ew = 4 ∧ f.fw = 3
  ew_pos : 0 < f.ew
  fw_pos : 0 < f.fw

theorem ok_of_mem_formats {f : Fmt} (hf : f ∈ formats) : f.Ok := by
  simp only [formats, List.mem_cons, List.not_mem_nil, or_false] at hf
  rcases hf with rfl | rfl | rfl | rfl | rfl | rfl <;> exact ⟨by decide, by decide, by decide⟩

/-- The magnitude of a code below the sign, with no code set aside for infinities and NaN (R43, R44). -/
def mag (f : Fmt) (c : Nat) : ℚ :=
  if c / 2 ^ f.fw = 0 then (c % 2 ^ f.fw : Nat) * 2 ^ (1 - (f.bias : ℤ) - f.fw)
  else (2 ^ f.fw + c % 2 ^ f.fw : Nat) * 2 ^ (((c / 2 ^ f.fw : Nat) : ℤ) - f.bias - f.fw)

variable (f : Fmt)

/-- The code that `Fmt.round` forms of an exponent step `j` and a significand `k` has that magnitude; a significand that has been
rounded up to the next power of two included. -/
theorem mag_mul_add {j k : Nat} (hj : j = 0 ∨ 2 ^ f.fw ≤ k) (hk : k ≤ 2 ^ (f.fw + 1)) :
    f.mag (j * 2 ^ f.fw + k) = k * 2 ^ ((j : ℤ) + 1 - f.bias - f.fw) := by
  have hp : 0 < 2 ^ f.fw := by positivity
  rw [pow_succ] at hk
  rcases lt_or_ge k (2 ^ f.fw) with hlt | hge
  case inl =>
    obtain rfl : j = 0 := by omega
    simp [mag, Nat.div_eq_of_lt hlt, Nat.mod_eq_of_lt hlt]
  case inr =>
    obtain ⟨i, rfl⟩ := Nat.exists_eq_add_of_le hge
    have hcode : j * 2 ^ f.fw + (2 ^ f.fw + i) = i + (j + 1) * 2 ^ f.fw := by ring
    rw [mag, hcode, Nat.add_mul_div_right _ _ hp, Nat.add_mul_mod_self_right]
    rcases lt_or_ge i (2 ^ f.fw) with hi | hi
    · rw [Nat.div_eq_of_lt hi, Nat.mod_eq_of_lt hi, if_neg (by omega)]
      push_cast
      ring_nf
    · obtain rfl : i = 2 ^ f.fw := by omega
      rw [Nat.div_self hp, Nat.mod_self, if_neg (by omega),
        show ((1 + (j + 1) : Nat) : ℤ) - f.bias - f.fw = (j + 1 - f.bias - f.fw) + 1 by push_cast; ring,
        zpow_add_one₀ two_ne_zero]
      push_cast
      ring

/-- Every code is of that form. -/
theorem exists_eq_mul_add (c : Nat) : ∃ j k, c = j * 2 ^ f.fw + k ∧ (j = 0 ∨ 2 ^ f.fw ≤ k) ∧ k < 2 ^ (f.fw + 1) := by
  have hmod := Nat.mod_lt c (show 0 < 2 ^ f.fw by positivity)
  have hdiv := Nat.div_add_mod' c (2 ^ f.fw)
  rw [pow_succ]
  cases h : c / 2 ^ f.fw with
  | zero => exact ⟨0, c, by omega, .inl rfl, by simp [h] at hdiv; omega⟩
  | succ j =>
    refine ⟨j, 2 ^ f.fw + c % 2 ^ f.fw, ?_, .inr (by omega), by omega⟩
    rw [h, add_mul] at hdiv
    omega

theorem mag_strictMono : StrictMono f.mag := by
  refine strictMono_nat_of_lt_succ fun c => ?_
  obtain ⟨j, k, rfl, hj, hk⟩ := f.exists_eq_mul_add c
  rw [add_assoc, f.mag_mul_add hj hk.le, f.mag_mul_add (hj.imp_right Nat.le_succ_of_le) hk]
  gcongr
  simp

@[simp] theorem mag_zero : f.mag 0 = 0 := by simp [mag]

theorem mag_nonneg (c : Nat) : 0 ≤ f.mag c := f.mag_zero ▸ f.mag_strictMono.monotone (Nat.zero_le c)

/-! ### The numbers of a format -/

/-- The sign of a code. -/
def sign (c : Nat) : Bool := decide (c / 2 ^ f.mw % 2 = 1)

variable {f}

theorem maxCode_lt (hf : f.Ok) : f.maxCode < 2 ^ f.mw := by
  have h := hf.e4
  unfold maxCode mw
  split
  · obtain ⟨hew, hfw⟩ := h ‹_›
    simp [hew, hfw]
  · rw [pow_add]
    have : (2 ^ f.ew - 1) * 2 ^ f.fw ≤ 2 ^ f.ew * 2 ^ f.fw := Nat.mul_le_mul_right _ (Nat.sub_le ..)
    have : 0 < 2 ^ f.ew * 2 ^ f.fw := by positivity
    omega

/-- The exponent field, of the code below the sign. -/
theorem exponent_eq (c : Nat) : c / 2 ^ f.fw % 2 ^ f.ew = c % 2 ^ f.mw / 2 ^ f.fw := by
  rw [mw, Nat.add_comm, pow_add, Nat.mod_mul_right_div_self]

/-- The fraction field, of the code below the sign. -/
theorem fraction_eq (c : Nat) : c % 2 ^ f.fw = c % 2 ^ f.mw % 2 ^ f.fw := by
  rw [mw, Nat.add_comm, pow_add, Nat.mod_mul_right_mod]

/-- The fields of a code that is an infinity or a NaN (R43). -/
def Special (f : Fmt) (c : Nat) : Prop :=
  (f.e4 = true ∧ c / 2 ^ f.fw % 2 ^ f.ew = 15 ∧ c % 2 ^ f.fw = 7) ∨
    (f.e4 = false ∧ c / 2 ^ f.fw % 2 ^ f.ew = 2 ^ f.ew - 1)

/-- The infinities and NaN are the codes beyond the largest number. -/
theorem special_iff (hf : f.Ok) (c : Nat) : f.Special c ↔ f.maxCode < c % 2 ^ f.mw := by
  have hlt : c % 2 ^ f.mw < 2 ^ f.mw := Nat.mod_lt _ (by positivity)
  rw [Special, exponent_eq, fraction_eq]
  generalize c % 2 ^ f.mw = r at hlt ⊢
  cases he : f.e4 with
  | true =>
    obtain ⟨hew, hfw⟩ := hf.e4 he
    simp only [mw, hew, hfw, maxCode, he] at hlt ⊢
    norm_num at hlt ⊢
    omega
  | false =>
    have hF : 0 < 2 ^ f.fw := by positivity
    have hfield : r / 2 ^ f.fw < 2 ^ f.ew := Nat.div_lt_of_lt_mul (by rwa [← pow_add, Nat.add_comm])
    have hle : 2 ^ f.ew - 1 ≤ r / 2 ^ f.fw ↔ (2 ^ f.ew - 1) * 2 ^ f.fw ≤ r := Nat.le_div_iff_mul_le hF
    have hpos : 0 < (2 ^ f.ew - 1) * 2 ^ f.fw :=
      Nat.mul_pos (Nat.sub_pos_of_lt (Nat.one_lt_two_pow hf.ew_pos.ne')) hF
    simp only [maxCode, he, Bool.false_eq_true, false_and, false_or, true_and, if_false]
    omega

/-- The codes up to the largest number are numbers, of their sign and magnitude. -/
theorem decode_of_le (hf : f.Ok) {c : Nat} (h : c % 2 ^ f.mw ≤ f.maxCode) :
    ∃ m e, f.decode c = .fin (f.sign c) m 1 e ∧ f.mag (c % 2 ^ f.mw) = m * 2 ^ e := by
  have hnum : ¬ f.Special c := by rw [special_iff hf]; omega
  obtain ⟨hnan, hinf⟩ := not_or.mp hnum
  rw [decode, if_neg hnan, if_neg (by simpa using hinf), mag, ← exponent_eq, ← fraction_eq]
  split
  · exact ⟨_, _, rfl, rfl⟩
  · exact ⟨_, _, rfl, rfl⟩

theorem decode_ne_fin_of_lt (hf : f.Ok) {c : Nat} (h : f.maxCode < c % 2 ^ f.mw) (s : Bool) (m d : Nat) (e : ℤ) :
    f.decode c ≠ .fin s m d e := by
  rw [decode]
  rcases (special_iff hf c).mpr h with hnan | ⟨he4, hinf⟩
  · rw [if_pos hnan]; nofun
  · rw [if_neg (by simp [he4]), if_pos (by simp [he4, hinf])]
    split <;> nofun

theorem hasVal_iff (hf : f.Ok) (c : Nat) (v : ℚ) :
    f.HasVal c v ↔ c % 2 ^ f.mw ≤ f.maxCode ∧ v = Fp.sgn (f.sign c) * f.mag (c % 2 ^ f.mw) := by
  by_cases h : c % 2 ^ f.mw ≤ f.maxCode
  case neg =>
    simp only [h, false_and, iff_false]
    rintro ⟨s, m, d, e, hfin, -⟩
    exact decode_ne_fin_of_lt hf (not_le.mp h) s m d e hfin
  case pos =>
    obtain ⟨m, e, hfin, hmag⟩ := decode_of_le hf h
    have hval : Fp.val (f.sign c) m 1 e = Fp.sgn (f.sign c) * f.mag (c % 2 ^ f.mw) := by
      rw [hmag, Fp.val_eq]; simp [mul_assoc]
    simp only [HasVal, hfin, Fp.fin.injEq, h, true_and, ← hval]
    exact ⟨fun ⟨_, _, _, _, ⟨hs, hm, hd, he⟩, hv⟩ => by rw [hv, ← hs, ← hm, ← hd, ← he],
      fun hv => ⟨_, _, _, _, ⟨rfl, rfl, rfl, rfl⟩, hv⟩⟩

theorem hasVal_signCode_add (hf : f.Ok) (s : Bool) {c : Nat} (h : c ≤ f.maxCode) :
    f.HasVal (f.signCode s + c) (Fp.sgn s * f.mag c) := by
  have hc := h.trans_lt (maxCode_lt hf)
  have hp : 0 < 2 ^ f.mw := by positivity
  have hmod : (f.signCode s + c) % 2 ^ f.mw = c := by cases s <;> simp [signCode, Nat.mod_eq_of_lt hc]
  have hsign : f.sign (f.signCode s + c) = s := by
    cases s <;> simp [sign, signCode, Nat.div_eq_of_lt hc, hp, Nat.add_div_left]
  rw [hasVal_iff hf, hmod, hsign]
  exact ⟨h, rfl⟩

end Fmt

/-! ### Fractions of powers of two -/

theorem shiftFrac_snd_pos (m : Nat) {d : Nat} (k : ℤ) (hd : 0 < d) : 0 < (shiftFrac m d k).2 := by
  cases k with
  | ofNat n => exact hd
  | negSucc n => exact Nat.mul_pos hd (by positivity)

theorem shiftFrac_div (m d : Nat) (k : ℤ) : ((shiftFrac m d k).1 : ℚ) / (shiftFrac m d k).2 = m / d * 2 ^ k := by
  cases k with
  | ofNat n => simp [shiftFrac, mul_div_right_comm]
  | negSucc n => simp [shiftFrac, zpow_negSucc, div_eq_mul_inv]; ring

/-- The binary logarithms of numerator and denominator bound a fraction within two powers of two. -/
theorem zpow_log2_sub_le_div {m d : Nat} (hm : 0 < m) (hd : 0 < d) :
    (2 : ℚ) ^ ((Nat.log2 m : ℤ) - Nat.log2 d - 1) ≤ m / d := by
  have hm2 : (2 : ℚ) ^ Nat.log2 m ≤ m := by exact_mod_cast Nat.log2_self_le hm.ne'
  have hd2 : (d : ℚ) ≤ 2 ^ (Nat.log2 d + 1) := by exact_mod_cast Nat.lt_log2_self.le
  calc (2 : ℚ) ^ ((Nat.log2 m : ℤ) - Nat.log2 d - 1) = 2 ^ Nat.log2 m / 2 ^ (Nat.log2 d + 1) := by
        rw [sub_sub, zpow_sub₀ two_ne_zero]; norm_cast
    _ ≤ m / d := by gcongr

theorem div_lt_zpow_log2_sub {m d : Nat} (hd : 0 < d) :
    (m / d : ℚ) < 2 ^ ((Nat.log2 m : ℤ) - Nat.log2 d + 1) := by
  have hm2 : (m : ℚ) < 2 ^ (Nat.log2 m + 1) := by exact_mod_cast Nat.lt_log2_self
  have hd2 : (2 : ℚ) ^ Nat.log2 d ≤ d := by exact_mod_cast Nat.log2_self_le hd.ne'
  calc (m / d : ℚ) < 2 ^ (Nat.log2 m + 1) / 2 ^ Nat.log2 d := by gcongr
    _ = 2 ^ ((Nat.log2 m : ℤ) - Nat.log2 d + 1) := by rw [sub_add_eq_add_sub, zpow_sub₀ two_ne_zero]; norm_cast

/-- `floorLog2` compares a fraction with the power of two between those bounds. -/
theorem floorLog2_eq (m : Nat) {d : Nat} (e : ℤ) (hd : 0 < d) : floorLog2 m d e =
    (if (2 : ℚ) ^ ((Nat.log2 m : ℤ) - Nat.log2 d) ≤ m / d then (Nat.log2 m : ℤ) - Nat.log2 d
      else (Nat.log2 m : ℤ) - Nat.log2 d - 1) + e := by
  generalize hk : (Nat.log2 m : ℤ) - Nat.log2 d = k
  have hq : (0 : ℚ) < (shiftFrac m d (-k)).2 := by exact_mod_cast shiftFrac_snd_pos m (-k) hd
  have hcmp : (shiftFrac m d (-k)).2 ≤ (shiftFrac m d (-k)).1 ↔ (2 : ℚ) ^ k ≤ m / d := by
    rw [← Nat.cast_le (α := ℚ), ← one_le_div₀ hq, shiftFrac_div, zpow_neg, ← div_eq_mul_inv, one_le_div₀ (by positivity)]
  simp only [floorLog2, hk, hcmp]

/-- `floorLog2` gives the power of two at or just below a value. -/
theorem floorLog2_spec {m d : Nat} (e : ℤ) (hm : 0 < m) (hd : 0 < d) :
    (2 : ℚ) ^ floorLog2 m d e ≤ m / d * 2 ^ e ∧ (m / d * 2 ^ e : ℚ) < 2 ^ (floorLog2 m d e + 1) := by
  have hlow := zpow_log2_sub_le_div hm hd
  have hhigh := div_lt_zpow_log2_sub (m := m) hd
  rw [floorLog2_eq m e hd, add_right_comm, zpow_add₀ two_ne_zero _ e, zpow_add₀ two_ne_zero _ e]
  split
  case isTrue h => exact ⟨by gcongr, by gcongr⟩
  case isFalse h => exact ⟨by gcongr, by rw [sub_add_cancel]; gcongr; exact not_le.mp h⟩

/-! ### Rounding a magnitude (R48) -/

namespace Fmt

variable {f : Fmt}

/-- A magnitude stands at the part `r / q` of the way from a code to the next one. -/
def Between (f : Fmt) (x : ℚ) (c r q : Nat) : Prop := r < q ∧ x = f.mag c + r / q * (f.mag (c + 1) - f.mag c)

/-- Quotient and remainder of a fraction. -/
theorem cast_div_eq_add (n : Nat) {q : Nat} (hq : 0 < q) : (n / q : ℚ) = (n / q : Nat) + (n % q : Nat) / q := by
  have hq' : (q : ℚ) ≠ 0 := by exact_mod_cast hq.ne'
  have hn : (n : ℚ) = q * (n / q : Nat) + (n % q : Nat) := by exact_mod_cast (Nat.div_add_mod n q).symm
  rw [div_eq_iff hq', add_mul, div_mul_cancel₀ _ hq', hn, mul_comm]

/-- A quotient that stands for a value within `[2^g, 2^(g+1))`, in last places of `2^(g-w)`, has `w + 1` bits. -/
theorem quotient_bits {x : ℚ} {n q w : Nat} {g : ℤ} (hx : (n / q : ℚ) = x * 2 ^ (w - g)) :
    (x < 2 ^ (g + 1) → n / q < 2 ^ (w + 1)) ∧ (2 ^ g ≤ x → 2 ^ w ≤ n / q) := by
  have hpow (i : ℤ) : (2 : ℚ) ^ (g + i) * 2 ^ (w - g) = 2 ^ (w + i) := by rw [← zpow_add₀ two_ne_zero]; ring_nf
  rw [← Nat.floor_div_eq_div (K := ℚ), Nat.floor_lt (by positivity), Nat.le_floor_iff (by positivity), hx]
  constructor <;> intro h
  · calc x * 2 ^ (w - g) < 2 ^ (g + 1) * 2 ^ (w - g) := by gcongr
      _ = (2 ^ (w + 1) : Nat) := by rw [hpow]; norm_cast
  · calc ((2 ^ w : Nat) : ℚ) = 2 ^ g * 2 ^ (w - g) := by simpa using (hpow 0).symm
      _ ≤ x * 2 ^ (w - g) := by gcongr

/-- Where `Fmt.round` finds a value: in last places of the greater of its binade and the least one, the code below and what is left
over (R48). -/
theorem between_quotient (f : Fmt) {m d : Nat} (e : ℤ) (hm : 0 < m) (hd : 0 < d) {g : ℤ}
    (hg : g = max (floorLog2 m d e) (1 - (f.bias : ℤ))) {n q : Nat} (hnq : shiftFrac m d (e - g + f.fw) = (n, q)) :
    f.Between (m / d * 2 ^ e) ((g + f.bias - 1).toNat * 2 ^ f.fw + n / q) (n % q) q := by
  have hq : 0 < q := by simpa [hnq] using shiftFrac_snd_pos m (e - g + f.fw) hd
  have hquot : (n / q : ℚ) = m / d * 2 ^ e * 2 ^ (f.fw - g) := by
    have hdiv := shiftFrac_div m d (e - g + f.fw)
    rw [hnq] at hdiv
    rw [hdiv, mul_assoc, ← zpow_add₀ two_ne_zero]
    ring_nf
  obtain ⟨hlow, hhigh⟩ := floorLog2_spec e hm hd
  obtain ⟨hfit, hnorm⟩ := quotient_bits hquot
  replace hfit : n / q < 2 ^ (f.fw + 1) :=
    hfit (hhigh.trans_le (zpow_le_zpow_right₀ one_le_two (by rw [hg]; gcongr; exact le_max_left ..)))
  replace hnorm : (g + f.bias - 1).toNat = 0 ∨ 2 ^ f.fw ≤ n / q := by
    rcases le_total (floorLog2 m d e) (1 - (f.bias : ℤ)) with h | h
    · left; rw [hg, max_eq_right h]; omega
    · right; exact hnorm (by rwa [hg, max_eq_left h])
  have hexp : (((g + f.bias - 1).toNat : ℤ)) + 1 - f.bias - f.fw = g - f.fw := by omega
  refine ⟨Nat.mod_lt _ hq, ?_⟩
  rw [add_assoc, f.mag_mul_add hnorm hfit.le, f.mag_mul_add (hnorm.imp_right Nat.le_succ_of_le) hfit, hexp]
  calc (m / d * 2 ^ e : ℚ) = n / q * 2 ^ (g - f.fw) := by
        rw [hquot, mul_assoc, ← zpow_add₀ two_ne_zero]; simp
    _ = _ := by rw [cast_div_eq_add n hq]; push_cast; ring

/-- Rounding takes the code below or the next one, as `roundUp` says of the part between them. -/
theorem exists_between_round (hf : f.Ok) {m d : Nat} (e : ℤ) (hm : 0 < m) (hd : 0 < d) :
    ∃ c n r q, f.Between (m / d * 2 ^ e) c r q ∧ n % 2 = c % 2 ∧ ∀ md w s, f.round md w (.fin s m d e) =
      if f.maxCode < c + (if roundUp md s w n r q then 1 else 0) then f.overflow md s
      else f.signCode s + (c + if roundUp md s w n r q then 1 else 0) := by
  obtain ⟨g, hg⟩ : ∃ g, g = max (floorLog2 m d e) (1 - (f.bias : ℤ)) := ⟨_, rfl⟩
  obtain ⟨⟨n, q⟩, hnq⟩ : ∃ p, shiftFrac m d (e - g + f.fw) = p := ⟨_, rfl⟩
  obtain ⟨i, hi⟩ : ∃ i, f.fw = i + 1 := Nat.exists_eq_add_of_le' hf.fw_pos
  refine ⟨_, n / q, _, q, f.between_quotient e hm hd hg hnq, ?_, fun md w s => ?_⟩
  · rw [hi, pow_succ, ← mul_assoc]; omega
  · simp only [round, hm.ne', if_false, ← hg, hnq, add_assoc]

/-! ### Rounding to nearest even -/

theorem roundUp_ne_iff (s : Bool) (w : BitVec 16) (n r q : Nat) (hr : r < q) :
    roundUp .ne s w n r q = true ↔ q < 2 * r ∨ 2 * r = q ∧ n % 2 = 1 := by
  rw [roundUp]
  split
  · simp; omega
  · simp

theorem roundUp_zero (md : Rm) (s : Bool) (w : BitVec 16) (n q : Nat) : roundUp md s w n 0 q = false := by simp [roundUp]

theorem mag_succ_sub_pos (f : Fmt) (c : Nat) : 0 < f.mag (c + 1) - f.mag c :=
  sub_pos.mpr (f.mag_strictMono (Nat.lt_succ_self c))

/-- No code lies between a code and the next. -/
theorem mag_le_or_le (f : Fmt) (c c' : Nat) : f.mag c' ≤ f.mag c ∨ f.mag (c + 1) ≤ f.mag c' :=
  (Nat.lt_or_ge c c').symm.imp (fun h => f.mag_strictMono.monotone h) fun h => f.mag_strictMono.monotone h

section Between

variable {x : ℚ} {c r q : Nat} (h : f.Between x c r q)
include h

theorem Between.q_pos : (0 : ℚ) < q := by exact_mod_cast (Nat.zero_le r).trans_lt h.1

theorem Between.mag_le : f.mag c ≤ x := by
  have := f.mag_succ_sub_pos c
  rw [h.2]
  exact le_add_of_nonneg_right (by positivity)

theorem Between.mag_lt (hr : r ≠ 0) : f.mag c < x := by
  have := f.mag_succ_sub_pos c
  have := h.q_pos
  rw [h.2]
  exact lt_add_of_pos_right _ (by positivity)

theorem Between.lt_mag_succ : x < f.mag (c + 1) := by
  have hr : (r / q : ℚ) < 1 := (div_lt_one h.q_pos).mpr (by exact_mod_cast h.1)
  have := mul_lt_of_lt_one_left (f.mag_succ_sub_pos c) hr
  rw [h.2]
  linarith

/-- The distance from the middle. -/
theorem Between.sub_middle : 2 * x - (f.mag c + f.mag (c + 1)) = (2 * r - q) / q * (f.mag (c + 1) - f.mag c) := by
  have := h.q_pos
  rw [h.2]
  field_simp
  ring

theorem Between.lt_two_mul_iff : q < 2 * r ↔ f.mag c + f.mag (c + 1) < 2 * x := by
  rw [← sub_pos (a := 2 * x), h.sub_middle, mul_pos_iff_of_pos_right (f.mag_succ_sub_pos c), div_pos_iff_of_pos_right h.q_pos, sub_pos]
  exact_mod_cast Iff.rfl

theorem Between.two_mul_eq_iff : 2 * r = q ↔ 2 * x = f.mag c + f.mag (c + 1) := by
  rw [← sub_eq_zero (a := 2 * x), h.sub_middle, mul_eq_zero_iff_right (f.mag_succ_sub_pos c).ne',
    div_eq_zero_iff, or_iff_left h.q_pos.ne', sub_eq_zero]
  exact_mod_cast Iff.rfl

/-- A magnitude up to the largest number is not rounded beyond it. -/
theorem Between.round_le (hx : x ≤ f.mag f.maxCode) (md : Rm) (s : Bool) (w : BitVec 16) (n : Nat) :
    c + (if roundUp md s w n r q then 1 else 0) ≤ f.maxCode := by
  split
  case isFalse => exact f.mag_strictMono.le_iff_le.mp (h.mag_le.trans hx)
  case isTrue hup =>
    have hr : r ≠ 0 := by rintro rfl; simp [roundUp_zero] at hup
    exact f.mag_strictMono.lt_iff_lt.mp ((h.mag_lt hr).trans_le hx)

/-- To nearest even, of two magnitudes about `x` between which there is no other: the code taken is the nearer one, and the even one
where both are equally near. -/
theorem Between.nearest {s : Bool} {w : BitVec 16} {n k : Nat} (hn : n % 2 = c % 2)
    (hk : k = c + if roundUp .ne s w n r q then 1 else 0) {y : ℚ} (hy : y ≤ f.mag c ∨ f.mag (c + 1) ≤ y) :
    |f.mag k - x| ≤ |y - x| ∧ (|f.mag k - x| = |y - x| → y ≠ f.mag k → k % 2 = 0) := by
  have hlow := h.mag_le
  have hhigh := h.lt_mag_succ
  have hup := roundUp_ne_iff s w n r q h.1
  rw [h.lt_two_mul_iff, h.two_mul_eq_iff] at hup
  split at hk
  case isTrue hb =>
    subst hk
    rw [abs_of_pos (sub_pos.mpr hhigh)]
    have hmid := hup.mp hb
    have hx : f.mag c + f.mag (c + 1) ≤ 2 * x := hmid.elim le_of_lt fun hm => hm.1.ge
    rcases hy with hy | hy
    · rw [abs_of_nonpos (by linarith)]
      refine ⟨by linarith, fun heq _ => ?_⟩
      have := (hmid.resolve_left (by linarith)).2
      omega
    · rw [abs_of_nonneg (by linarith)]
      exact ⟨by linarith, fun heq hne => absurd (by linarith) hne⟩
  case isFalse hb =>
    subst hk
    rw [abs_of_nonpos (by simpa using hlow)]
    obtain ⟨hmid, hodd⟩ := not_or.mp (mt hup.mpr hb)
    rcases hy with hy | hy
    · rw [abs_of_nonpos (by linarith)]
      exact ⟨by linarith, fun heq hne => absurd (by linarith) hne⟩
    · rw [abs_of_nonneg (by linarith)]
      refine ⟨by linarith, fun heq _ => ?_⟩
      have := (not_and.mp hodd) (by linarith)
      omega

end Between

/-! ### The numbers of the format -/

theorem abs_sgn_mul_sub (s : Bool) (x y : ℚ) : |Fp.sgn s * x - y| = |x - Fp.sgn s * y| := by
  cases s
  · simp [Fp.sgn]
  · rw [← abs_neg]; simp [Fp.sgn]; ring_nf

theorem signCode_even (hf : f.Ok) (s : Bool) : f.signCode s % 2 = 0 := by
  obtain ⟨i, hi⟩ : ∃ i, f.mw = i + 1 := Nat.exists_eq_add_of_le' (Nat.add_pos_left hf.ew_pos _)
  cases s <;> simp [signCode, hi, pow_succ]

/-- Of either sign, no number of a format lies between the magnitude of a code and that of the next. -/
theorem HasVal.le_or_le (hf : f.Ok) {c' : Nat} {v : ℚ} (h : f.HasVal c' v) (s : Bool) (c : Nat) :
    Fp.sgn s * v ≤ f.mag c ∨ f.mag (c + 1) ≤ Fp.sgn s * v := by
  obtain ⟨-, rfl⟩ := (hasVal_iff hf c' v).mp h
  rw [← mul_assoc, ← Fp.sgn_bne]
  cases s != f.sign c'
  · simpa [Fp.sgn] using f.mag_le_or_le c _
  · have := f.mag_nonneg c
    have := f.mag_nonneg (c' % 2 ^ f.mw)
    left
    simp only [Fp.sgn, if_true]
    linarith

/-- The value of the largest code bounds the numbers. -/
theorem HasVal.eq_mag_maxCode (hf : f.Ok) {top : ℚ} (h : f.HasVal f.maxCode top) : top = f.mag f.maxCode := by
  have hlt := maxCode_lt hf
  obtain ⟨-, rfl⟩ := (hasVal_iff hf _ _).mp h
  simp [sign, Nat.mod_eq_of_lt hlt, Nat.div_eq_of_lt hlt, Fp.sgn]

theorem abs_val (s : Bool) (m d : Nat) (e : ℤ) : |Fp.val s m d e| = m / d * 2 ^ e := by
  rw [Fp.val_eq, mul_assoc, abs_mul, Fp.abs_sgn, one_mul, abs_of_nonneg (by positivity)]

/-- Rounding to nearest even of a value within the range of the format. -/
theorem round_ne_nearest (hf : f.Ok) (w : BitVec 16) (s : Bool) (m : Nat) {d : Nat} (e : ℤ) (hd : 0 < d)
    (htop : |Fp.val s m d e| ≤ f.mag f.maxCode) :
    ∃ v, f.HasVal (f.round .ne w (.fin s m d e)) v ∧
      ∀ c' v', f.HasVal c' v' → |v - Fp.val s m d e| ≤ |v' - Fp.val s m d e| ∧
        (|v - Fp.val s m d e| = |v' - Fp.val s m d e| → v' ≠ v → f.round .ne w (.fin s m d e) % 2 = 0) := by
  rcases Nat.eq_zero_or_pos m with rfl | hm
  case inl =>
    refine ⟨0, ?_, fun c' v' _ => ?_⟩
    · simpa [round] using hasVal_signCode_add hf s (Nat.zero_le _)
    · simp [round, signCode_even hf]
  case inr =>
    rw [abs_val] at htop
    obtain ⟨c, n, r, q, hbetween, hparity, hround⟩ := exists_between_round hf e hm hd
    have hle := hbetween.round_le htop .ne s w n
    rw [hround, if_neg (not_lt.mpr hle)]
    refine ⟨_, hasVal_signCode_add hf s hle, fun c' v' hv => ?_⟩
    obtain ⟨hnear, htie⟩ := hbetween.nearest hparity rfl (hv.le_or_le hf s c)
    rw [Fp.val_eq, mul_assoc, abs_sgn_mul_sub, ← mul_assoc, Fp.sgn_mul_self, one_mul, ← abs_sgn_mul_sub]
    refine ⟨hnear, fun heq hne => ?_⟩
    have := htie heq fun h => hne (by rw [← h, ← mul_assoc, Fp.sgn_mul_self, one_mul])
    have := signCode_even hf s
    omega

/-! # Widening (O9) -/

/-- A format each of whose magnitudes is one of `F`: its last place is no finer and its largest number no larger. -/
structure Narrower (f F : Fmt) : Prop where
  fw : f.fw ≤ F.fw
  last : f.bias + f.fw ≤ F.bias + F.fw
  top : f.mag f.maxCode ≤ F.mag F.maxCode

/-- A significand that fits, in the last places of a binade of the format, is the magnitude of a code, once it is normalised. -/
theorem exists_mag_eq (F : Fmt) (j : Nat) {k : Nat} (hk : k < 2 ^ (F.fw + 1)) :
    ∃ c, F.mag c = k * 2 ^ ((j : ℤ) + 1 - F.bias - F.fw) := by
  induction j generalizing k with
  | zero => exact ⟨_, F.mag_mul_add (j := 0) (.inl rfl) hk.le⟩
  | succ j ih =>
    rcases lt_or_ge k (2 ^ F.fw) with hlt | hge
    · obtain ⟨c, hc⟩ := ih (k := 2 * k) (by rw [pow_succ]; omega)
      refine ⟨c, ?_⟩
      rw [hc, show ((j + 1 : Nat) : ℤ) + 1 - F.bias - F.fw = (j + 1 - F.bias - F.fw) + 1 by push_cast; ring,
        zpow_add_one₀ two_ne_zero]
      push_cast
      ring
    · exact ⟨_, F.mag_mul_add (.inr hge) hk.le⟩

theorem Narrower.exists_mag_eq {F : Fmt} (h : f.Narrower F) (c : Nat) : ∃ C, F.mag C = f.mag c := by
  obtain ⟨j, k, rfl, hj, hk⟩ := f.exists_eq_mul_add c
  have hk' : k < 2 ^ (F.fw + 1) := hk.trans_le (Nat.pow_le_pow_right two_pos (Nat.succ_le_succ h.fw))
  obtain ⟨C, hC⟩ := F.exists_mag_eq (j + ((F.bias + F.fw) - (f.bias + f.fw))) hk'
  refine ⟨C, ?_⟩
  rw [hC, f.mag_mul_add hj hk.le]
  have := h.last
  congr 2
  omega

/-- A number of a narrower format is a number of the wider one. -/
theorem Narrower.hasVal {F : Fmt} (hf : f.Ok) (hF : F.Ok) (h : f.Narrower F) {c : Nat} {v : ℚ} (hv : f.HasVal c v) :
    ∃ C, F.HasVal C v := by
  obtain ⟨hle, rfl⟩ := (hasVal_iff hf c v).mp hv
  obtain ⟨C, hC⟩ := h.exists_mag_eq (c % 2 ^ f.mw)
  refine ⟨_, hC ▸ hasVal_signCode_add hF (f.sign c) (F.mag_strictMono.le_iff_le.mp ?_)⟩
  rw [hC]
  exact (f.mag_strictMono.monotone hle).trans h.top

theorem HasVal.abs_le (hf : f.Ok) {c : Nat} {v : ℚ} (h : f.HasVal c v) : |v| ≤ f.mag f.maxCode := by
  obtain ⟨hle, rfl⟩ := (hasVal_iff hf c v).mp h
  rw [abs_mul, abs_of_nonneg (f.mag_nonneg _), Fp.abs_sgn, one_mul]
  exact f.mag_strictMono.monotone hle

/-- Rounding a number of the format to nearest keeps it: no other number is nearer to it than itself. -/
theorem HasVal.round_ne (hf : f.Ok) (w : BitVec 16) (s : Bool) (m : Nat) {d : Nat} (e : ℤ) (hd : 0 < d) {c : Nat}
    (h : f.HasVal c (Fp.val s m d e)) : f.HasVal (f.round .ne w (.fin s m d e)) (Fp.val s m d e) := by
  obtain ⟨v, hv, hnear⟩ := round_ne_nearest hf w s m e hd (h.abs_le hf)
  have := (hnear c _ h).1
  rw [sub_self, abs_zero, abs_nonpos_iff, sub_eq_zero] at this
  rwa [this] at hv

/-- A conversion to a wider format keeps every number. -/
theorem Narrower.hasVal_widen {F : Fmt} (hf : f.Ok) (hF : F.Ok) (h : f.Narrower F) {c : Nat} {v : ℚ} (hv : f.HasVal c v) :
    F.HasVal (Sys2Proof.widen f F c) v := by
  obtain ⟨C, hC⟩ := h.hasVal hf hF hv
  obtain ⟨hle, -⟩ := (hasVal_iff hf c v).mp hv
  obtain ⟨m, e, hfin, -⟩ := decode_of_le hf hle
  obtain ⟨s', m', d', e', hfin', rfl⟩ := hv
  rw [hfin] at hfin'
  cases hfin'
  rw [widen, hfin]
  exact hC.round_ne hF 0 _ m e one_pos

theorem narrower_fp32 {f : Fmt} (hf : f ∈ [e4m3, e5m2, bf16, fp16]) : f.Narrower fp32 := by
  simp only [List.mem_cons, List.not_mem_nil, or_false] at hf
  rcases hf with rfl | rfl | rfl | rfl <;>
    exact ⟨by decide, by decide, by norm_num [mag, maxCode, e4m3, e5m2, bf16, fp16, fp32]⟩

theorem fp32_narrower_fp64 : fp32.Narrower fp64 := by
  refine ⟨by decide, by decide, ?_⟩
  calc fp32.mag fp32.maxCode = (2 ^ 24 - 1) * 2 ^ 104 := by norm_num [mag, maxCode, fp32]
    _ ≤ (2 ^ 53 - 1) * 2 ^ 971 := by gcongr <;> norm_num
    _ = fp64.mag fp64.maxCode := by norm_num [mag, maxCode, fp64]

end Fmt

end Sys2Proof

namespace Sys2Proof.Machine

/-- Settles O7: a value stands between two neighbouring codes, and `roundUp` compares it with their middle. -/
theorem roundNearestIsNearest : Obligations.RoundNearestIsNearest := by
  intro f hf w s m d e top hd htop hle
  have hok := Fmt.ok_of_mem_formats hf
  exact Fmt.round_ne_nearest hok w s m e hd (htop.eq_mag_maxCode hok ▸ hle)

/-- Settles O9: a number of the narrower format is one of the wider, and rounding to nearest keeps a number. -/
theorem wideningKeepsTheNumber : Obligations.WideningKeepsTheNumber := by
  have h32 : Fmt.fp32.Ok := Fmt.ok_of_mem_formats (by simp [formats])
  have h64 : Fmt.fp64.Ok := Fmt.ok_of_mem_formats (by simp [formats])
  refine ⟨fun f hf c v hv => ?_, fun c v hv => Fmt.fp32_narrower_fp64.hasVal_widen h32 h64 hv⟩
  exact (Fmt.narrower_fp32 hf).hasVal_widen (Fmt.ok_of_mem_formats (by simp [formats] at hf ⊢; tauto)) h32 hv

end Sys2Proof.Machine

/-! # Loads from and stores to the core's own local memory (O21, O24)

`OwnLocal` is taken apart once, into what the address says and what the checks of R275 answer; loads and stores then have one equation
each for the next state that they give. -/

namespace Sys2Proof.Machine

/-! ### An instruction that writes a general register -/

theorem Ctx.wg_eq (c : Ctx) (d : BitVec 5) (v : W64) : c.wg d v = { c with g := (c.wg d v).g } := by
  unfold Ctx.wg
  split <;> rfl

/-- A next state that differs in one general register of the context in issue. -/
theorem givesG_of_exec {i : Instr} {s : State} {d : BitVec 5} {v : W64} (h : exec i s = .next (s.gw d v)) : GivesG i s d v := by
  refine ⟨_, h, ?_, ⟨?_, fun a ha => ?_⟩, rfl, fun r hr => s.ctx_modC_of_ne _ hr, s.byte_gw d v⟩
  · by_cases hd : d = 0 <;> simp [State.g_gw, hd]
  · rw [State.gw, State.c_modC]
    exact Ctx.wg_eq ..
  · rw [State.g_gw, if_neg ha]
    split
    · next h0 => rw [h0]; rfl
    · rfl

/-! ### Addresses -/

theorem State.ea_eq_offAddr (s : State) (a : BitVec 5) (o : BitVec 11) (size : Nat) : s.ea a o size = offAddr s a o size := by
  rw [offAddr, BitVec.ofInt_add, BitVec.ofInt_mul, BitVec.ofInt_toInt, BitVec.ofInt_natCast]
  rfl

@[simp] theorem ldSize_eq_loadedBytes (m : LdMode) : ldSize m = loadedBytes m := by cases m <;> rfl

@[simp] theorem stSize_eq_storedBytes (z : StSize) : stSize z = storedBytes z := by cases z <;> rfl

theorem loadedBytes_dvd (m : LdMode) : loadedBytes m ∣ 128 := by cases m <;> decide

theorem storedBytes_dvd (z : StSize) : storedBytes z ∣ 128 := by cases z <;> decide

/-- The scale descriptor of a window (R22). -/
abbrev State.windowDesc (s : State) (c : Nat) : W64 := s.c.wscale.toList.getD (c - 1) 0

theorem elemBytes_dvd_four (c : Nat) : elemBytes c ∣ 4 := by unfold elemBytes; split <;> decide

theorem elemBytes_dvd (c : Nat) : elemBytes c ∣ 128 := (elemBytes_dvd_four c).trans (by decide)

section OwnLocal

variable {s : State} {va : W64} {off n c : Nat} {write : Bool} (h : OwnLocal s va off n c write)
include h

theorem OwnLocal.code_lt : c < 6 := by
  obtain ⟨-, -, -, -, hc, -⟩ := h
  exact hc

theorem OwnLocal.toNat_va : va.toNat = 0xFFFFFFFFFFC00000 + 524288 * c + off := by
  obtain ⟨-, -, hoff, -, hc, rfl, -⟩ := h
  rw [BitVec.toNat_ofNat]
  omega

theorem OwnLocal.canonical : canonical va = true := by
  have := h.toNat_va
  obtain ⟨-, -, hoff, -, hc, -⟩ := h
  simp only [Machine.canonical, Bool.or_eq_true, decide_eq_true_eq]
  omega

theorem OwnLocal.bit55 : bit va 55 = true := by
  have := h.toNat_va
  obtain ⟨-, -, hoff, -, hc, -⟩ := h
  rw [bit, BitVec.getLsbD, Nat.testBit_eq_decide_div_mod_eq, decide_eq_true_eq]
  omega

theorem OwnLocal.aperture (hn : 0 < n) : s.aperture s.cur va = some (.loc s.cur.core off c) := by
  have := h.toNat_va
  obtain ⟨-, -, hoff, -, hc, -⟩ := h
  have hcode : va.toNat / 524288 % 8 = c := by omega
  have hpos : va.toNat % 524288 = off := by omega
  simp only [State.aperture, hcode, hpos]
  rw [if_pos (by omega)]

theorem OwnLocal.localCode (hn : 0 < n) : s.localCode va = some c := by
  simp [State.localCode, State.engLoc, h.canonical, h.bit55, h.aperture hn]

theorem OwnLocal.localCheck : s.localCheck s.cur s.cur.core off n c write = none := by
  obtain ⟨-, -, -, -, hc, -, hwin, -, hheld⟩ := h
  rw [State.localCheck, if_neg (by omega), if_neg (by omega)]
  rcases hheld with hsys | ⟨htask, hcov⟩
  · exact if_pos hsys
  · simp [hcov, Nat.not_lt.mpr htask]

theorem OwnLocal.aligned (hn : n ∣ 128) : va.toNat % n = 0 := by
  rw [h.toNat_va]
  obtain ⟨-, -, -, halign, -⟩ := h
  have hbase : n ∣ 0xFFFFFFFFFFC00000 := hn.trans (by decide)
  have hwin : n ∣ 524288 * c := hn.trans (Dvd.dvd.mul_right (by decide) c)
  exact Nat.mod_eq_zero_of_dvd ((hbase.add hwin).add (Nat.dvd_of_mod_eq_zero halign))

/-- The rows of R275 let the access through. -/
theorem OwnLocal.check (hn : n ∣ 128) {a : Access} (hsize : a.size = n) (halign : a.align = n) (hwrite : a.write = write)
    (hlocal : a.noLocal = false) (hwin : c = 0 ∨ a.window = true) :
    s.check s.cur a va = .ok (.loc s.cur.core off c) := by
  have hpos : 0 < n := Nat.pos_of_dvd_of_pos hn (by decide)
  have hraw : ¬ c = 0 → a.window = true := fun hc => hwin.resolve_left hc
  simpa [State.check, h.canonical, h.bit55, h.aperture hpos, hlocal, halign, h.aligned hn, hsize, hwrite, h.localCheck]

/-- No bank of the access is gated: it powers none up (R68). -/
theorem OwnLocal.powerUp : s.powerUp s.cur.site s.cur.core off n = s := by
  obtain ⟨-, -, -, -, -, -, -, hgated, -⟩ := h
  have hnone : (banksOf off n).filter (fun b => (s.core s.cur.site s.cur.core).gated.getLsbD b) = [] := by
    simpa [List.filter_eq_nil_iff] using hgated
  simp [State.powerUp, hnone]

/-- The access's bytes stand at the same place in a line as its address says. -/
theorem OwnLocal.toNat_va_mod : va.toNat % 128 = ownPa s off % 128 := by
  rw [h.toNat_va, ownPa, lmemPa, mkPa]
  omega

theorem OwnLocal.within_line (hn : n ∣ 128) : ownPa s off % 128 + n ≤ 128 := by
  have hva := h.toNat_va_mod ▸ (Nat.dvd_mod_iff hn).mpr (Nat.dvd_of_mod_eq_zero (h.aligned hn))
  obtain ⟨k, hk⟩ := hn
  obtain ⟨j, hj⟩ := hva
  have hlt : n * j < n * k := by rw [← hj, ← hk]; exact Nat.mod_lt _ (by decide)
  rw [hj, hk, ← Nat.mul_succ]
  exact Nat.mul_le_mul_left n (Nat.lt_of_mul_lt_mul_left hlt)

end OwnLocal

/-! ### Bytes of a line -/

theorem State.drop_bytes (s : State) (pa n j : Nat) : (s.bytes pa n).drop j = s.bytes (pa + j) (n - j) := by
  induction j generalizing pa n with
  | zero => rfl
  | succ j ih =>
    cases n with
    | zero => simp [State.bytes]
    | succ n => rw [State.bytes, List.drop_succ_cons, ih, Nat.succ_sub_succ, Nat.add_assoc, Nat.add_comm 1]

theorem State.take_bytes (s : State) (pa : Nat) {n k : Nat} (h : k ≤ n) : (s.bytes pa n).take k = s.bytes pa k := by
  induction k generalizing pa n with
  | zero => rfl
  | succ k ih =>
    cases n with
    | zero => omega
    | succ n => rw [State.bytes, List.take_succ_cons, ih _ (by omega), State.bytes]

/-- The number at the place of an address in its line is the number at that address. -/
theorem State.fieldAt_lineBytes (s : State) {pa n : Nat} (h : pa % 128 + n ≤ 128) :
    fieldAt (s.lineBytes pa) (pa % 128) n = ofBytes (s.bytes pa n) := by
  rw [fieldAt, State.lineBytes, State.drop_bytes, State.take_bytes _ _ (by omega), Nat.div_add_mod' pa 128]

/-! ### Loads -/

section Loads

variable {s : State} {va : W64} {off n c : Nat}

/-- A load of own local memory delivers its bytes at once. -/
theorem OwnLocal.loadAt {write : Bool} (h : OwnLocal s va off n c write) (dst : LoadDst) :
    s.loadAt va n dst (.loc s.cur.core off c) = s.modC fun k => k.deliver dst (s.lineBytes (ownPa s off)) := by
  simp only [State.loadAt, h.powerUp, if_true]
  rfl

theorem ldExtend_eq_loaded (m : LdMode) (x : Nat) : ldExtend m x = loaded m x := by cases m <;> rfl

theorem OwnLocal.plainLoad (d : BitVec 5) (m : LdMode) (h : OwnLocal s va off (loadedBytes m) 0 false) :
    s.plainLoad d m va = s.gw d (loaded m (ofBytes (s.bytes (ownPa s off) (loadedBytes m)))) := by
  have hn := loadedBytes_dvd m
  simp only [State.plainLoad, State.reach, State.reachPast, State.reachAll, ldSize_eq_loadedBytes,
    h.check hn (a := Access.plain (loadedBytes m) false) rfl rfl rfl rfl (.inl rfl)]
  simp only [Bool.false_eq_true, if_false, h.loadAt, Ctx.deliver, ldExtend_eq_loaded, ldSize_eq_loadedBytes,
    h.toNat_va_mod, s.fieldAt_lineBytes (h.within_line hn)]
  rfl

/-- An access through a window of own local memory, with no scale (EN = 0) and a rounding that the window's descriptor may name, goes
on with its target. -/
theorem OwnLocal.winAccess {write : Bool} (h : OwnLocal s va off n c write) (hc : 0 < c) (hn : elemBytes c = n)
    (hen : bit (s.windowDesc c) 0 = false)
    (hmode : write = true → bits (s.windowDesc c) 1 3 ≤ 4) (busy : Bool)
    (f : State → Target → Nat → Option W32 → State) :
    s.winAccess busy n write va f = f s (.loc s.cur.core off c) c none := by
  have hdvd := hn ▸ elemBytes_dvd c
  have hlt := h.code_lt
  have hbad : (decide (c = 0) || decide (5 < c) || decide (elemBytes c ≠ n)) = false := by simp [hn]; omega
  have hscale : s.scaleOf c write (.loc s.cur.core off c) = .none := by
    rw [State.scaleOf, if_neg (fun hw => absurd (hmode hw.1) (Nat.not_le.mpr hw.2)), hen]
    rfl
  have hcheck := h.check hdvd (a := Access.win n write) rfl rfl rfl rfl (.inr rfl)
  rw [State.winAccess, h.localCode (Nat.pos_of_dvd_of_pos hdvd (by decide))]
  simp only [hbad, Bool.false_eq_true, and_false, if_false, State.reachAll, hcheck, Target.code, hscale, State.withScale]
  exact if_neg (Bool.eq_false_iff.mp hbad)

theorem length_bytes (s : State) (pa n : Nat) : (s.bytes pa n).length = n := by
  induction n generalizing pa with
  | zero => rfl
  | succ n ih => rw [State.bytes, List.length_cons, ih]

theorem ofBytes_lt (l : List Byte) : ofBytes l < 256 ^ l.length := by
  induction l with
  | nil => decide
  | cons b l ih =>
    have := b.isLt
    rw [ofBytes, List.length_cons, pow_succ]
    omega

/-- The result of a widening load as R278 says it: of an INT8 window sign-extended, of any other zero-extended. -/
theorem widenG_ofBytes {l : List Byte} (hl : l.length ≤ 4) (c : Nat) (scale : Option W32) :
    let out := windowLoad c (BitVec.ofNat 32 (ofBytes l)).toNat scale
    widenG c (ofBytes l) scale = if c = 5 then out.signExtend 64 else BitVec.ofNat 64 out.toNat := by
  have hlt : ofBytes l < 2 ^ 32 := (ofBytes_lt l).trans_le (Nat.pow_le_pow_right (by decide) hl : 256 ^ l.length ≤ 256 ^ 4)
  simp only [BitVec.toNat_ofNat, Nat.mod_eq_of_lt hlt, BitVec.ofNat_toNat]
  rfl

theorem OwnLocal.widenLoad (h : OwnLocal s va off n c false) (d : BitVec 5) (hc : 0 < c) (hn : elemBytes c = n)
    (hen : bit (s.windowDesc c) 0 = false) :
    let out := windowLoad c (BitVec.ofNat 32 (ofBytes (s.bytes (ownPa s off) (elemBytes c)))).toNat none
    s.widenLoad d n va = s.gw d (if c = 5 then out.signExtend 64 else BitVec.ofNat 64 out.toNat) := by
  have hdvd := hn ▸ elemBytes_dvd c
  have hlen : (s.bytes (ownPa s off) (elemBytes c)).length ≤ 4 :=
    (length_bytes ..).trans_le (Nat.le_of_dvd (by decide) (elemBytes_dvd_four c))
  intro out
  rw [State.widenLoad, h.winAccess hc hn hen nofun, ← widenG_ofBytes hlen c none]
  simp only [h.loadAt, Ctx.deliver, h.toNat_va_mod, hn, s.fieldAt_lineBytes (h.within_line hdvd)]
  rfl

end Loads

theorem exec_ld (d a : BitVec 5) (m : LdMode) (o : BitVec 11) (s : State) :
    exec (.ld d a m o) s = .next (s.plainLoad d m (offAddr s a o (loadedBytes m))) := by
  rw [← s.ea_eq_offAddr, ← ldSize_eq_loadedBytes]; rfl

theorem exec_ldIndexed (d a b : BitVec 5) (m : LdMode) (s : State) :
    exec (.ldIndexed d a b m) s = .next (s.plainLoad d m (s.g a + s.g b)) := rfl

theorem exec_ldxB (d a : BitVec 5) (o : BitVec 11) (s : State) :
    exec (.ldxB d a o) s = .next (s.widenLoad d 1 (offAddr s a o 1)) := by
  rw [← s.ea_eq_offAddr]; rfl

theorem exec_ldxH (d a : BitVec 5) (o : BitVec 11) (s : State) :
    exec (.ldxH d a o) s = .next (s.widenLoad d 2 (offAddr s a o 2)) := by
  rw [← s.ea_eq_offAddr]; rfl

theorem exec_ldk (d : BitVec 5) (k : BitVec 8) (s : State) :
    exec (.ldk d k) s = .next (s.gw d (BitVec.ofNat 64 (ofBytes (s.bytes (ownPa s (2048 * s.cur.ctx + 8 * k.toNat)) 8)))) := rfl

/-- Settles O21: own local memory delivers its bytes at once, and a load's destination makes of them what R277 and R278 say. -/
theorem localLoadResults : Obligations.LocalLoadResults := by
  intro s d a b m o w off c n raw wide out reg
  refine ⟨fun h => givesG_of_exec ?_, fun h => givesG_of_exec ?_, fun h hc hen => givesG_of_exec ?_,
    fun h hc hen => givesG_of_exec ?_, givesG_of_exec (exec_ldk d w s)⟩
  · rw [exec_ld, h.plainLoad]
  · rw [exec_ldIndexed, h.plainLoad]
  · have hsize : elemBytes c = 1 := by rcases hc with rfl | rfl | rfl <;> rfl
    rw [exec_ldxB, h.widenLoad d (by omega) hsize hen]
  · have hsize : elemBytes c = 2 := by rcases hc with rfl | rfl <;> rfl
    rw [exec_ldxH, h.widenLoad d (by omega) hsize hen]

/-! ### Bytes written to own local memory -/

/-- A write of bytes changes memory and what watches it, and nothing else. -/
theorem State.setBytes_eq (s : State) (pa : Nat) (l : List Byte) :
    s.setBytes pa l = { s with mem := (s.setBytes pa l).mem, watches := (s.setBytes pa l).watches } := by
  induction l generalizing s pa with
  | nil => rfl
  | cons b l ih => rw [State.setBytes_cons, ih]; rfl

/-- Bytes written to places that differ are read back. -/
theorem State.byte_setBytes_of_inj (s : State) {pa : Nat} {l : List Byte}
    (hinj : ∀ i j, i < l.length → j < l.length → s.canon (pa + i) = s.canon (pa + j) → i = j) {i : Nat} (hi : i < l.length) :
    (s.setBytes pa l).byte (pa + i) = l.getD i 0 := by
  induction l generalizing s pa i with
  | nil => exact absurd hi (Nat.not_lt_zero i)
  | cons b l ih =>
    have hplace (k : Nat) : pa + 1 + k = pa + (k + 1) := by omega
    rw [State.setBytes_cons]
    cases i with
    | zero =>
      rw [State.byte_setBytes_of_ne, State.byte_setByte, Nat.add_zero, if_pos rfl]
      · rfl
      · intro j hj heq
        exact absurd (hinj 0 (j + 1) (by simp) (by simpa using hj) (by simpa [hplace] using heq)) (by omega)
    | succ i =>
      rw [← hplace i, ih (s.setByte pa b) ?_ (by simpa using hi)]
      · rfl
      · intro j k hj hk heq
        simpa using hinj (j + 1) (k + 1) (by simpa using hj) (by simpa using hk) (by simpa [hplace] using heq)

/-- An address of a core's local memory names the byte at its own offset, at the core's physical site (R11, R20). -/
theorem State.canon_lmemPa (s : State) {site core off : Nat} (hsite : site < 64) (hcore : core < 256) (hoff : off < 524288) :
    s.canon (lmemPa site core off) = mkPa 3 (s.phys site) (core * 524288 + off) := by
  have hreg : paRegion (lmemPa site core off) = 3 := by rw [paRegion, lmemPa, mkPa]; omega
  have hs : paSite (lmemPa site core off) = site := by rw [paSite, lmemPa, mkPa]; omega
  have hplace : lmemPa site core off % 134217728 = core * 524288 + off := by rw [lmemPa, mkPa]; omega
  simp [State.canon, hreg, hs, hplace]

section Stores

variable {s : State} {va : W64} {off n c : Nat}

theorem OwnLocal.canon_ownPa_inj {write : Bool} (h : OwnLocal s va off n c write) {i j : Nat} (hi : i < n) (hj : j < n)
    (heq : s.canon (ownPa s off + i) = s.canon (ownPa s off + j)) : i = j := by
  obtain ⟨hsite, hcore, hoff, -⟩ := h
  have hown (k : Nat) : ownPa s off + k = lmemPa s.cur.site s.cur.core (off + k) := by rw [ownPa, lmemPa, lmemPa, mkPa, mkPa]; omega
  rw [hown, hown, s.canon_lmemPa hsite hcore (by omega), s.canon_lmemPa hsite hcore (by omega), mkPa, mkPa] at heq
  omega

theorem OwnLocal.storedAt {write : Bool} {l : List Byte} (h : OwnLocal s va off l.length c write) :
    StoredAt s (s.setBytes (ownPa s off) l) (ownPa s off) l :=
  ⟨fun _ hi => s.byte_setBytes_of_inj (fun _ _ hi hj => h.canon_ownPa_inj hi hj) hi,
    fun x hx => s.byte_setBytes_of_ne (ownPa s off) x l hx⟩

theorem State.byte_drew (s : State) (md : Rm) (k y : Nat) : (s.drew md k).byte y = s.byte y := by
  unfold State.drew
  split
  · exact State.byte_congr rfl rfl rfl y
  · rfl

/-- A next state in which bytes of own local memory are written and one word may have been drawn. -/
theorem OwnLocal.stores_of_exec {write : Bool} {l : List Byte} (h : OwnLocal s va off l.length c write) {i : Instr} {md : Rm}
    (hexec : exec i s = .next ((s.setBytes (ownPa s off) l).drew md 1)) :
    Stores i s (ownPa s off) l (if md = .rs then 1 else 0) := by
  have hnext : (s.setBytes (ownPa s off) l).drew md 1 =
      { s with
        mem := (s.setBytes (ownPa s off) l).mem
        watches := (s.setBytes (ownPa s off) l).watches
        tick := s.tick + if md = .rs then 1 else 0 } := by
    rw [State.drew, State.setBytes_eq]
    split <;> rfl
  obtain ⟨hin, hout⟩ := h.storedAt
  refine ⟨_, hexec, ⟨fun j hj => ?_, fun x hx => ?_⟩, ?_, ?_, fun r _ => ?_⟩
  · exact (State.byte_drew ..).trans (hin j hj)
  · exact (State.byte_drew ..).trans (hout x hx)
  all_goals rw [hnext]
  all_goals rfl

/-- A bundle that stalls changes nothing. -/
theorem givesF_stall_of_exec {i : Instr} (h : exec i s = .next (s.flow .stall)) : GivesF i s s.c .stall :=
  ⟨_, h, rfl, rfl, fun _ _ => rfl, s.byte_flow .stall⟩

theorem length_toBytes (n x : Nat) : (toBytes n x).length = n := by
  induction n generalizing x with
  | zero => rfl
  | succ n ih => rw [toBytes, List.length_cons, ih]

/-- Of the context, an access to own local memory turns on its mode alone. -/
theorem OwnLocal.modC {write : Bool} (h : OwnLocal s va off n c write) {f : Ctx → Ctx} (hf : (f s.c).sys = s.c.sys) :
    OwnLocal (s.modC f) va off n c write := by
  rw [OwnLocal, State.c_modC, hf]
  exact h

/-- A plain store to own local memory writes at once, but for a full ocs (R276, R281). -/
theorem OwnLocal.plainStore {l : List Byte} (h : OwnLocal s va off l.length 0 true) (hn : l.length ∣ 128) :
    s.plainStore va l = if s.c.ocs = 255 then s.flow .stall else s.setBytes (ownPa s off) l := by
  have hcheck := (h.modC (f := fun k => { k with walkFault := none }) rfl).check hn
    (a := Access.plain l.length true) rfl rfl rfl rfl (.inl rfl)
  rw [State.modC_cur] at hcheck
  simp only [State.plainStore, hcheck, h.powerUp, beq_iff_eq]
  rfl

/-- A narrowing store to own local memory writes at once what R55 makes of the register, but for a full ocs (R276, R282). -/
theorem OwnLocal.narrowStore (h : OwnLocal s va off n c true) (x : W32) (hc : 0 < c) (hn : elemBytes c = n)
    (hen : bit (s.windowDesc c) 0 = false) (hmode : bits (s.windowDesc c) 1 3 ≤ 4) :
    s.narrowStore n va x = if s.c.ocs = 255 then s.flow .stall
      else (s.setBytes (ownPa s off) (toBytes n (windowStore c (s.c.winRm c) s.rnd x none))).drew (s.c.winRm c) 1 := by
  rw [State.narrowStore, h.winAccess hc hn hen fun _ => hmode]
  simp only [h.powerUp]
  rfl

variable {i : Instr}

/-- An instruction that is a plain store stalls or stores. -/
theorem OwnLocal.plainStore_results {x : Nat} (h : OwnLocal s va off n 0 true) (hn : n ∣ 128)
    (hexec : exec i s = .next (s.plainStore va (toBytes n x))) :
    if s.c.ocs = 255 then GivesF i s s.c .stall else Stores i s (ownPa s off) (toBytes n x) 0 := by
  rw [← length_toBytes n x] at h hn
  rw [h.plainStore hn] at hexec
  split
  case isTrue hfull => exact givesF_stall_of_exec (by rw [hexec, if_pos hfull])
  case isFalse hfull => exact h.stores_of_exec (md := .ne) (by rw [hexec, if_neg hfull]; rfl)

/-- An instruction that is a narrowing store stalls, or stores with the window's rounding. -/
theorem OwnLocal.narrowStore_results (h : OwnLocal s va off n c true) {x : W32} (hc : 0 < c) (hn : elemBytes c = n)
    (hen : bit (s.windowDesc c) 0 = false) (hmode : bits (s.windowDesc c) 1 3 ≤ 4)
    (hexec : exec i s = .next (s.narrowStore n va x)) :
    if s.c.ocs = 255 then GivesF i s s.c .stall
    else Stores i s (ownPa s off) (toBytes n (windowStore c (s.c.winRm c) s.rnd x none)) (if s.c.winRm c = .rs then 1 else 0) := by
  rw [h.narrowStore x hc hn hen hmode] at hexec
  split
  case isTrue hfull => exact givesF_stall_of_exec (by rw [hexec, if_pos hfull])
  case isFalse hfull => exact OwnLocal.stores_of_exec (by rwa [length_toBytes]) (by rw [hexec, if_neg hfull])

end Stores

theorem exec_st (x a : BitVec 5) (z : StSize) (o : BitVec 11) (s : State) :
    exec (.st x a z o) s = .next (s.plainStore (offAddr s a o (storedBytes z)) (toBytes (storedBytes z) (s.g x).toNat)) := by
  rw [← s.ea_eq_offAddr, ← stSize_eq_storedBytes]; rfl

theorem exec_stIndexed (x a b : BitVec 5) (z : StSize) (s : State) :
    exec (.stIndexed x a b z) s = .next (s.plainStore (s.g a + s.g b) (toBytes (storedBytes z) (s.g x).toNat)) := by
  rw [← stSize_eq_storedBytes]; rfl

theorem exec_stxB (x a : BitVec 5) (o : BitVec 11) (s : State) :
    exec (.stxB x a o) s = .next (s.narrowStore 1 (offAddr s a o 1) (BitVec.ofNat 32 (s.g x).toNat)) := by
  rw [← s.ea_eq_offAddr, BitVec.ofNat_toNat]; rfl

theorem exec_stxH (x a : BitVec 5) (o : BitVec 11) (s : State) :
    exec (.stxH x a o) s = .next (s.narrowStore 2 (offAddr s a o 2) (BitVec.ofNat 32 (s.g x).toNat)) := by
  rw [← s.ea_eq_offAddr, BitVec.ofNat_toNat]; rfl

/-- Settles O24: a store stalls at a full ocs, or writes its bytes to places of own local memory that differ, and nothing else. -/
theorem localStoreResults : Obligations.LocalStoreResults := by
  intro s x a b z o off c n desc md narrow drawn full
  refine ⟨fun h => ?st, fun h => ?stIndexed, fun h hc hen hmode => ?stxB, fun h hc hen hmode => ?stxH⟩
  case st => exact h.plainStore_results (storedBytes_dvd z) (exec_st x a z o s)
  case stIndexed => exact h.plainStore_results (storedBytes_dvd z) (exec_stIndexed x a b z s)
  case stxB =>
    have hsize : elemBytes c = 1 := by rcases hc with rfl | rfl | rfl <;> rfl
    exact h.narrowStore_results (by omega) hsize hen hmode (exec_stxB x a o s)
  case stxH =>
    have hsize : elemBytes c = 2 := by rcases hc with rfl | rfl <;> rfl
    exact h.narrowStore_results (by omega) hsize hen hmode (exec_stxH x a o s)

end Sys2Proof.Machine

/-! # Results, causes and units that the statements on the memory hierarchy share -/

namespace Sys2Proof.Machine

/-! ### Next states and causes -/

theorem runs_of_exec {i : Instr} {s t : State} {P : State → Prop} (h : exec i s = .next t) (hP : P t) : Runs i s P := ⟨t, h, hP⟩

theorem bit_eq_false_of_bits_eq_zero {v : W64} {lo n i : Nat} (h : bits v lo n = 0) (hlo : lo ≤ i) (hn : i < lo + n) :
    bit v i = false := by
  have hi : (bits v lo n).testBit (i - lo) = v.toNat.testBit i := by
    rw [bits, Nat.testBit_mod_two_pow, Nat.testBit_div_two_pow, decide_eq_true (by omega), Bool.true_and]
    congr 1
    omega
  rw [bit, BitVec.getLsbD, ← hi, h, Nat.zero_testBit]

/-- Trap entry of a context that may trap writes the registers of R372, logs nothing and ends nothing. -/
theorem MayTrap.trap_eq {s : State} (h : MayTrap s) (code : Nat) (v : W64) :
    s.trap code v = (s.setCtx s.cur (s.c.enterTrap false code v s.c.pc s.c.slot)).flow .trapped := by
  obtain ⟨hlive, htrap, hlog, hpark⟩ := h
  have hage (c : Ctx) : (s.setCtx s.cur c).ageEntries s.cur = s.setCtx s.cur c := by
    refine if_neg ?_
    simp only [List.any_eq_true, Bool.and_eq_true, beq_iff_eq, not_exists, not_and, Bool.not_eq_true]
    exact fun e he hc => hpark e he hc
  have hbit (i : Nat) (hi : i < 3) : bit (s.die s.cur.site).tqctl i = false :=
    bit_eq_false_of_bits_eq_zero hlog (Nat.zero_le i) (by omega)
  have hlogs (c : Ctx) (pc : W64) : (s.setCtx s.cur c).logTrap s.cur false code v pc = s.setCtx s.cur c := by
    refine if_neg ?_
    have hdie : ((s.setCtx s.cur c).die s.cur.site) = s.die s.cur.site := rfl
    simp [hdie, hbit 1 (by omega), hbit 2 (by omega)]
  have hsync : s.c.inTrap = false := htrap
  have htake : s.takeTrap s.cur false false code v s.c.pc s.c.slot =
      s.setCtx s.cur (s.c.enterTrap false code v s.c.pc s.c.slot) := by
    simp only [State.takeTrap]
    rw [if_neg (by rw [← State.c, hsync]; decide), hage, hlogs]
    rfl
  simp only [State.trap, htake, State.ctx_setCtx_self]
  exact if_neg hlive

/-- An instruction that ends in a synchronous cause takes it. -/
theorem MayTrap.traps_of_exec {s : State} (h : MayTrap s) {i : Instr} {code : Nat} {v : W64} (hcode : code < 64)
    (hexec : exec i s = .next (s.trap code v)) : Traps i s code v := by
  rw [h.trap_eq] at hexec
  obtain ⟨-, htrap, -⟩ := h
  refine runs_of_exec hexec ⟨?_, rfl, fun r hr => s.ctx_setCtx_of_ne _ hr, fun a => State.byte_congr rfl rfl rfl a⟩
  refine (s.ctx_setCtx_self s.cur _).trans ?_
  have hcause : code % 64 + (if false = true then 64 else 0) = code := by rw [Nat.mod_eq_of_lt hcode]; rfl
  cases hsys : s.c.sys <;> simp [Ctx.enterTrap, htrap, hsys, Nat.mod_eq_of_lt hcode]

/-! ### A register written after other units -/

/-- General register `d` takes a value after a change that left every context alone. -/
theorem State.gw_result {s t : State} (hctxs : t.ctxs = s.ctxs) (hcur : t.cur = s.cur) (d : BitVec 5) (v : W64) :
    (t.gw d v).g d = (if d = 0 then 0 else v) ∧ OnlyG s (t.gw d v) d := by
  have hc : t.c = s.c := by rw [State.c, State.c, State.ctx, State.ctx, hctxs, hcur]
  refine ⟨by rw [State.g_gw]; split <;> simp, ?_, fun a ha => ?_⟩
  · rw [State.gw, State.c_modC, hc]
    exact Ctx.wg_eq ..
  · rw [State.g_gw, if_neg ha, State.g, State.g, hc]
    split
    · next h => rw [h]; rfl
    · rfl

/-! ### Cores and their region tables -/

theorem State.core_modCore_of_ne (s : State) (site core : Nat) {k : Nat} (f : Core → Core) (h : k ≠ core) :
    (s.modCore site core f).core site k = s.core site k :=
  Table.get_put_of_ne _ _ _ (by omega)

@[simp] theorem State.region_modRegion_self (s : State) (site core slot : Nat) (f : Region → Region) :
    ((s.modRegion site core slot f).core site core).region slot = f ((s.core site core).region slot) := by
  simp [State.modRegion, Core.region]

theorem State.region_modRegion_of_ne (s : State) (site core slot : Nat) {k n : Nat} (f : Region → Region)
    (h : k ≠ core ∨ n ≠ slot) :
    ((s.modRegion site core slot f).core site k).region n = (s.core site k).region n := by
  by_cases hk : k = core
  · subst hk
    simp [State.modRegion, Core.region, Table.get_put_of_ne _ _ _ (h.resolve_left (by simp))]
  · rw [State.modRegion, State.core_modCore_of_ne _ _ _ _ hk]

end Sys2Proof.Machine

/-! # Handles (O34)

Each handle instruction is `State.handleOp` with an event of its own on the region entry; what the events do is said once for each. -/

namespace Sys2Proof.Machine

/-! ### The events of R71 and R72 on an entry -/

namespace Region

variable {h t : Holder} {e : Region}

theorem passX_of (hpin : e.pin = false) (hst : e.state = .exclusive h ∨ e.state = .shared [h]) :
    e.passX h t = some { e with state := .passing (some h) t } := by simp [passX, hpin, hst]

theorem passX_eq_none (hmay : ¬ (e.pin = false ∧ (e.state = .exclusive h ∨ e.state = .shared [h]))) : e.passX h t = none := by
  unfold passX
  split
  · rfl
  · next hpin => exact if_neg fun hst => hmay ⟨by simpa using hpin, hst⟩

theorem passS_of_exclusive (hst : e.state = .exclusive h) :
    e.passS h t = some { e with state := .shared (if t = h then [h] else [h, t]) } := by simp [passS, hst]

theorem passS_of_shared {hs : List Holder} (hst : e.state = .shared hs) (hmem : h ∈ hs) :
    e.passS h t = some { e with state := .shared (if t ∈ hs then hs else hs ++ [t]) } := by simp [passS, hst, hmem]

theorem passS_eq_none (hmay : ¬ (e.state = .exclusive h ∨ ∃ hs, e.state = .shared hs ∧ h ∈ hs)) : e.passS h t = none := by
  unfold passS
  split <;> simp_all

theorem take_of_passing {o : Option Holder} (hst : e.state = .passing o h) :
    e.take h = some { e with state := .exclusive h } := by simp [take, hst]

theorem take_eq_none (hmay : ¬ ∃ o, e.state = .passing o h) : e.take h = none := by
  unfold take
  split <;> simp_all

theorem recall_of_passing (hst : e.state = .passing (some h) t) : e.recall h = some { e with state := .exclusive h } := by
  simp [Region.recall, hst]

theorem recall_eq_none (hmay : ¬ ∃ t, e.state = .passing (some h) t) : e.recall h = none := by
  unfold Region.recall
  split <;> simp_all

/-- The holders that stay when one leaves are none when there was no other. -/
theorem others_isEmpty_iff {hs : List Holder} : (hs.filter fun x => x != h).isEmpty = true ↔ ∀ x ∈ hs, x = h := by simp

theorem release_of_others {hs : List Holder} (hst : e.state = .shared hs) (hmem : h ∈ hs) (ho : ∃ x ∈ hs, x ≠ h) :
    e.release h = some { e with state := .shared (hs.filter fun x => x != h) } := by
  have hne : ¬ (hs.filter fun x => x != h).isEmpty = true := by
    rw [others_isEmpty_iff]
    push Not
    exact ho
  simp [release, hst, hmem, hne]

theorem release_of_alone (hpin : e.pin = false)
    (hst : e.state = .exclusive h ∨ ∃ hs, e.state = .shared hs ∧ h ∈ hs ∧ ∀ x ∈ hs, x = h) : e.release h = some e.freed := by
  rcases hst with hst | ⟨hs, hst, hmem, hall⟩
  · simp [release, hst, hpin]
  · simp [release, hst, hmem, hpin, others_isEmpty_iff.mpr hall]

theorem release_eq_none (hmay : ¬ ((e.state = .exclusive h ∧ e.pin = false) ∨
    ∃ hs, e.state = .shared hs ∧ h ∈ hs ∧ (e.pin = false ∨ ∃ x ∈ hs, x ≠ h))) : e.release h = none := by
  unfold release
  split
  · next o ho => exact if_neg fun ⟨hown, hpin⟩ => hmay (.inl ⟨hown ▸ ho, by simpa using hpin⟩)
  · next hs hst =>
    by_cases hmem : h ∈ hs
    · have hpin : ¬ e.pin = false := fun hp => hmay (.inr ⟨hs, hst, hmem, .inl hp⟩)
      have hall : ∀ x ∈ hs, x = h := fun x hx => by
        by_contra hne
        exact hmay (.inr ⟨hs, hst, hmem, .inr ⟨x, hx, hne⟩⟩)
      simp [hmem, others_isEmpty_iff.mpr hall, hpin]
    · simp [hmem]
  · rfl

end Region

/-! ### `State.handleOp` -/

section HandleOp

variable {s : State} {v : W64} {waits : Bool} {f : Region → Option Region} {g : State → State} {e' : Region}

/-- The entry that a handle of the context in issue names. -/
abbrev State.entryOf (s : State) (v : W64) : Region := (s.core s.cur.site (hCore s.cur v)).region (hSlot v)

theorem State.handleOp_refuses (h : s.handleOk s.cur v = false ∨ f (s.entryOf v) = none) :
    s.handleOp v waits f g = s.trap 0x0A v := by
  unfold State.handleOp
  rcases h with h | h
  · simp [h]
  · split
    · rfl
    · simp [h]

variable (hok : s.handleOk s.cur v = true) (hf : f (s.entryOf v) = some e')
include hok hf

theorem State.handleOp_turns
    (hbusy : waits = true → s.regionBusy s.cur (hCore s.cur v) (s.entryOf v).base (s.entryOf v).len = false) :
    s.handleOp v waits f g = g (s.modRegion s.cur.site (hCore s.cur v) (hSlot v) fun _ => e') := by
  simp only [State.handleOp, hok, hf]
  cases waits
  · rfl
  · simp [hbusy rfl]

theorem State.handleOp_stalls (hbusy : s.regionBusy s.cur (hCore s.cur v) (s.entryOf v).base (s.entryOf v).len = true) :
    s.handleOp v true f g = s.flow .stall := by
  simp [State.handleOp, hok, hf, hbusy]

end HandleOp

/-! ### The instructions as events on their entry -/

section Exec

variable (s : State) (d a b : BitVec 5)

theorem exec_hpassX : exec (.hpassX d a b) s = .next (s.handleOp (s.g a) true
    (fun e => (s.target s.cur (s.g b)).bind fun t => e.passX (holderOf s.cur) t) fun t => t.gw d (putBits (s.g a) 5 1 0)) := rfl

theorem exec_hpassS : exec (.hpassS d a b) s = .next (s.handleOp (s.g a) true
    (fun e => (s.target s.cur (s.g b)).bind fun t => e.passS (holderOf s.cur) t) fun t => t.gw d (putBits (s.g a) 5 1 1)) := rfl

theorem exec_htake : exec (.htake d a) s = .next (s.handleOp (s.g a) false (Region.take (holderOf s.cur))
    fun t => t.gw d (putBits (s.g a) 5 1 0)) := rfl

theorem exec_hrecall : exec (.hrecall a) s = .next (s.handleOp (s.g a) false (Region.recall (holderOf s.cur)) id) := rfl

theorem exec_hrel : exec (.hrel a) s = .next (s.handleOp (s.g a) true (Region.release (holderOf s.cur)) id) := rfl

end Exec

/-- A change of one entry of a core's region table is seen there, and at no other entry of the site. -/
theorem State.region_of_cores_eq {s t : State} {site core slot : Nat} {e' : Region}
    (h : t.cores = (s.modRegion site core slot fun _ => e').cores) :
    (t.core site core).region slot = e' ∧
      ∀ k n, (k ≠ core ∨ n ≠ slot) → k < 256 → (t.core site k).region n = (s.core site k).region n := by
  have hcore (k : Nat) : t.core site k = (s.modRegion site core slot fun _ => e').core site k := by rw [State.core, State.core, h]
  exact ⟨by rw [hcore, State.region_modRegion_self], fun k n hkn _ => by rw [hcore, State.region_modRegion_of_ne _ _ _ _ _ hkn]⟩

/-- Settles O34: `State.handleOp` turns the entry, stalls, or takes cause 0x0A, as the instruction's event on the entry says. -/
theorem handleInstructionResults : Obligations.HandleInstructionResults := by
  intro s d a b v core e me turns waits target alone held _
  -- an event that the entry allows, with a result for gd or without one
  have turnsG {i : Instr} {e' : Region} {y : W64}
      (h : exec i s = .next ((s.modRegion s.cur.site core (hSlot v) fun _ => e').gw d y)) : turns i e' (some y) :=
    let ⟨hself, hne⟩ := State.region_of_cores_eq (s := s) (t := State.gw _ d y) rfl
    runs_of_exec h ⟨hself, hne, rfl, fun r hr => State.ctx_modC_of_ne _ _ hr, State.gw_result rfl rfl d y⟩
  have turns0 {i : Instr} {e' : Region} (h : exec i s = .next (s.modRegion s.cur.site core (hSlot v) fun _ => e')) :
      turns i e' none :=
    let ⟨hself, hne⟩ := State.region_of_cores_eq (s := s) rfl
    runs_of_exec h ⟨hself, hne, rfl, fun _ _ => rfl, rfl⟩
  refine ⟨fun hok => ?may, fun hmay => ?mayNot⟩
  case may =>
    have atOnce {i : Instr} {f : Region → Option Region} {g : State → State} {e' : Region}
        (h : exec i s = .next (s.handleOp v false f g)) (hf : f e = some e') :
        exec i s = .next (g (s.modRegion s.cur.site core (hSlot v) fun _ => e')) :=
      h.trans (congrArg _ (State.handleOp_turns hok hf nofun))
    -- the events of R72 wait for the region
    have waited {i : Instr} {f : Region → Option Region} {g : State → State} {e' : Region} {x : Option W64}
        (h : exec i s = .next (s.handleOp v true f g)) (hf : f e = some e')
        (hturns : exec i s = .next (g (s.modRegion s.cur.site core (hSlot v) fun _ => e')) → turns i e' x) : waits i e' x :=
      ⟨fun hb => hturns (h.trans (congrArg _ (State.handleOp_turns hok hf fun _ => hb))),
        fun hb => givesF_stall_of_exec (h.trans (congrArg _ (State.handleOp_stalls hok hf hb)))⟩
    have passed {f : Holder → Region → Option Region} {t : Holder} {e' : Region} (ht : target = some t) (hf : f t e = some e') :
        (target.bind fun t => f t e) = some e' := Option.bind_eq_some_iff.mpr ⟨t, ht, hf⟩
    refine ⟨fun t ht hpin hst => ?passX, fun t ht hst => ?passS, fun t hs ht hst hmem => ?passShared,
      fun o hst => ?take, fun t hst => ?recalled, fun hs hst hmem ho => ?leave, fun hst hpin => ?free⟩
    case passX => exact waited (x := some _) (exec_hpassX s d a b) (passed ht (Region.passX_of hpin hst)) turnsG
    case passS => exact waited (x := some _) (exec_hpassS s d a b) (passed ht (Region.passS_of_exclusive hst)) turnsG
    case passShared => exact waited (x := some _) (exec_hpassS s d a b) (passed ht (Region.passS_of_shared hst hmem)) turnsG
    case take => exact turnsG (atOnce (exec_htake s d a) (Region.take_of_passing hst))
    case recalled => exact turns0 (atOnce (exec_hrecall s a) (Region.recall_of_passing hst))
    case leave => exact waited (x := none) (exec_hrel s a) (Region.release_of_others hst hmem ho) turns0
    case free => exact waited (x := none) (exec_hrel s a) (Region.release_of_alone hpin hst) turns0
  case mayNot =>
    intro wrong
    have refused {i : Instr} {waits : Bool} {f : Region → Option Region} {g : State → State} {may : Prop}
        (h : exec i s = .next (s.handleOp v waits f g)) (hf : ¬ may → f e = none) : wrong i may := fun hw =>
      hmay.traps_of_exec (by decide) (h.trans (congrArg _ (State.handleOp_refuses (hw.imp_right hf))))
    have noPass {f : Holder → Option Region} {may : Prop} (hf : ∀ t, ¬ may → f t = none)
        (hno : ¬ (target ≠ none ∧ may)) : target.bind f = none := by
      cases ht : target with
      | none => rfl
      | some t => exact hf t fun hm => hno ⟨by simp [ht], hm⟩
    exact ⟨refused (exec_hpassX s d a b) (noPass fun _ => Region.passX_eq_none),
      refused (exec_hpassS s d a b) (noPass fun _ => Region.passS_eq_none), refused (exec_htake s d a) Region.take_eq_none,
      refused (exec_hrecall s a) Region.recall_eq_none, refused (exec_hrel s a) Region.release_eq_none⟩

end Sys2Proof.Machine

/-! # Region grants, bank power and retain timeouts (O35) -/

namespace Sys2Proof.Machine

/-! ### Bytes cleared -/

/-- Of the bytes of memory those within the run cleared read 0, the others as before. -/
theorem State.byte_zero (s : State) (pa n x : Nat) :
    (s.zero pa n).byte x = if s.canon pa ≤ s.canon x ∧ s.canon x < s.canon pa + n then 0 else s.byte x := by
  have hcanon : (s.zero pa n).canon x = s.canon x := State.canon_congr rfl rfl x
  simp only [State.byte, hcanon]
  refine (Table.get_filter_key (fun k => decide (k < s.canon pa) || decide (s.canon pa + n ≤ k)) s.mem _).trans ?_
  by_cases h : s.canon pa ≤ s.canon x ∧ s.canon x < s.canon pa + n
  · rw [if_pos h, if_neg (by simp; omega)]
  · rw [if_neg h, if_pos (by simp; omega)]

/-- A state whose memory is another's but for a run of cleared bytes. -/
theorem State.byte_of_zeroed {s t : State} {pa n : Nat} (hmem : t.mem = (s.zero pa n).mem) (hsites : t.sites = s.sites)
    (hhubs : t.hubs = s.hubs) :
    (∀ x, s.canon pa ≤ s.canon x → s.canon x < s.canon pa + n → t.byte x = 0) ∧
      ∀ x, s.canon x < s.canon pa ∨ s.canon pa + n ≤ s.canon x → t.byte x = s.byte x := by
  have hbyte (x : Nat) : t.byte x = (s.zero pa n).byte x := State.byte_congr hmem hsites hhubs x
  exact ⟨fun x hlo hhi => by rw [hbyte, State.byte_zero, if_pos ⟨hlo, hhi⟩],
    fun x hx => by rw [hbyte, State.byte_zero, if_neg (by omega)]⟩

/-! ### The free entries of a core -/

theorem Region.used_eq_false_iff (e : Region) : e.used = false ↔ e.state = .free := by simp [Region.used]

theorem Core.mem_freeSlots {k : Core} {i : Nat} : i ∈ k.freeSlots ↔ i < 32 ∧ (k.region i).state = .free := by
  simp [Core.freeSlots, Region.used_eq_false_iff]

/-- A free choice among the members of a list is a member. -/
theorem State.getD_choose_mem {α : Type} (s : State) (x : α) (l : List α) : (x :: l).getD (s.choose (l.length + 1)) x ∈ x :: l := by
  have hlt : s.choose (l.length + 1) < (x :: l).length := Nat.mod_lt _ (Nat.succ_pos _)
  rw [List.getD_eq_getElem _ _ hlt]
  exact List.getElem_mem hlt

/-! ### `hgrant` (R285) -/

/-- The result of a grant that fails with a code. -/
abbrev grantFailure (n : Nat) : W64 := BitVec.ofNat 64 (2 ^ 63 + n)

section Grant

variable {s : State} (d a b : BitVec 5)

/-- The core that a region description names. -/
abbrev State.coreOf (s : State) (v : W64) : Core := s.core s.cur.site (hCore s.cur v)

/-- The region described lies in task space of a core of a rectangle. -/
abbrev State.grantFits (s : State) (v : W64) : Prop :=
  inTask (hBase v) (hLen v) = true ∧ s.inRect s.cur.site (hCore s.cur v) = true

theorem exec_hgrant_of_user (hsys : s.c.sys = false) : exec (.hgrant d a b) s = .next (s.trap 0x09 0) := by
  simp [exec, execHgrant, hsys]

variable (hsys : s.c.sys = true)
include hsys

theorem exec_hgrant_of_no_target (ht : s.target s.cur (s.g b) = none) :
    exec (.hgrant d a b) s = .next (s.gw d (grantFailure 3)) := by
  simp [exec, execHgrant, hsys, ht]
  rfl

variable {h : Holder} (ht : s.target s.cur (s.g b) = some h)
include ht

theorem exec_hgrant_of_misfit (hfit : ¬ s.grantFits (s.g a)) :
    exec (.hgrant d a b) s = .next (s.gw d (grantFailure 3)) := by
  have hcond : (!inTask (hBase (s.g a)) (hLen (s.g a))) = true ∨ (!s.inRect s.cur.site (hCore s.cur (s.g a))) = true := by
    by_contra hc
    exact hfit (by simpa using hc)
  simp only [exec, execHgrant, hsys, ht, if_pos hcond]
  rfl

theorem exec_hgrant_of_overlap (hfit : s.grantFits (s.g a)) (ho : (s.coreOf (s.g a)).overlaps (hBase (s.g a)) (hLen (s.g a)) = true) :
    exec (.hgrant d a b) s = .next (s.gw d (grantFailure 1)) := by
  obtain ⟨htask, hrect⟩ := hfit
  simp [exec, execHgrant, hsys, ht, htask, hrect, ho]
  rfl

theorem exec_hgrant_of_full (hfit : s.grantFits (s.g a))
    (ho : (s.coreOf (s.g a)).overlaps (hBase (s.g a)) (hLen (s.g a)) = false) (hfull : (s.coreOf (s.g a)).freeSlots = []) :
    exec (.hgrant d a b) s = .next (s.gw d (grantFailure 2)) := by
  obtain ⟨htask, hrect⟩ := hfit
  simp [exec, execHgrant, hsys, ht, htask, hrect, ho, hfull]
  rfl

theorem exec_hgrant_of_free (hfit : s.grantFits (s.g a))
    (ho : (s.coreOf (s.g a)).overlaps (hBase (s.g a)) (hLen (s.g a)) = false) (hfree : (s.coreOf (s.g a)).freeSlots ≠ []) :
    ∃ slot ∈ (s.coreOf (s.g a)).freeSlots, exec (.hgrant d a b) s =
      .next ((s.next.grant s.cur.site (hCore s.cur (s.g a)) slot (hBase (s.g a)) (hLen (s.g a)) h false true).gw d
        (handleOf slot (hOwner (s.g a)) ((s.coreOf (s.g a)).region slot).gen.toNat (hBase (s.g a)) (hLen (s.g a)))) := by
  obtain ⟨htask, hrect⟩ := hfit
  obtain ⟨x, l, hl⟩ := List.exists_cons_of_ne_nil hfree
  refine ⟨_, hl ▸ s.getD_choose_mem x l, ?_⟩
  simp [exec, execHgrant, hsys, ht, htask, hrect, ho, hl]

end Grant

@[simp] theorem State.core_zero (s : State) (pa n site core : Nat) : (s.zero pa n).core site core = s.core site core := rfl

/-- A grant writes its entry (R71). -/
theorem State.region_grant (s : State) (site core slot b l : Nat) (h : Holder) :
    ((s.grant site core slot b l h false true).core site core).region slot =
      ⟨.exclusive h, b, l, ((s.core site core).region slot).gen, false, none⟩ := by
  simp only [State.grant, if_true, State.core_zero, State.core_modCore_self]
  exact State.region_modRegion_self s site core slot _

/-! ### Banks and retained regions (R68, R77) -/

/-- The state in which a bank of a core has been gated. -/
def State.gateBank (s : State) (site core bank : Nat) : State :=
  (s.zero (lmemPa site core (32768 * bank)) 32768).modCore site core fun k => { k with gated := k.gated ||| (1#16 <<< bank) }

theorem exec_bankPowerGate_of_unused {s : State} {site core bank : Nat} (hlo : 3 ≤ bank) (hhi : bank < 16)
    (hfree : (s.core site core).overlaps (512 * bank) 512 = false) :
    exec (.bankPowerGate site core bank) s = .next (s.gateBank site core bank) := by
  have hno : ¬ (bank < 3 ∨ 16 ≤ bank ∨ (s.core site core).bankUsed bank = true) := by
    rw [Core.bankUsed, hfree]
    simp
    omega
  exact if_neg hno

theorem exec_bankPowerGate_of_used {s : State} {site core bank : Nat} (hused : (s.core site core).overlaps (512 * bank) 512 = true) :
    exec (.bankPowerGate site core bank) s = .next s := if_pos (.inr (.inr hused))

theorem State.gated_gateBank (s : State) (site core : Nat) {bank : Nat} (h : bank < 16) :
    ((s.gateBank site core bank).core site core).gated.getLsbD bank = true := by
  simp [State.gateBank, h]

theorem exec_retainTimeout_of_retained {s : State} {site core slot n : Nat}
    (hst : ((s.core site core).region slot).state = .retained n) :
    exec (.retainTimeout site core slot) s = .next (s.modRegion site core slot Region.freed) := by
  simp only [exec, execRetainTimeout, hst]

/-- Settles O35: the checks of R285 in their order, a grant's entry and cleared bytes; a bank gated, a region's time over. -/
theorem regionAndBankResults : Obligations.RegionAndBankResults := by
  refine ⟨fun s d a b => ?grant, fun s site core bank slot n =>
    ⟨fun hlo hhi hfree => ?gate, exec_bankPowerGate_of_used, fun hst => ?retain⟩⟩
  case grant =>
    intro v core k fits fails
    refine ⟨fun hsys hmay => ?user, fun hsys ht => ?noTarget, fun hsys ht hfit => ?misfit, fun hsys ht hfit ho => ?overlap,
      fun hsys ht hfit ho hfull => ?full, fun h hsys ht hfit ho hfree => ?free⟩
    case user => exact hmay.traps_of_exec (by decide) (exec_hgrant_of_user d a b hsys)
    case noTarget => exact givesG_of_exec (exec_hgrant_of_no_target d a b hsys ht)
    case misfit =>
      obtain ⟨h, ht⟩ := Option.ne_none_iff_exists'.mp ht
      exact givesG_of_exec (exec_hgrant_of_misfit d a b hsys ht hfit)
    case overlap =>
      obtain ⟨h, ht⟩ := Option.ne_none_iff_exists'.mp ht
      exact givesG_of_exec (exec_hgrant_of_overlap d a b hsys ht hfit ho)
    case full =>
      obtain ⟨h, ht⟩ := Option.ne_none_iff_exists'.mp ht
      refine givesG_of_exec (exec_hgrant_of_full d a b hsys ht hfit ho ?_)
      exact List.eq_nil_iff_forall_not_mem.mpr fun i hi => hfull i (Core.mem_freeSlots.mp hi).1 (Core.mem_freeSlots.mp hi).2
    case free =>
      obtain ⟨i, hi⟩ := hfree
      obtain ⟨slot, hslot, hexec⟩ := exec_hgrant_of_free d a b hsys ht hfit ho (List.ne_nil_of_mem (Core.mem_freeSlots.mpr hi))
      obtain ⟨hlt, hst⟩ := Core.mem_freeSlots.mp hslot
      obtain ⟨hd, hg⟩ := State.gw_result (s := s) (t := s.next.grant s.cur.site core slot (hBase v) (hLen v) h false true)
        rfl rfl d (handleOf slot (hOwner v) (k.region slot).gen.toNat (hBase v) (hLen v))
      obtain ⟨hin, hout⟩ := State.byte_of_zeroed (s := s) (pa := lmemPa s.cur.site core (64 * hBase v)) (n := 64 * hLen v)
        (t := (s.next.grant s.cur.site core slot (hBase v) (hLen v) h false true).gw d
          (handleOf slot (hOwner v) (k.region slot).gen.toNat (hBase v) (hLen v))) rfl rfl rfl
      exact runs_of_exec hexec ⟨slot, hlt, hst, State.region_grant s.next .., hd, hg, hin, hout⟩
  case gate =>
    exact runs_of_exec (exec_bankPowerGate_of_unused hlo hhi hfree)
      ⟨s.gated_gateBank site core hhi, rfl, State.byte_of_zeroed rfl rfl rfl⟩
  case retain => exact runs_of_exec (exec_retainTimeout_of_retained hst) ⟨State.region_modRegion_self .., rfl⟩

end Sys2Proof.Machine

/-! # Global loads and prefetches (O22)

`GlobalOk` is taken apart once, into what the checks of R275 answer and what the memory type says; loads and prefetches then follow
the nearest copy of the line. -/

namespace Sys2Proof.Machine

/-! ### Cacheable pages -/

theorem leafMT_of_cacheable {leaf : W64} {pa : Nat} (h : cacheable leaf pa = true) : leafMT leaf = 0 := by
  simp [cacheable] at h
  exact h.1.1

theorem leafXO_of_cacheable {leaf : W64} {pa : Nat} (h : cacheable leaf pa = true) : leafXO leaf = false := by
  simp [cacheable] at h
  exact h.1.2

theorem paRegion_of_cacheable {leaf : W64} {pa : Nat} (h : cacheable leaf pa = true) :
    paRegion pa = 0 ∨ paRegion pa = 2 ∨ 8 ≤ paRegion pa := by
  simpa [cacheable, or_assoc] using (Bool.and_eq_true_iff.mp h).2

theorem debugBad_of_cacheable {leaf : W64} {pa : Nat} (h : cacheable leaf pa = true) (n : Nat) : debugBad pa n = false := by
  have := paRegion_of_cacheable h
  have hne : decide (paRegion pa = 4) = false := decide_eq_false (by omega)
  simp [debugBad, hne]

/-- A translation that the core's own TLB holds and has marked as used moves nothing (R39). -/
theorem Warm.tlbTouch {s : State} {va : W64} (h : Warm s va) : s.tlbTouch s.cur va = s := by
  unfold State.tlbTouch
  split
  · rfl
  · next e he =>
    obtain ⟨hmem, hused⟩ := h e he
    rw [if_pos (List.contains_iff_mem.mpr hmem), if_pos hused]

/-! ### An access that passes its checks -/

section GlobalOk

variable {s : State} {a : Access} {va : W64} {pa : Nat} {leaf : W64} (h : GlobalOk s a va pa leaf)
include h

/-- The access goes on at its target at once. -/
theorem GlobalOk.reach (f : State → Target → State) : ∃ size, s.reach a va f = f s (.mem pa leaf size) := by
  obtain ⟨⟨size, hcheck⟩, hcache, hreg, hparked, hwalking, hwarm, -⟩ := h
  refine ⟨size, ?_⟩
  simp [State.reach, State.reachPast, State.reachAll, hcheck, State.atTarget, hreg, debugBad_of_cacheable hcache,
    State.pageBusy, hparked, hwalking, hwarm.tlbTouch]

theorem GlobalOk.near_of_l1 {l : CLine} (hl : s.l1Find s.cur.site s.cur.core (s.lineOf pa) = some l) (off n : Nat) :
    s.near s.cur pa leaf off n = .l1 l.data := by
  obtain ⟨-, hcache, -⟩ := h
  simp [State.near, hcache, hl]

theorem GlobalOk.near_of_home (hl : s.l1Find s.cur.site s.cur.core (s.lineOf pa) = none) (hhome : s.homeOf pa leaf = s.cur.site)
    (off n : Nat) : s.near s.cur pa leaf off n = .far := by
  obtain ⟨-, hcache, -⟩ := h
  simp [State.near, hcache, hl, hhome]

end GlobalOk

/-! ### A context that leaves its core (R176, R179) -/

theorem State.nextReady_ne {s : State} {site core c n : Nat} (h : s.nextReady site core c = some n) : n ≠ c := by
  obtain ⟨i, hi, hn⟩ := List.exists_of_findSome?_eq_some h
  have hn := Option.some.inj (Option.ite_none_right_eq_some.mp hn).2
  simp only [List.mem_cons, List.not_mem_nil, or_false] at hi
  omega

/-- What a change of ownership leaves alone: the context that passes the core on, the requests, the issue and every byte. -/
structure Leaves (s t : State) (r : CtxRef) (c : Ctx) : Prop where
  ctx : t.ctx r = c
  cur : t.cur = s.cur
  reqs : t.reqs = s.reqs
  issue : t.issue = s.issue
  byte : ∀ a, t.byte a = s.byte a

theorem State.passOwner_leaves (s : State) (site core c : Nat) :
    Leaves s (s.passOwner site core c) ⟨site, core, c⟩ (s.ctx ⟨site, core, c⟩) := by
  unfold State.passOwner
  split
  · next n hn =>
    have hkey : CtxRef.key ⟨site, core, c⟩ ≠ CtxRef.key ⟨site, core, n⟩ := by
      have := State.nextReady_ne hn
      simp only [CtxRef.key]
      omega
    exact ⟨s.ctx_modCtx_of_ne (fun x => { x with st := .running }) hkey, rfl, rfl, rfl, State.byte_congr rfl rfl rfl⟩
  · exact ⟨rfl, rfl, rfl, rfl, State.byte_congr rfl rfl rfl⟩

theorem State.leave_leaves (s : State) (r : CtxRef) (st : CtxState) : Leaves s (s.leave r st) r { s.ctx r with st := st } := by
  have hmod (f : Core → Core) :
      Leaves s ((s.modCtx r fun x => { x with st := st }).modCore r.site r.core f) r { s.ctx r with st := st } :=
    ⟨s.ctx_modCtx_self r fun x => { x with st := st }, rfl, rfl, rfl, State.byte_congr rfl rfl rfl⟩
  have hpass : ∀ t, Leaves s t r { s.ctx r with st := st } →
      Leaves s (t.passOwner r.site r.core r.ctx) r { s.ctx r with st := st } := fun t ht =>
    have hp := t.passOwner_leaves r.site r.core r.ctx
    ⟨hp.ctx.trans ht.ctx, hp.cur.trans ht.cur, hp.reqs.trans ht.reqs, hp.issue.trans ht.issue, fun a => (hp.byte a).trans (ht.byte a)⟩
  have hctx : Leaves s (s.modCtx r fun x => { x with st := st }) r { s.ctx r with st := st } :=
    ⟨s.ctx_modCtx_self r fun x => { x with st := st }, rfl, rfl, rfl, State.byte_congr rfl rfl rfl⟩
  unfold State.leave
  dsimp only
  split_ifs
  · exact hpass _ (hmod _)
  · exact hmod _
  · exact hpass _ hctx
  · exact hctx

/-! ### Loads -/

theorem State.c_modC_modC (s : State) (f g : Ctx → Ctx) : ((s.modC f).modC g).c = g (f s.c) := by rw [State.c_modC, State.c_modC]

/-- The request that a load sends to its line's home. -/
theorem State.loadReq_sent (s : State) (va : W64) (pa : Nat) (leaf : W64) (dst : LoadDst) :
    let t := s.loadReq va pa leaf dst .sent []
    (∃ q, t.reqs = s.reqs ++ [q] ∧ q.id = s.nextId ∧ q.who = s.cur ∧ q.pa = pa ∧ q.stage = .sent ∧ q.kind = .load dst) ∧
      t.c = { s.c with ocl := s.c.ocl + 1, st := .parked, wait := .replies [s.nextId], pend := s.c.pend.add dst.pend } ∧
      t.issue.flow = .park ∧ ∀ x, t.byte x = s.byte x := by
  intro t
  let u := ((s.send s.cur va pa leaf (.load dst) .sent []).modC fun c => { c with ocl := c.ocl + 1 }).modC
    fun c => { c with wait := .replies [s.nextId], pend := c.pend.add dst.pend }
  have hu : u.c = { s.c with ocl := s.c.ocl + 1, wait := .replies [s.nextId], pend := s.c.pend.add dst.pend } :=
    State.c_modC_modC (s.send s.cur va pa leaf (.load dst) .sent []) _ _
  have hl := u.leave_leaves s.cur .parked
  refine ⟨⟨_, hl.reqs, rfl, rfl, rfl, rfl, rfl⟩, ?_, rfl, fun x => ?_⟩
  · have hc : t.c = { u.c with st := .parked } := (congrArg _ hl.cur).trans hl.ctx
    rw [hc, hu]
  · exact (State.byte_flow _ _ x).trans ((hl.byte x).trans (State.byte_congr rfl rfl rfl x))

theorem GlobalOk.plainLoad_of_l1 {s : State} {d : BitVec 5} {m : LdMode} {va : W64} {pa : Nat} {leaf : W64} {l : CLine}
    (h : GlobalOk s (Access.plain (loadedBytes m) false) va pa leaf)
    (hl : s.l1Find s.cur.site s.cur.core (s.lineOf pa) = some l) :
    s.plainLoad d m va = s.gw d (loaded m (ofBytes ((l.data.drop (pa % 128)).take (loadedBytes m)))) := by
  rw [State.plainLoad, ldSize_eq_loadedBytes]
  obtain ⟨size, hreach⟩ := h.reach _
  rw [hreach]
  simp only [State.loadAt, h.near_of_l1 hl, Ctx.deliver, ldExtend_eq_loaded, ldSize_eq_loadedBytes, fieldAt]
  rfl

theorem GlobalOk.plainLoad_of_home {s : State} {d : BitVec 5} {m : LdMode} {va : W64} {pa : Nat} {leaf : W64}
    (h : GlobalOk s (Access.plain (loadedBytes m) false) va pa leaf)
    (hl : s.l1Find s.cur.site s.cur.core (s.lineOf pa) = none) (hhome : s.homeOf pa leaf = s.cur.site) (hocl : s.c.ocl ≠ 255) :
    s.plainLoad d m va = s.loadReq va pa leaf (.g d m (pa % 128)) .sent [] := by
  rw [State.plainLoad, ldSize_eq_loadedBytes]
  obtain ⟨size, hreach⟩ := h.reach _
  have hfar := h.near_of_home hl hhome (pa % 128) (loadedBytes m)
  rw [hreach]
  obtain ⟨-, hcache, -, -, -, -, hinj⟩ := h
  simp [State.loadAt, hfar, hocl, leafMT_of_cacheable hcache, hinj]

/-! ### Prefetches (R280) -/

theorem State.prefetch_of_check {s : State} {va : W64}
    (h : ∀ pa leaf n, s.check s.cur ⟨1, 1, false, false, true, false, false, false, false, false⟩ va ≠ .ok (.mem pa leaf n))
    (l1 : Bool) : s.prefetch va l1 = s := by
  unfold State.prefetch
  split
  · next pa leaf n hc => exact absurd hc (h pa leaf n)
  · rfl

theorem GlobalOk.prefetch_of_far {s : State} {va : W64} {pa : Nat} {leaf : W64}
    (h : GlobalOk s ⟨1, 1, false, false, true, false, false, false, false, false⟩ va pa leaf) (hfmt : leafFmt leaf = 0)
    (hpoison : s.poison.contains (s.lineOf pa) = false) (hfar : s.near s.cur pa leaf 0 128 = .far) (l1 : Bool) :
    s.prefetch va l1 = s.send s.cur va pa leaf (.load (.prefetch l1)) .sent [] := by
  obtain ⟨⟨size, hcheck⟩, hcache, -, -, -, hwarm, hinj⟩ := h
  have hreg := paRegion_of_cacheable hcache
  have hdrop : ¬ (leafMT leaf = 2 ∨ leafXO leaf ∨ 5 < leafFmt leaf ∨ s.poison.contains (s.lineOf pa) ∨
      (3 ≤ paRegion pa ∧ paRegion pa ≤ 7)) := by
    rw [leafMT_of_cacheable hcache, leafXO_of_cacheable hcache, hfmt, hpoison]
    simp
    omega
  simp only [State.prefetch, hcheck, if_neg hdrop, hfar, hinj, hwarm.tlbTouch]
  simp

theorem exec_pfL1 (a : BitVec 5) (o : BitVec 11) (s : State) : exec (.pfL1 a o) s = .next (s.prefetch (offAddr s a o 128) true) := by
  rw [← s.ea_eq_offAddr]; rfl

theorem exec_pfL2 (a : BitVec 5) (o : BitVec 11) (s : State) : exec (.pfL2 a o) s = .next (s.prefetch (offAddr s a o 128) false) := by
  rw [← s.ea_eq_offAddr]; rfl

/-- Settles O22: an address that passes its checks goes on at its target, and what stands nearest there decides the rest. -/
theorem globalLoadAndPrefetchResults : Obligations.GlobalLoadAndPrefetchResults := by
  refine ⟨?loads, ?prefetches⟩
  case loads =>
    intro s d a m o pa leaf n va h
    refine ⟨fun l hl => givesG_of_exec ((exec_ld d a m o s).trans (congrArg _ (h.plainLoad_of_l1 hl))), fun hl hhome hocl => ?_⟩
    exact runs_of_exec ((exec_ld d a m o s).trans (congrArg _ (h.plainLoad_of_home hl hhome hocl))) (s.loadReq_sent va pa leaf _)
  case prefetches =>
    intro s a o acc va
    refine ⟨fun h => ⟨?_, ?_⟩, fun pa leaf h hfmt hpoison hfar l1 => ?_⟩
    · exact (exec_pfL1 a o s).trans (congrArg _ (State.prefetch_of_check h true))
    · exact (exec_pfL2 a o s).trans (congrArg _ (State.prefetch_of_check h false))
    · have hexec : exec (if l1 then .pfL1 a o else .pfL2 a o) s = .next (s.prefetch va l1) := by
        cases l1
        · exact exec_pfL2 a o s
        · exact exec_pfL1 a o s
      refine runs_of_exec (hexec.trans (congrArg _ (h.prefetch_of_far hfmt hpoison hfar l1))) ?_
      exact ⟨⟨_, rfl, rfl, rfl, rfl, rfl⟩, rfl, rfl, rfl⟩

end Sys2Proof.Machine

/-! # Fences and the split cross-die fence (O29) -/

namespace Sys2Proof.Machine

/-! ### Lines that leave a die's cache (R88)

What is written home when lines leave a die's cache touches neither a context, nor the issue, nor the lines of any die's cache. -/

/-- The contexts, the issue and the lines of every die's cache are as before. -/
structure KeepsRdc (s t : State) : Prop where
  ctxs : t.ctxs = s.ctxs
  issue : t.issue = s.issue
  rdc : ∀ i, (t.die i).rdc = (s.die i).rdc

namespace KeepsRdc

variable {s t u : State}

theorem refl (s : State) : KeepsRdc s s := ⟨rfl, rfl, fun _ => rfl⟩

theorem trans (h : KeepsRdc s t) (h' : KeepsRdc t u) : KeepsRdc s u :=
  ⟨h'.ctxs.trans h.ctxs, h'.issue.trans h.issue, fun i => (h'.rdc i).trans (h.rdc i)⟩

theorem ite {p : Prop} [Decidable p] (h : KeepsRdc s t) (h' : KeepsRdc s u) : KeepsRdc s (if p then t else u) := by
  split
  · exact h
  · exact h'

theorem foldl {α : Type} {f : State → α → State} (hf : ∀ s x, KeepsRdc s (f s x)) (l : List α) (s : State) :
    KeepsRdc s (l.foldl f s) := by
  induction l generalizing s with
  | nil => exact refl s
  | cons x l ih => exact (hf s x).trans (ih _)

theorem setByte (s : State) (pa : Nat) (b : Byte) : KeepsRdc s (s.setByte pa b) := ⟨rfl, rfl, fun _ => rfl⟩

theorem l1Drop (s : State) (site line : Nat) (but : Option Nat) : KeepsRdc s (s.l1Drop site line but) := ⟨rfl, rfl, fun _ => rfl⟩

theorem staleFills (s : State) (line : Nat) (which : Req → Bool) : KeepsRdc s (s.staleFills line which) := ⟨rfl, rfl, fun _ => rfl⟩

theorem forward (s : State) (site line : Nat) (bs : List (Nat × Byte)) :
    KeepsRdc s (s.forward site line bs) := ⟨rfl, rfl, fun _ => rfl⟩

theorem sendBack (s : State) (site : Nat) (l : RdcLine) (asid : BitVec 16) (bs : List (Nat × Byte)) :
    KeepsRdc s (s.sendBack site l asid bs) := ⟨rfl, rfl, fun _ => rfl⟩

theorem cacheReq (s : State) (line : Nat) (own : Bool) : KeepsRdc s (s.cacheReq line own) :=
  ite ⟨rfl, rfl, fun _ => rfl⟩ (refl s)

theorem cacheBack (s : State) (v : L2Line) : KeepsRdc s (s.cacheBack v) := ite ⟨rfl, rfl, fun _ => rfl⟩ (refl s)

theorem modDie (s : State) (site : Nat) {f : Die → Die} (hf : ∀ d, (f d).rdc = d.rdc) : KeepsRdc s (s.modDie site f) := by
  refine ⟨rfl, rfl, fun i => ?_⟩
  by_cases h : i = site
  · rw [h, State.die_modDie_self, hf]
  · rw [State.die_modDie_of_ne _ f h]

theorem predMove (s : State) (site line : Nat) (up : Bool) : KeepsRdc s (s.predMove site line up) :=
  ite (refl s) (modDie s site fun _ => rfl)

theorem recallLine (s : State) (line : Nat) (who : Option CtxRef) : KeepsRdc s (s.recallLine line who) := by
  unfold State.recallLine
  split
  · next site core _ =>
    have hback : KeepsRdc s (s.returnLine site core line) := ⟨rfl, rfl, fun _ => rfl⟩
    exact ite (hback.trans (predMove _ site line true)) hback
  · exact refl s

theorem takeBack (s : State) (line : Nat) : KeepsRdc s (s.takeBack line) := by
  have hsnoop : KeepsRdc s (if s.l2.any fun l => l.line = line ∧ l.host ∧ !l.snooped then s.emit (.snoop line) else s) :=
    ite ⟨rfl, rfl, fun _ => rfl⟩ (refl s)
  exact (hsnoop.trans (recallLine _ line none)).trans ⟨rfl, rfl, fun _ => rfl⟩

theorem putUndo (s : State) (h : Nat) (u : UndoRec) : KeepsRdc s (s.putUndo h u) :=
  ((foldl takeBack _ s).trans (foldl (fun s (b : Nat × Byte) => setByte s b.1 b.2) _ _)).trans ⟨rfl, rfl, fun _ => rfl⟩

theorem logUndo (s : State) (line home : Nat) (asid : BitVec 16) : KeepsRdc s (s.logUndo line home asid) := by
  unfold State.logUndo
  dsimp only
  split
  · exact refl s
  split
  · exact refl s
  split
  · exact KeepsRdc.trans (t := State.modHub s _ _) ⟨rfl, rfl, fun _ => rfl⟩ (putUndo _ _ _)
  · exact ⟨rfl, rfl, fun _ => rfl⟩

theorem homeWrite (s : State) (line home : Nat) (asid : BitVec 16) (who : Option (Nat × Nat)) (bs : List (Nat × Byte)) :
    KeepsRdc s (s.homeWrite line home asid who bs) := by
  have hbytes (but : Option Nat) (which : Req → Bool) : KeepsRdc s (bs.foldl (fun s b => s.setByte (line * 128 + b.1) b.2)
      (((s.logUndo line home asid).l1Drop home line but).staleFills line which)) :=
    (((logUndo s line home asid).trans (l1Drop _ home line but)).trans (staleFills _ line which)).trans
      (foldl (fun s (b : Nat × Byte) => setByte s (line * 128 + b.1) b.2) _ _)
  have hdirty {u : State} (hu : KeepsRdc s u) (l2 : List L2Line) :
      KeepsRdc s { (if u.l2.any fun l => l.line = line ∧ !l.dirty then u.cacheReq line true else u) with l2 } :=
    (hu.trans (ite (cacheReq u line true) (refl u))).trans ⟨rfl, rfl, fun _ => rfl⟩
  unfold State.homeWrite
  extract_lets undone but dropped written owned stored
  have hstored : KeepsRdc s stored := ite (hbytes _ _) (hdirty (hbytes _ _) _)
  exact ite (hstored.trans ⟨rfl, rfl, fun _ => rfl⟩) hstored

theorem fillL2 (s : State) (line home : Nat) : KeepsRdc s (s.fillL2 line home) := by
  have hreq (t : State) : KeepsRdc t (t.cacheReq line false) := cacheReq t line false
  unfold State.fillL2
  dsimp only
  split
  · exact refl s
  split
  · exact (hreq s).trans ⟨rfl, rfl, fun _ => rfl⟩
  split
  · exact refl s
  split
  · exact refl s
  · next v _ _ =>
    have hdrop := (l1Drop s home v.line none).trans (staleFills _ v.line fun q => q.who.site = home)
    have hback := (hdrop.trans (cacheBack _ v)).trans (u := State.next _) ⟨rfl, rfl, fun _ => rfl⟩
    exact (hback.trans (hreq _)).trans ⟨rfl, rfl, fun _ => rfl⟩

theorem rdcFlush (s : State) (site : Nat) (l : RdcLine) (asid : BitVec 16) : KeepsRdc s (s.rdcFlush site l asid) := by
  unfold State.rdcFlush
  dsimp only
  split
  · exact ite (refl s) (sendBack s site l asid _)
  · have hlate : ∀ (p : Prop) [Decidable p] (f : Req → Req), KeepsRdc s (if p then s else { s with reqs := s.reqs.map f }) :=
      fun p _ f => ite (refl s) ⟨rfl, rfl, fun _ => rfl⟩
    refine ite (hlate _ _) ?_
    exact (((hlate _ _).trans (forward _ site l.line _)).trans (recallLine _ l.line none)).trans
      ((fillL2 _ l.line l.home).trans (homeWrite _ l.line l.home asid none _))

end KeepsRdc

/-- A fence of module or system scope leaves of its die's cache the lines that are bound. -/
theorem State.rdcUnbound_keeps (s : State) (site : Nat) :
    let t := s.rdcUnbound site
    t.ctxs = s.ctxs ∧ t.issue = s.issue ∧ (t.die site).rdc = (s.die site).rdc.filter fun l => !decide (l.tag = none) := by
  let flush := fun (s : State) (l : RdcLine) (asid : BitVec 16) => (s.rdcFlush site l asid).l1Drop site l.line none
  have hgone (asid : RdcLine → BitVec 16) (gone : List RdcLine) : KeepsRdc s (gone.foldl (fun s l => flush s l (asid l)) s) :=
    KeepsRdc.foldl (fun s l => (KeepsRdc.rdcFlush s site l (asid l)).trans (KeepsRdc.l1Drop _ site l.line none)) gone s
  obtain ⟨hctxs, hissue, hrdc⟩ := hgone (s.die site).lineAsid ((s.die site).rdc.filter fun l => decide (l.tag = none))
  refine ⟨hctxs, hissue, ?_⟩
  calc _ = (State.die (State.modDie _ site fun d => { d with rdc := d.rdc.filter fun l => !decide (l.tag = none) }) site).rdc := rfl
    _ = _ := by rw [State.die_modDie_self, hrdc]

/-- With no UNBOUND line in the cache the fence writes nothing home. -/
theorem State.byte_rdcUnbound {s : State} {site : Nat} (h : ∀ l ∈ (s.die site).rdc, l.tag ≠ none) (x : Nat) :
    (s.rdcUnbound site).byte x = s.byte x := by
  have hgone : ((s.die site).rdc.filter fun l => decide (l.tag = none)) = [] := by simpa using h
  refine State.byte_congr ?_ ?_ ?_ x <;> simp only [State.rdcUnbound, State.rdcEvict, hgone] <;> rfl

/-! ### Fences (R117) -/

theorem exec_fence_of_not_drained {s : State} {e : Scope} (h : s.drained s.cur = false) : exec (.fence e) s = .next (s.flow .stall) := by
  simp [exec, execFence, h]

theorem exec_fence_of_drained {s : State} (e : Scope) (h : s.drained s.cur = true) :
    exec (.fence e) s = .next (if wide e then s.rdcUnbound s.cur.site else s) := by
  simp [exec, execFence, h, State.fenceAct]

/-! ### The split fence (R120 to R122) -/

/-- The context in issue changes but for its general registers, and general register `d` takes a value. -/
theorem State.gw_modC_result (s : State) {f : Ctx → Ctx} (hf : (f s.c).g = s.c.g) (d : BitVec 5) (v : W64) :
    let t := (s.modC f).gw d v
    t.c = { f s.c with g := t.c.g } ∧ t.g d = (if d = 0 then 0 else v) ∧ ∀ b, b ≠ d → t.g b = s.g b := by
  obtain ⟨hd, hc, hne⟩ := State.gw_result (s := s.modC f) (t := s.modC f) rfl rfl d v
  rw [State.c_modC] at hc
  refine ⟨hc, hd, fun b hb => (hne b hb).trans ?_⟩
  simp only [State.g, Ctx.rg, State.c_modC, hf]

theorem State.gw_modC_kept {s u : State} {n : Nat} (hu : u = { s with tick := s.tick + n }) (f : Ctx → Ctx) (d : BitVec 5) (v : W64) :
    Kept s ((u.modC f).gw d v) n s.issue.flow := by
  subst hu
  refine ⟨rfl, fun r hr => ?_, State.byte_congr rfl rfl rfl⟩
  exact (State.ctx_modC_of_ne (State.modC _ f) (fun c => c.wg d v) hr).trans (State.ctx_modC_of_ne _ f hr)

/-- A slot of the context takes its unperformed accesses, and its token goes to a register. -/
def State.capture (s : State) (d : BitVec 5) (slot : Nat) (rest : List XSlot) : State :=
  (s.modC fun c => { c with xslots := rest ++ [⟨slot, c.xseq, s.captures s.cur⟩], xseq := c.xseq + 1 }).gw d
    (BitVec.ofNat 64 (slot + 8 * s.cur.ctx + 32 * s.c.xseq.toNat))

/-- The numbers of the free slots of a context. -/
def Ctx.freeXSlots (c : Ctx) : List Nat := (List.range 8).filter fun i => !(c.xslots.any fun x => x.slot == i)

theorem Ctx.mem_freeXSlots {c : Ctx} {i : Nat} : i ∈ c.freeXSlots ↔ i < 8 ∧ ∀ x ∈ c.xslots, x.slot ≠ i := by
  simp [Ctx.freeXSlots]

theorem exec_xfi_of_free {s : State} (d : BitVec 5) (h : ∃ i, i ∈ s.c.freeXSlots) :
    ∃ i ∈ s.c.freeXSlots, exec (.xfi d) s = .next (s.next.capture d i s.c.xslots) := by
  obtain ⟨f, l, hl⟩ := List.exists_cons_of_ne_nil (List.ne_nil_of_mem h.choose_spec)
  refine ⟨(f :: l).getD (s.choose (f :: l).length) f, by rw [hl]; exact s.getD_choose_mem f l, ?_⟩
  simp only [Ctx.freeXSlots] at hl
  simp only [exec, execXfi, hl]
  rfl

theorem exec_xfi_of_full {s : State} (d : BitVec 5) (h : ¬ ∃ i, i ∈ s.c.freeXSlots) {x : XSlot} {l : List XSlot}
    (hx : s.c.xslots = x :: l) :
    exec (.xfi d) s = .next (if s.capsDone s.cur x then s.capture d x.slot l else s.flow .stall) := by
  have hnil : s.c.freeXSlots = [] := List.eq_nil_iff_forall_not_mem.mpr fun i hi => h ⟨i, hi⟩
  simp only [Ctx.freeXSlots] at hnil
  simp only [exec, execXfi, hnil]
  rw [hx]
  dsimp only
  split <;> rfl

/-- What a capture leaves: the slot taken, the sequence number raised, the token in its register. -/
theorem State.capture_result {s u : State} {n : Nat} (hu : u = { s with tick := s.tick + n }) (d : BitVec 5) (slot : Nat)
    (rest : List XSlot) :
    let t := u.capture d slot rest
    t.c = { s.c with xslots := rest ++ [⟨slot, s.c.xseq, s.captures s.cur⟩], xseq := s.c.xseq + 1, g := t.c.g } ∧
      t.g d = (if d = 0 then 0 else BitVec.ofNat 64 (slot + 8 * s.cur.ctx + 32 * s.c.xseq.toNat)) ∧
      (∀ b, b ≠ d → t.g b = s.g b) ∧ Kept s t n s.issue.flow := by
  have hkept := State.gw_modC_kept hu (fun c => { c with xslots := rest ++ [⟨slot, c.xseq, u.captures u.cur⟩], xseq := c.xseq + 1 }) d
    (BitVec.ofNat 64 (slot + 8 * u.cur.ctx + 32 * u.c.xseq.toNat))
  subst hu
  obtain ⟨hc, hd, hne⟩ := State.gw_modC_result { s with tick := s.tick + n }
    (f := fun c => { c with xslots := rest ++ [⟨slot, c.xseq, s.captures s.cur⟩], xseq := c.xseq + 1 }) rfl d
    (BitVec.ofNat 64 (slot + 8 * s.cur.ctx + 32 * s.c.xseq.toNat))
  exact ⟨hc, hd, hne, hkept⟩

/-- The slot that a token names, with its sequence number (R121). -/
abbrev Ctx.xslotOf (c : Ctx) (v : W64) : Option XSlot := c.xslots.find? fun y => y.slot = bits v 0 3 ∧ y.seq.toNat = bits v 5 16

/-- The register holds a token of the context, current or not (R121, R134). -/
abbrev State.ownToken (s : State) (v : W64) : Prop := bits v 21 43 = 0 ∧ (bits v 3 2 = s.cur.ctx ∨ bits v 3 2 ∈ s.c.was)

theorem exec_xfw_of_token {s : State} {a : BitVec 5} (h : s.ownToken (s.g a)) :
    exec (.xfw a) s = match s.c.xslotOf (s.g a) with
      | none => .next s
      | some x =>
        if s.capsDone s.cur x then .next (s.modC fun c => { c with xslots := c.xslots.filter fun y => y.slot != x.slot })
        else .next (s.flow .stall) := by
  refine if_neg ?_
  simp only [List.contains_iff_mem, Bool.not_eq_true', ← Bool.not_eq_true]
  tauto

theorem exec_xfw_of_no_token {s : State} {a : BitVec 5} (h : ¬ s.ownToken (s.g a)) (hdict : s.issue.dict = none) :
    exec (.xfw a) s = .next (s.trap 0x02 (BitVec.ofNat 64 s.issue.word.toNat)) := by
  have hillegal : s.illegal = s.trap 0x02 (BitVec.ofNat 64 s.issue.word.toNat) := by
    rw [State.illegal, hdict, BitVec.ofNat_toNat]
  rw [← hillegal]
  refine if_pos ?_
  simp only [List.contains_iff_mem, Bool.not_eq_true', ← Bool.not_eq_true]
  tauto

/-- Settles O29: a fence of module or system scope sends UNBOUND lines home, which touches no context; `xfi` and `xfw` change the
slots of their context alone. -/
theorem fenceInstructionResults : Obligations.FenceInstructionResults := by
  refine ⟨fun s e => ⟨fun h => givesF_stall_of_exec (exec_fence_of_not_drained h), fun h he => ?narrow, fun h he => ?wide⟩, ?split⟩
  case narrow =>
    refine (exec_fence_of_drained e h).trans (congrArg _ (if_neg ?_))
    rcases he with rfl | rfl | rfl <;> decide
  case wide =>
    have hwide : wide e = true := by rcases he with rfl | rfl <;> rfl
    refine runs_of_exec ((exec_fence_of_drained e h).trans (congrArg _ (if_pos hwide))) ?_
    obtain ⟨hctxs, hissue, hrdc⟩ := s.rdcUnbound_keeps s.cur.site
    exact ⟨by simp [hrdc], hctxs, hissue, fun l hl ht => by simp [hrdc, hl, ht], State.byte_rdcUnbound⟩
  case split =>
    intro s d a free mine token v named
    have hfree (i : Nat) : i ∈ s.c.freeXSlots ↔ free i := Ctx.mem_freeXSlots
    simp only [← hfree]
    refine ⟨fun h => ?free, fun x l h hx hdone => ?reuse, fun x l h hx hdone => ?busy,
      fun hhigh hctx => ⟨fun h => ?stale, fun x hx => ?current⟩, fun h htrap hdict => ?illegal⟩
    case free =>
      obtain ⟨i, hi, hexec⟩ := exec_xfi_of_free d h
      exact runs_of_exec hexec ⟨i, hi, State.capture_result (u := s.next) (n := 1) rfl d i s.c.xslots⟩
    case reuse =>
      exact runs_of_exec ((exec_xfi_of_full d h hx).trans (congrArg _ (if_pos hdone)))
        (State.capture_result (u := s) (n := 0) rfl d x.slot l)
    case busy => exact givesF_stall_of_exec ((exec_xfi_of_full d h hx).trans (congrArg _ (if_neg (by simp [hdone]))))
    case stale =>
      have hnone : s.c.xslotOf v = none := List.find?_eq_none.mpr (by simpa [named] using h)
      rw [GivesNothing, exec_xfw_of_token ⟨hhigh, hctx⟩, hnone]
    case current =>
      have hexec := exec_xfw_of_token (s := s) (a := a) ⟨hhigh, hctx⟩
      rw [show s.c.xslotOf (s.g a) = some x from hx] at hexec
      refine ⟨fun hdone => runs_of_exec (hexec.trans (if_pos hdone)) ?_,
        fun hbusy => givesF_stall_of_exec (hexec.trans (if_neg (by simp [hbusy])))⟩
      exact ⟨s.c_modC _, rfl, fun r hr => s.ctx_modC_of_ne _ hr, State.byte_congr rfl rfl rfl⟩
    case illegal => exact htrap.traps_of_exec (by decide) (exec_xfw_of_no_token (by unfold State.ownToken; tauto) hdict)

end Sys2Proof.Machine

/-! # Memory errors (O48)

The statement binds a number `id`, and the `id` of its test `l.dirty.any id` is that number, read as a constant function on `Bool`:
the test then says that the number is odd, and nothing of the line's dirty bits. -/

namespace Sys2Proof.Machine

/-- A number as a function on `Bool` is its parity; as one, 0 accepts nothing. -/
theorem any_natCast_zero (l : List Bool) : l.any ((0 : Nat) : Bool → Bool) = false := by
  rw [Nat.cast_zero]
  exact List.any_eq_false.mpr fun b _ => Bool.false_ne_true

/-- A dirty line of a die's cache that meets an error is poisoned (R94). -/
theorem State.poison_rdcError_of_dirty {s : State} {site line : Nat} {l : RdcLine} (hl : s.rdcFind site line = some l)
    (hd : l.dirty.any (fun b => b) = true) : (s.rdcError site line).poison = line :: s.poison.filter (· != line) := by
  have herror : s.rdcError site line = (((s.modDie site fun d => { d with rdc := d.rdc.filter fun x => x.line != line }).l1Drop site line
      none).poisonLine line l.home).countEcc site true 1 := by
    simp only [State.rdcError, hl]
    exact if_pos hd
  rw [herror]
  rfl

/-- A line, line 0 of site 0, with one dirty byte. -/
def dirtyLine : RdcLine := ⟨0, 0, [1], [true], [true], none⟩

/-- The reset state, but for the dirty line in the cache of die 0. -/
def stateWithDirtyLine : State := State.reset.modDie 0 fun d => { d with rdc := [dirtyLine] }

theorem rdcFind_stateWithDirtyLine : stateWithDirtyLine.rdcFind 0 0 = some dirtyLine := by
  rw [State.rdcFind, stateWithDirtyLine, State.die_modDie_self]
  rfl

/-- Refutes O48: with the number `id` at 0 the statement has the error in the dirty line of `stateWithDirtyLine` poison nothing, and
the model poisons the line, as R94 has it. -/
theorem not_errorAndBarrierEvents : ¬ Obligations.ErrorAndBarrierEvents := by
  intro h
  obtain ⟨-, -, -, hrdc, -⟩ := h stateWithDirtyLine 0 0 0 0 0 0 ⟨0, .barrier 0 0, 0, 0, false, false, [], []⟩
  obtain ⟨t, hexec, -, -, -, hclean, -⟩ := hrdc dirtyLine rdcFind_stateWithDirtyLine
  have ht : stateWithDirtyLine.rdcError 0 0 = t := Host.Outcome.next.inj hexec
  have hkept : t.poison = stateWithDirtyLine.poison := (hclean (any_natCast_zero _)).1
  rw [← ht, State.poison_rdcError_of_dirty rdcFind_stateWithDirtyLine rfl] at hkept
  exact List.cons_ne_nil _ _ hkept

end Sys2Proof.Machine

/-! # Bring-up (O50)

Bit fields and hub registers are read back after a write by one lemma each; the events of bring-up then follow in the order of R422
to R429: the start, the stitch wave, the tests, COMMIT and SERVE, and the writes of hub registers. -/

namespace Sys2Proof.Table

/-- An entry of a table whose entries are changed each by itself, where the change leaves the default alone. -/
theorem get_mapVals {α : Type} {d : α} {f : Nat → α → α} {k : Nat} (hd : f k d = d) (t : Table α) :
    get d (mapVals f t) k = f k (get d t k) := by
  induction t with
  | nil => exact hd.symm
  | cons e t ih =>
    rw [mapVals, List.map_cons, get, get]
    split
    · next h => rw [← h]
    · exact ih

/-- An entry of a table that lists every key of a range. -/
theorem get_map_range {α : Type} (d : α) (f : Nat → α) {n k : Nat} (hk : k < n) :
    get d ((List.range n).map fun h => (h, f h)) k = f k := by
  have hget (l : List Nat) : k ∈ l → get d (l.map fun h => (h, f h)) k = f k := by
    induction l with
    | nil => exact fun h => absurd h List.not_mem_nil
    | cons a l ih =>
      intro h
      rw [List.map_cons, get]
      split
      · next ha => rw [ha]
      · next ha => exact ih ((List.mem_cons.mp h).resolve_left (Ne.symm ha))
  exact hget _ (List.mem_range.mpr hk)

end Sys2Proof.Table

namespace Sys2Proof.Machine

/-! ### Bit fields (R4) -/

/-- A word is what lies below a field, the field, and what lies above. -/
theorem toNat_eq_fields (v : W64) (lo n : Nat) :
    v.toNat = v.toNat % 2 ^ lo + 2 ^ lo * (bits v lo n + 2 ^ n * (v.toNat / 2 ^ lo / 2 ^ n)) := by
  rw [bits, Nat.mod_add_div, Nat.mod_add_div]

theorem toNat_putBits (v : W64) {lo n : Nat} (h : lo + n ≤ 64) (x : Nat) :
    (putBits v lo n x).toNat = v.toNat % 2 ^ lo + 2 ^ lo * (x % 2 ^ n + 2 ^ n * (v.toNat / 2 ^ lo / 2 ^ n)) := by
  set a := v.toNat % 2 ^ lo
  set c := v.toNat / 2 ^ lo / 2 ^ n
  have hv : v.toNat = a + 2 ^ lo * (bits v lo n + 2 ^ n * c) := toNat_eq_fields v lo n
  have hsub : v.toNat - bits v lo n * 2 ^ lo + x % 2 ^ n * 2 ^ lo = a + 2 ^ lo * (x % 2 ^ n + 2 ^ n * c) := by
    rw [hv, mul_add, mul_add, mul_comm (bits v lo n), mul_comm (x % 2 ^ n)]
    omega
  have ha : a + 1 ≤ 2 ^ lo := Nat.mod_lt _ (Nat.two_pow_pos lo)
  have hx : x % 2 ^ n + 1 ≤ 2 ^ n := Nat.mod_lt _ (Nat.two_pow_pos n)
  have hc : c + 1 ≤ 2 ^ (64 - lo - n) := by
    show v.toNat / 2 ^ lo / 2 ^ n < _
    rw [Nat.div_div_eq_div_mul, ← pow_add, Nat.div_lt_iff_lt_mul (Nat.two_pow_pos _), ← pow_add]
    exact lt_of_lt_of_eq v.isLt (congrArg _ (by omega))
  have hlt : a + 2 ^ lo * (x % 2 ^ n + 2 ^ n * c) < 2 ^ 64 := by
    calc a + 2 ^ lo * (x % 2 ^ n + 2 ^ n * c) < 2 ^ lo + 2 ^ lo * (x % 2 ^ n + 2 ^ n * c) := by omega
      _ = 2 ^ lo * (x % 2 ^ n + 1 + 2 ^ n * c) := by ring
      _ ≤ 2 ^ lo * (2 ^ n + 2 ^ n * c) := by gcongr
      _ = 2 ^ lo * (2 ^ n * (c + 1)) := by ring
      _ ≤ 2 ^ lo * (2 ^ n * 2 ^ (64 - lo - n)) := by gcongr
      _ = 2 ^ 64 := by rw [← pow_add, ← pow_add]; congr 1; omega
  rw [putBits, hsub, BitVec.toNat_ofNat, Nat.mod_eq_of_lt hlt]

/-- A field that was written is read back. -/
theorem bits_putBits (v : W64) {lo n : Nat} (h : lo + n ≤ 64) (x : Nat) : bits (putBits v lo n x) lo n = x % 2 ^ n := by
  rw [bits, toNat_putBits v h, Nat.add_mul_div_left _ _ (Nat.two_pow_pos lo), Nat.div_eq_of_lt (Nat.mod_lt _ (Nat.two_pow_pos lo)),
    Nat.zero_add, Nat.add_mul_mod_self_left, Nat.mod_mod]

theorem bit_eq_bits (v : W64) (i : Nat) : bit v i = decide (bits v i 1 = 1) := by
  rw [bit, BitVec.getLsbD, Nat.testBit_eq_decide_div_mod_eq, bits, pow_one]

theorem bit_putBits (v : W64) {i : Nat} (h : i < 64) (b : Bool) : bit (putBits v i 1 b.toNat) i = b := by
  rw [bit_eq_bits, bits_putBits v h]
  cases b <;> rfl

/-! ### Hub registers read back -/

/-- A hub's register after a write of one of its registers or of another hub's. -/
theorem State.hreg_setHreg (s : State) (h off : Nat) (v : W64) (k o : Nat) :
    (s.setHreg h off v).hreg k o = if k = h ∧ o = off then v else s.hreg k o := by
  unfold State.hreg State.setHreg
  by_cases hk : k = h
  · subst hk
    rw [State.hub_modHub_self]
    by_cases ho : o = off
    · subst ho
      rw [Table.find_put_self, if_pos ⟨rfl, rfl⟩]
      rfl
    · rw [Table.find_put_of_ne _ _ ho, if_neg (by simp [ho])]
  · rw [State.hub_modHub_of_ne _ _ hk, if_neg (by simp [hk])]

@[simp] theorem State.hreg_setHreg_self (s : State) (h off : Nat) (v : W64) : (s.setHreg h off v).hreg h off = v := by
  rw [State.hreg_setHreg, if_pos ⟨rfl, rfl⟩]

theorem State.hreg_setHreg_of_ne (s : State) (h off : Nat) (v : W64) (k : Nat) {o : Nat} (ho : o ≠ off) :
    (s.setHreg h off v).hreg k o = s.hreg k o := by
  rw [State.hreg_setHreg, if_neg fun h' => ho h'.2]

theorem State.hub_setHreg_of_ne (s : State) {h k : Nat} (off : Nat) (v : W64) (hk : k ≠ h) : (s.setHreg h off v).hub k = s.hub k :=
  State.hub_modHub_of_ne _ _ hk

/-- A register depends on the registers of its hub alone. -/
theorem State.hreg_congr {s t : State} {h : Nat} (hr : (t.hub h).regs = (s.hub h).regs) (off : Nat) : t.hreg h off = s.hreg h off := by
  rw [State.hreg, State.hreg, hr]

theorem State.regs_modHub (s : State) (h : Nat) {f : Hub → Hub} (hf : ∀ u, (f u).regs = u.regs) (k : Nat) :
    ((s.modHub h f).hub k).regs = (s.hub k).regs := by
  by_cases hk : k = h
  · rw [hk, State.hub_modHub_self, hf]
  · rw [State.hub_modHub_of_ne _ _ hk]

theorem State.onlyReg_setHreg (s : State) (h off : Nat) (v : W64) : OnlyReg s (s.setHreg h off v) h off v := by
  refine ⟨rfl, State.hreg_setHreg_self .., fun o ho => State.hreg_setHreg_of_ne _ _ _ _ _ ho, ?_,
    fun k hk => State.hub_setHreg_of_ne _ _ _ hk⟩
  rw [State.setHreg, State.hub_modHub_self]

/-! ### Starts (R422, R427) -/

theorem st_bootHub (tick h : Nat) : (bootHub tick h).st = .off := by
  unfold bootHub
  split <;> rfl

/-- A start that begins. -/
def Begun (s t : State) : Prop :=
  t.starting = true ∧ t.stage = 1 ∧ t.sites = [] ∧ (∀ k, k < 64 → (t.hub k).st = .off) ∧
    bits t.bootstat 16 32 = (bits s.bootstat 16 32 + 1) % 4294967296 ∧ ∀ r, t.ctx r = State.reset.ctx r

theorem State.begun_beginStart {s : State} (hhalt : s.halter = false) (hstart : s.starting = false) :
    s.beginStart.mainPower = s.mainPower ∧ Begun s s.beginStart := by
  have hbegin : s.beginStart = { s.afresh with
      hubs := (List.range 64).map fun h => (h, bootHub s.tick h)
      bootstat := putBits s.bootstat 16 32 (bits s.bootstat 16 32 + 1)
      starting := true
      stage := 1
      tick := s.tick + 4 } := by
    simp [State.beginStart, hstart, hhalt]
  rw [hbegin]
  refine ⟨rfl, rfl, rfl, rfl, fun k hk => ?_, bits_putBits _ (by decide) _, fun r => rfl⟩
  rw [State.hub, Table.get_map_range _ (bootHub s.tick) hk, st_bootHub]

theorem exec_powerOn_of_off {s : State} (hpower : s.mainPower = false) (hhalt : s.halter = false) :
    exec .powerOn s = .next ({ s with mainPower := true } : State).beginStart := by
  refine (if_neg (by simp [hpower])).trans ?_
  exact if_neg (by simpa [State.halter] using hhalt)

theorem exec_powerOn_of_halter {s : State} (hpower : s.mainPower = false) (hhalt : s.halter = true) :
    exec .powerOn s = .next { s with
      mainPower := true
      hubs := (List.range 64).map fun h =>
        (h, if edgeHub h then { bootHub s.tick h with st := .linked, linked := true } else Hub.reset)
      tick := s.tick + 4 } := by
  refine (if_neg (by simp [hpower])).trans ?_
  exact if_pos hhalt

theorem exec_bootcmdStart (hub : Nat) (s : State) : exec (.bootcmdStart hub) s = .next (if edgeHub hub then s.cmdStart else s) := rfl

theorem State.cmdStart_of_live {s : State} (h : s.mainPower = true ∧ s.halter = false) : s.cmdStart = s.beginStart :=
  if_pos (by simp [h])

/-! ### Failed starts (R427) -/

theorem State.failStart_of_first {s : State} (h : bits s.bootstat 4 2 < 2) (reason : Nat) :
    s.failStart reason =
      { s with bootstat := putBits (putBits s.bootstat 0 4 reason) 4 2 (bits s.bootstat 4 2 + 1), starting := false } := by
  have hmin : min 3 (bits s.bootstat 4 2 + 1) = bits s.bootstat 4 2 + 1 := by omega
  have hlt : bits s.bootstat 4 2 + 1 < 3 := by omega
  simp only [State.failStart, hmin, if_pos hlt]

theorem State.failStart_of_third {s : State} (h : 2 ≤ bits s.bootstat 4 2) (reason : Nat) :
    (s.failStart reason).halter = true ∧ (s.failStart reason).starting = false ∧ (s.failStart reason).sites = [] := by
  have hmin : min 3 (bits s.bootstat 4 2 + 1) = 3 := by omega
  unfold State.failStart
  rw [hmin, if_neg (lt_irrefl 3)]
  exact ⟨bit_putBits _ (by decide) true, rfl, rfl⟩

/-- What a failed start leaves alone. -/
theorem State.failStart_keeps (s : State) (reason : Nat) :
    (s.failStart reason).mem = s.mem ∧ (s.failStart reason).standby = s.standby := by
  unfold State.failStart
  dsimp only
  split <;> exact ⟨rfl, rfl⟩

theorem exec_mainPowerLoss (s : State) :
    exec .mainPowerLoss s = .next { (if s.starting then s.failStart s.stage else s).afresh with mainPower := false } := rfl

/-- Of memory, a start or a power loss keeps the keep tier and the host's own (R91, R92). -/
theorem State.get_keptMem (s : State) (k : Nat) :
    Table.get (0 : Byte) s.keptMem k =
      if k / 281474976710656 = 1 ∨ 8 ≤ k / 281474976710656 then Table.get (0 : Byte) s.mem k else 0 := by
  refine (Table.get_filter_key (fun k => k / 281474976710656 = 1 || decide (8 ≤ k / 281474976710656)) s.mem k).trans ?_
  simp

/-! ### The stitch wave (R413, R422, R424) -/

theorem State.reach_eq (s : State) (n : Nat) : s.reach_ n = { s with stage := (s.reach_ n).stage } := by
  unfold State.reach_
  split <;> rfl

theorem State.hubs_reach (s : State) (n : Nat) : (s.reach_ n).hubs = s.hubs := by rw [State.reach_eq]

/-- A hub has become `x`, and no other hub has changed; a stage may have been reached. -/
def Becomes (s t : State) (hub : Nat) (x : Hub) : Prop :=
  t.hub hub = x ∧ (∀ k, k ≠ hub → t.hub k = s.hub k) ∧ t = { s with hubs := t.hubs, stage := t.stage }

theorem Becomes.reach {s t : State} {hub : Nat} {x : Hub} (h : Becomes s t hub x) (n : Nat) : Becomes s (t.reach_ n) hub x := by
  obtain ⟨hx, hne, hframe⟩ := h
  have hhub (k : Nat) : (t.reach_ n).hub k = t.hub k := by rw [State.hub, State.hubs_reach]; rfl
  refine ⟨(hhub hub).trans hx, fun k hk => (hhub k).trans (hne k hk), ?_⟩
  rw [t.reach_eq n, hframe]

theorem State.becomes_modHub (s : State) (hub : Nat) (f : Hub → Hub) : Becomes s (s.modHub hub f) hub (f (s.hub hub)) :=
  ⟨s.hub_modHub_self hub f, fun _ hk => s.hub_modHub_of_ne f hk, rfl⟩

/-- No hub is its own neighbour, and its neighbours differ. -/
theorem nodup_neighbours : ∀ h < 64, (h :: (neighbours h).map (·.2)).Nodup := by decide

/-- A hub to which a neighbour, by its direction and index, offers clock. -/
def offered (tick : Nat) (n : Nat × Nat) (u : Hub) : Hub :=
  if u.st ≠ .off then u
  else
    match u.offer with
    | none => { u with offer := some (oppositeCode n.1, tick) }
    | some (c, t) => if t = tick ∧ oppositeCode n.1 < c then { u with offer := some (oppositeCode n.1, t) } else u

theorem offered_eq (tick : Nat) (n : Nat × Nat) (u : Hub) : offered tick n u = { u with offer := (offered tick n u).offer } := by
  unfold offered
  split
  · rfl
  split
  · rfl
  · split <;> rfl

theorem offered_of_first {tick : Nat} {n : Nat × Nat} {u : Hub} (hst : u.st = .off) (hoffer : u.offer = none) :
    (offered tick n u).offer = some (oppositeCode n.1, tick) := by
  simp [offered, hst, hoffer]

/-- Clock offered to each hub of a list. -/
def State.offerAll (s : State) (l : List (Nat × Nat)) : State := l.foldl (fun s n => s.modHub n.2 (offered s.tick n)) s

theorem State.offerClock_eq (s : State) (hub : Nat) : s.offerClock hub = s.offerAll (neighbours hub) := rfl

theorem State.offerAll_cons (s : State) (n : Nat × Nat) (l : List (Nat × Nat)) :
    s.offerAll (n :: l) = (s.modHub n.2 (offered s.tick n)).offerAll l := rfl

theorem State.offerAll_eq (s : State) (l : List (Nat × Nat)) : s.offerAll l = { s with hubs := (s.offerAll l).hubs } := by
  induction l generalizing s with
  | nil => rfl
  | cons n l ih => rw [State.offerAll_cons, ih]; rfl

theorem State.hub_offerAll_eq (s : State) (l : List (Nat × Nat)) (k : Nat) :
    (s.offerAll l).hub k = { s.hub k with offer := ((s.offerAll l).hub k).offer } := by
  induction l generalizing s with
  | nil => rfl
  | cons n l ih =>
    rw [State.offerAll_cons, ih]
    by_cases hk : k = n.2
    · rw [hk, State.hub_modHub_self, offered_eq]
    · rw [State.hub_modHub_of_ne _ _ hk]

theorem State.hub_offerAll_of_not_mem (s : State) {l : List (Nat × Nat)} {k : Nat} (h : k ∉ l.map (·.2)) :
    (s.offerAll l).hub k = s.hub k := by
  induction l generalizing s with
  | nil => rfl
  | cons n l ih =>
    obtain ⟨hn, hl⟩ := not_or.mp (mt List.mem_cons.mpr h)
    rw [State.offerAll_cons, ih _ hl, State.hub_modHub_of_ne _ _ hn]

theorem State.hub_offerAll_of_mem (s : State) {l : List (Nat × Nat)} (hl : (l.map (·.2)).Nodup) {n : Nat × Nat} (hn : n ∈ l) :
    (s.offerAll l).hub n.2 = offered s.tick n (s.hub n.2) := by
  induction l generalizing s with
  | nil => cases hn
  | cons m l ih =>
    obtain ⟨hm, hl⟩ := List.nodup_cons.mp hl
    rw [State.offerAll_cons]
    rcases List.mem_cons.mp hn with rfl | hn
    · rw [State.hub_offerAll_of_not_mem _ hm, State.hub_modHub_self]
    · have hne : n.2 ≠ m.2 := fun h => hm (List.mem_map.mpr ⟨n, hn, h⟩)
      rw [ih _ hl hn, State.hub_modHub_of_ne _ _ hne]
      rfl

/-- A hub has locked to the clock of its parent `p`, and offers clock in its turn. -/
def Locks (s t : State) (hub p : Nat) : Prop :=
  t.hub hub = { s.hub hub with st := .clocked, parent := p } ∧ t = { s with hubs := t.hubs, stage := t.stage } ∧
    (∀ n ∈ neighbours hub, (s.hub n.2).st = .off → (s.hub n.2).offer = none →
      (t.hub n.2).offer = some (oppositeCode n.1, s.tick)) ∧
    ∀ k, k ≠ hub → t.hub k = { s.hub k with offer := (t.hub k).offer }

/-- A hub locks to a clock. -/
def State.lock (s : State) (hub p : Nat) : State := (s.modHub hub fun u => { u with st := .clocked, parent := p }).offerClock hub

theorem State.locks_lock (s : State) {hub : Nat} (hlt : hub < 64) (p : Nat) : Locks s (s.lock hub p) hub p := by
  obtain ⟨hself, hnodup⟩ := List.nodup_cons.mp (nodup_neighbours hub hlt)
  let u := s.modHub hub fun u => { u with st := .clocked, parent := p }
  have hu {k : Nat} (hk : k ≠ hub) : u.hub k = s.hub k := State.hub_modHub_of_ne _ _ hk
  have hlock : s.lock hub p = u.offerAll (neighbours hub) := u.offerClock_eq hub
  rw [hlock]
  refine ⟨?_, ?_, fun n hn hst hoffer => ?_, fun k hk => ?_⟩
  · rw [State.hub_offerAll_of_not_mem _ hself, State.hub_modHub_self]
  · rw [State.offerAll_eq]
    rfl
  · have hne : n.2 ≠ hub := fun h => hself (List.mem_map.mpr ⟨n, hn, h⟩)
    rw [State.hub_offerAll_of_mem _ hnodup hn, hu hne]
    exact offered_of_first hst hoffer
  · rw [State.hub_offerAll_eq, hu hk]

theorem Locks.reach {s t : State} {hub p : Nat} (h : Locks s t hub p) (n : Nat) : Locks s (t.reach_ n) hub p := by
  obtain ⟨hself, hframe, hfirst, hother⟩ := h
  have hhub (k : Nat) : (t.reach_ n).hub k = t.hub k := by rw [State.hub, State.hubs_reach]; rfl
  refine ⟨(hhub hub).trans hself, ?_, fun n hn hst hoffer => by rw [hhub]; exact hfirst n hn hst hoffer,
    fun k hk => by rw [hhub]; exact hother k hk⟩
  rw [t.reach_eq n, hframe]

section ClockLock

variable {s : State} {hub : Nat} (hlive : s.mainPower = true ∧ s.halter = false) (hst : (s.hub hub).st = .off) (hlt : hub < 64)
include hlive hst hlt

theorem exec_clockLock_of_edge (hedge : edgeHub hub = true) : exec (.clockLock hub) s = .next ((s.lock hub 0).reach_ 2) := by
  obtain ⟨hpower, hhalt⟩ := hlive
  refine (if_neg ?_).trans (if_pos hedge)
  simp [hst, hpower, hhalt, hlt]

theorem exec_clockLock_of_clock (hedge : edgeHub hub = false) {p : Nat} (hp : s.clockFrom hub = some p) :
    exec (.clockLock hub) s = .next (s.lock hub p) := by
  obtain ⟨hpower, hhalt⟩ := hlive
  refine (if_neg ?_).trans ((if_neg (by simp [hedge])).trans ?_)
  · simp [hst, hpower, hhalt, hlt]
  · rw [hp]
    rfl

end ClockLock

theorem State.clockFrom_of_offer {s : State} {hub : Nat} {n : Nat × Nat} {t0 : Nat} (hn : n ∈ neighbours hub)
    (hoffer : (s.hub hub).offer = some (n.1, t0)) (hst : (s.hub n.2).st.offers = true) : s.clockFrom hub = some n.1 := by
  simp only [State.clockFrom, hoffer]
  refine if_pos (List.any_eq_true.mpr ⟨n, List.mem_filter.mpr ⟨hn, hst⟩, decide_eq_true rfl⟩)

theorem State.clockFrom_of_no_offer {s : State} {hub : Nat} {n : Nat × Nat} (hoffer : (s.hub hub).offer = none)
    (hn : (neighbours hub).find? (fun n => (s.hub n.2).st.offers) = some n) : s.clockFrom hub = some n.1 := by
  simp only [State.clockFrom, hoffer, List.head?_filter, hn]
  rfl

theorem exec_clockLock_of_idle {s : State} {hub : Nat}
    (h : (s.hub hub).st ≠ .off ∨ edgeHub hub = false ∧ ∀ n ∈ neighbours hub, (s.hub n.2).st.offers = false) :
    exec (.clockLock hub) s = .next s := by
  by_cases hdead : (s.hub hub).st ≠ .off ∨ !s.mainPower ∨ s.halter ∨ 64 ≤ hub
  · exact if_pos hdead
  · obtain ⟨hedge, hnone⟩ := h.resolve_left fun h => hdead (.inl h)
    have hclock : s.clockFrom hub = none := by
      have hnil : (neighbours hub).filter (fun n => (s.hub n.2).st.offers) = [] := by simpa using hnone
      simp only [State.clockFrom, hnil]
      cases (s.hub hub).offer <;> rfl
    refine (if_neg hdead).trans ((if_neg (by simp [hedge])).trans ?_)
    rw [hclock]

theorem exec_linkTrain_of_clocked {s : State} {hub : Nat} (h : (s.hub hub).st = .clocked) :
    exec (.linkTrain hub) s = .next ((s.modHub hub fun u => { u with st := .linked, linked := true }).reach_ 3) := if_pos h

theorem exec_linkTrain_of_not_clocked {s : State} {hub : Nat} (h : (s.hub hub).st ≠ .clocked) :
    exec (.linkTrain hub) s = .next s := if_neg h

theorem exec_clockedTimeout (hub : Nat) (s : State) :
    exec (.clockedTimeout hub) s = .next (if (s.hub hub).st = .clocked then s.setHubSt hub .failed else s) := rfl

theorem exec_hubTestTimeout_of_linked {s : State} {hub : Nat} (h : (s.hub hub).st = .linked) (hhalt : s.halter = false) :
    exec (.hubTestTimeout hub) s = .next (s.setHubSt hub .failed) :=
  congrArg Host.Outcome.next (if_pos ⟨h, by simp [hhalt]⟩)

/-! ### Lists of registers written -/

/-- Registers of a hub written one after another. -/
def State.setHregs (s : State) (h : Nat) (l : List (Nat × W64)) : State := l.foldl (fun s e => s.setHreg h e.1 e.2) s

section SetHregs

variable (s : State) (h : Nat) {l : List (Nat × W64)}

theorem State.setHregs_cons (e : Nat × W64) (l : List (Nat × W64)) :
    s.setHregs h (e :: l) = (s.setHreg h e.1 e.2).setHregs h l := rfl

theorem State.setHregs_eq (l : List (Nat × W64)) : s.setHregs h l = { s with hubs := (s.setHregs h l).hubs } := by
  induction l generalizing s with
  | nil => rfl
  | cons e l ih => rw [State.setHregs_cons, ih]; rfl

theorem State.setHreg_setHregs_eq (l : List (Nat × W64)) (off : Nat) (v : W64) :
    (s.setHregs h l).setHreg h off v = { s with hubs := ((s.setHregs h l).setHreg h off v).hubs } := by
  rw [State.setHregs_eq]
  rfl

theorem State.hub_setHregs_of_ne (l : List (Nat × W64)) {k : Nat} (hk : k ≠ h) : (s.setHregs h l).hub k = s.hub k := by
  induction l generalizing s with
  | nil => rfl
  | cons e l ih => rw [State.setHregs_cons, ih, State.hub_setHreg_of_ne _ _ _ hk]

theorem State.hreg_setHregs_of_not_mem {o : Nat} (ho : o ∉ l.map (·.1)) : (s.setHregs h l).hreg h o = s.hreg h o := by
  induction l generalizing s with
  | nil => rfl
  | cons e l ih =>
    obtain ⟨he, hl⟩ := not_or.mp (mt List.mem_cons.mpr ho)
    rw [State.setHregs_cons, ih _ hl, State.hreg_setHreg_of_ne _ _ _ _ _ he]

theorem State.hreg_setHregs_of_mem (hl : (l.map (·.1)).Nodup) {e : Nat × W64} (he : e ∈ l) : (s.setHregs h l).hreg h e.1 = e.2 := by
  induction l generalizing s with
  | nil => cases he
  | cons a l ih =>
    obtain ⟨ha, hl⟩ := List.nodup_cons.mp hl
    rw [State.setHregs_cons]
    rcases List.mem_cons.mp he with rfl | he
    · rw [State.hreg_setHregs_of_not_mem _ _ ha, State.hreg_setHreg_self]
    · exact ih _ hl he

/-- Doublewords written from an offset on are read back. -/
theorem State.hreg_setHregs_run (base n : Nat) (f : Nat → W64) {i : Nat} (hi : i < n) :
    (s.setHregs h ((List.range n).map fun i => (base + 8 * i, f i))).hreg h (base + 8 * i) = f i := by
  refine s.hreg_setHregs_of_mem h ?_ (e := (base + 8 * i, f i)) (List.mem_map.mpr ⟨i, List.mem_range.mpr hi, rfl⟩)
  rw [List.map_map]
  refine List.nodup_range.map fun a b hab => ?_
  simp only [Function.comp_apply] at hab
  omega

end SetHregs

/-! ### The tests of a hub (R413, R422, R424) -/

/-- A hub's test has ended in a state, with the raw results in TESTRES. -/
def TestEnds (s t : State) (hub : Nat) (lg : Bool) (l : List W64) (st : HubState) : Prop :=
  (t.hub hub).st = st ∧ (∀ i, i < 12 → t.hreg hub (0x200 + 8 * i) = l.getD i 0) ∧ bit (t.hreg hub 0x268) 0 = lg ∧
    (∀ k, k ≠ hub → t.hub k = s.hub k) ∧ t = { s with hubs := t.hubs, stage := t.stage }

theorem TestEnds.reach {s t : State} {hub : Nat} {lg : Bool} {l : List W64} {st : HubState} (h : TestEnds s t hub lg l st) (n : Nat) :
    TestEnds s (t.reach_ n) hub lg l st := by
  obtain ⟨hst, hres, hlg, hother, hframe⟩ := h
  have hhub (k : Nat) : (t.reach_ n).hub k = t.hub k := by rw [State.hub, State.hubs_reach]; rfl
  have hreg (o : Nat) : (t.reach_ n).hreg hub o = t.hreg hub o := State.hreg_congr (congrArg _ (hhub hub)) o
  refine ⟨by rw [hhub, hst], fun i hi => by rw [hreg, hres i hi], by rw [hreg, hlg], fun k hk => by rw [hhub, hother k hk], ?_⟩
  rw [t.reach_eq n, hframe]

theorem State.hreg_setHubSt (s : State) (hub : Nat) (st : HubState) (k o : Nat) : (s.setHubSt hub st).hreg k o = s.hreg k o :=
  State.hreg_congr (s.regs_modHub hub (f := fun u => { u with st := st }) (fun _ => rfl) k) o

/-- The raw results written, and the hub's state. -/
def State.testEnd (s : State) (hub : Nat) (lg : Bool) (l : List W64) (st : HubState) : State :=
  (s.setHregs hub (testres lg l)).setHubSt hub st

theorem State.testEnd_eq (s : State) (hub : Nat) (lg : Bool) (l : List W64) (st : HubState) :
    s.testEnd hub lg l st = { s with hubs := (s.testEnd hub lg l st).hubs } := by
  unfold State.testEnd
  generalize testres lg l = r
  rw [State.setHregs_eq]
  rfl

theorem State.testEnds_testEnd (s : State) (hub : Nat) (lg : Bool) (l : List W64) (st : HubState) :
    TestEnds s (s.testEnd hub lg l st) hub lg l st := by
  have hres {i : Nat} (hi : i < 32) := (State.hreg_setHubSt (s.setHregs hub (testres lg l)) hub st hub (0x200 + 8 * i)).trans
    (s.hreg_setHregs_run hub 0x200 32 _ hi)
  refine ⟨?_, fun i hi => (hres (by omega)).trans (if_pos hi), ?_, fun k hk => ?_, ?_⟩
  · exact congrArg Hub.st (State.hub_modHub_self _ hub fun u => { u with st := st })
  · rw [State.testEnd, hres (i := 13) (by decide)]
    exact bit_putBits _ (by decide) lg
  · exact (State.hub_modHub_of_ne _ (fun u => { u with st := st }) hk).trans (s.hub_setHregs_of_ne hub _ hk)
  · rw [State.testEnd_eq]

section HubTest

variable {s : State} {hub : Nat} (hst : (s.hub hub).st = .linked) (hhalt : s.halter = false) (lg : Bool) (l : List W64)
include hst hhalt

theorem exec_hubTestResult : exec (.hubTestResult hub lg l) s =
    if !hubGood lg l then .next (s.testEnd hub lg l .failed)
    else if (s.badPairs hub l).isEmpty then .next ((s.testEnd hub lg l .tested).reach_ 4)
    else if (s.badPairs hub l).any fun n => (s.hub n).st = .linked then .next s
    else .next (s.testEnd hub lg l .failed) :=
  if_neg (by simp [hst, hhalt])

theorem exec_hubTestResult_of_bad (h : hubGood lg l = false) :
    exec (.hubTestResult hub lg l) s = .next (s.testEnd hub lg l .failed) := by
  rw [exec_hubTestResult hst hhalt, if_pos (by simp [h])]

theorem exec_hubTestResult_of_good (h : hubGood lg l = true) (hpairs : s.badPairs hub l = []) :
    exec (.hubTestResult hub lg l) s = .next ((s.testEnd hub lg l .tested).reach_ 4) := by
  rw [exec_hubTestResult hst hhalt, if_neg (by simp [h]), if_pos (by simp [hpairs])]

theorem exec_hubTestResult_of_pairs (h : hubGood lg l = true) (hpairs : s.badPairs hub l ≠ []) :
    exec (.hubTestResult hub lg l) s =
      .next (if (s.badPairs hub l).any fun n => (s.hub n).st = .linked then s else s.testEnd hub lg l .failed) := by
  rw [exec_hubTestResult hst hhalt, if_neg (by simp [h]), if_neg (by simpa using hpairs)]
  split <;> rfl

end HubTest

/-! ### COMMIT and SERVE (R425, R426) -/

theorem exec_commit_of_hears {s : State} {hub : Nat} (h : s.bootHears hub = true) : exec (.commit hub) s = .next (s.commit hub) :=
  congrArg Host.Outcome.next (if_pos h)

theorem exec_commit_of_deaf {s : State} {hub : Nat} (h : s.bootHears hub = false) : exec (.commit hub) s = .next s :=
  congrArg Host.Outcome.next (if_neg (by simp [h]))

theorem exec_serve_of_hears {s : State} {hub : Nat} (h : s.bootHears hub = true) (hhalt : s.halter = false) :
    exec (.serve hub) s = .next (s.serve hub) :=
  congrArg Host.Outcome.next (if_pos (by simp [h, hhalt]))

theorem exec_serve_of_deaf {s : State} {hub : Nat} (h : s.bootHears hub = false) : exec (.serve hub) s = .next s :=
  congrArg Host.Outcome.next (if_neg (by simp [h]))

theorem State.becomes_setCfgerr (s : State) (hub n : Nat) : Becomes s (s.setCfgerr hub n) hub { s.hub hub with cfgerr := n } :=
  s.becomes_modHub hub _

theorem State.commit_of_err {s : State} {hub e : Nat} (h : s.manifestErr hub (s.manifestBytes hub) = some e) :
    s.commit hub = (s.setCfgerr hub e).reach_ 5 := by
  simp only [State.commit, h]

/-- The hubs of a list go to a state. -/
def State.setHubSts (s : State) (l : List Nat) (st : HubState) : State := l.foldl (fun s k => s.setHubSt k st) s

theorem State.setHubSts_eq (s : State) (l : List Nat) (st : HubState) :
    s.setHubSts l st = { s with hubs := (s.setHubSts l st).hubs } := by
  induction l generalizing s with
  | nil => rfl
  | cons k l ih => exact (ih (s.setHubSt k st)).trans rfl

theorem State.st_setHubSt (s : State) (h : Nat) (st : HubState) (k : Nat) :
    ((s.setHubSt h st).hub k).st = if k = h then st else (s.hub k).st := by
  unfold State.setHubSt
  split
  · next hk => rw [hk, State.hub_modHub_self]
  · next hk => rw [State.hub_modHub_of_ne _ _ hk]

theorem State.st_setHubSts (s : State) (l : List Nat) (st : HubState) (k : Nat) :
    ((s.setHubSts l st).hub k).st = if k ∈ l then st else (s.hub k).st := by
  induction l generalizing s with
  | nil => rfl
  | cons h l ih =>
    refine (ih (s.setHubSt h st)).trans ?_
    rw [State.st_setHubSt]
    by_cases hk : k = h <;> by_cases hl : k ∈ l <;> simp [hk, hl]

/-- The hubs whose tests are over and whose hash in the manifest of hub `h` is that of their registers. -/
def State.hashMatches (s : State) (h : Nat) : List Nat :=
  ((List.range 64).filter fun k => (s.hub k).st = .tested).filter fun k => part (s.manifestBytes h) (104 + 32 * k) 32 = s.configHash k

/-- A COMMIT that is accepted outside halter mode, by what becomes of its hubs. -/
theorem State.commit_of_ok {s : State} {hub : Nat} (h : s.manifestErr hub (s.manifestBytes hub) = none) (hhalt : s.halter = false) :
    let u := ({ s with manifest := Config.sha256 (part (s.manifestBytes hub) 0 2152) } : State).setHubSts (s.hashMatches hub) .configured
    s.commit hub = u.reach_ 6 ∨ s.commit hub = (u.setCfgerr hub 2).reach_ 5 := by
  intro u
  have hhalt' (m : List Byte) : ({ s with manifest := m } : State).halter = false := hhalt
  simp only [State.commit, h, hhalt', Bool.false_eq_true, if_false]
  split
  · exact .inl rfl
  · exact .inr rfl

/-- What an accepted COMMIT leaves. -/
theorem State.commit_result {s : State} {hub : Nat} (h : s.manifestErr hub (s.manifestBytes hub) = none) (hhalt : s.halter = false) :
    let t := s.commit hub
    t.manifest = Config.sha256 (part (s.manifestBytes hub) 0 2152) ∧ t.ctxs = s.ctxs ∧ t.mem = s.mem ∧
      ∀ k, k < 64 → (s.hub k).st = .tested →
        (t.hub k).st = if part (s.manifestBytes hub) (104 + 32 * k) 32 = s.configHash k then .configured else .tested := by
  let w : State := { s with manifest := Config.sha256 (part (s.manifestBytes hub) 0 2152) }
  let u := w.setHubSts (s.hashMatches hub) .configured
  have hu : u = { w with hubs := u.hubs } := w.setHubSts_eq _ _
  have hst (k : Nat) (hk : k < 64) (htested : (s.hub k).st = .tested) :
      (u.hub k).st = if part (s.manifestBytes hub) (104 + 32 * k) 32 = s.configHash k then .configured else .tested := by
    have hsame : (w.hub k).st = .tested := htested
    rw [State.st_setHubSts, hsame]
    refine if_congr ?_ rfl rfl
    simp [State.hashMatches, hk, htested]
  have hreach (v : State) (hv : v = { w with hubs := v.hubs }) (n : Nat) :
      (v.reach_ n).manifest = w.manifest ∧ (v.reach_ n).ctxs = s.ctxs ∧ (v.reach_ n).mem = s.mem ∧
        ∀ k, (v.reach_ n).hub k = v.hub k := by
    rw [v.reach_eq n, hv]
    exact ⟨rfl, rfl, rfl, fun k => rfl⟩
  rcases State.commit_of_ok h hhalt with hc | hc
  · obtain ⟨hmanifest, hctxs, hmem, hhub⟩ := hreach u hu 6
    rw [hc]
    exact ⟨hmanifest, hctxs, hmem, fun k hk htested => by rw [hhub, hst k hk htested]⟩
  · have hcfg : u.setCfgerr hub 2 = { w with hubs := (u.setCfgerr hub 2).hubs } := by
      rw [State.setCfgerr, hu]
      rfl
    have hsame (k : Nat) : ((u.setCfgerr hub 2).hub k).st = (u.hub k).st := by
      by_cases hk : k = hub
      · rw [hk, State.setCfgerr, State.hub_modHub_self]
      · rw [State.setCfgerr, State.hub_modHub_of_ne _ _ hk]
    obtain ⟨hmanifest, hctxs, hmem, hhub⟩ := hreach _ hcfg 5
    rw [hc]
    exact ⟨hmanifest, hctxs, hmem, fun k hk htested => by rw [hhub, hsame, hst k hk htested]⟩

theorem State.serve_of_other {s : State} {hub : Nat} (h : (s.hub hub).st ≠ .configured) :
    s.serve hub = (s.setCfgerr hub 5).reach_ 6 := if_pos h

/-- A hub that a SERVE finds CONFIGURED serves when it is named, and is off when it is not. -/
def servedHub (named : List Nat) (k : Nat) (u : Hub) : Hub :=
  if u.st = .configured then { u with st := if named.contains k then .serving else .off } else u

theorem State.serve_of_ok {s : State} {hub : Nat} (hst : (s.hub hub).st = .configured) (hnamed : s.namedBy hub ≠ [])
    (h : ∀ k ∈ hub :: s.namedBy hub, s.serveErr (s.namedBy hub) k = none) :
    s.serve hub = State.regrade { s with
      hubs := Table.mapVals (servedHub (s.namedBy hub)) s.hubs
      sites := (List.range (bits (s.hreg hub 0x1200) 0 7)).map fun i => (s.remapOf hub i).2
      bootstat := if s.starting then putBits s.bootstat 4 2 0 else s.bootstat
      starting := false } := by
  have hbad : (hub :: s.namedBy hub).eraseDups.filterMap (fun k => (s.serveErr (s.namedBy hub) k).map fun e => (k, e)) = [] := by
    refine List.filterMap_eq_nil_iff.mpr fun k hk => ?_
    rw [h k (List.mem_eraseDups.mp hk)]
    rfl
  refine (if_neg (not_not.mpr hst)).trans ?_
  simp only [hbad, List.filter_nil, ite_self, List.isEmpty_nil, Bool.not_true, Bool.false_eq_true, if_false]
  rw [if_neg (by simpa using hnamed)]
  rfl

theorem st_servedHub {named : List Nat} {k : Nat} {u : Hub} (h : u.st = .configured) :
    (servedHub named k u).st = if k ∈ named then .serving else .off := by
  simp [servedHub, h]

theorem State.serve_result {s : State} {hub : Nat} (hst : (s.hub hub).st = .configured) (hnamed : s.namedBy hub ≠ [])
    (h : ∀ k ∈ hub :: s.namedBy hub, s.serveErr (s.namedBy hub) k = none) :
    let t := s.serve hub
    t.starting = false ∧ Aside s t ∧ t.sites = ((List.range (bits (s.hreg hub 0x1200) 0 7)).map fun i => (s.remapOf hub i).2) ∧
      ∀ k, (s.hub k).st = .configured → (t.hub k).st = if k ∈ s.namedBy hub then .serving else .off := by
  rw [State.serve_of_ok hst hnamed h]
  refine ⟨rfl, ⟨rfl, rfl⟩, rfl, fun k hk => ?_⟩
  have hget := Table.get_mapVals (d := Hub.reset) (f := servedHub (s.namedBy hub)) (k := k) rfl s.hubs
  exact (congrArg Hub.st hget).trans (st_servedHub hk)

/-! ### Hub registers written (R6, R422, R425) -/

/-- A register of the configuration set stands on every hub, below HUBERR or among the tables above it. -/
def configLike (off : Nat) : Bool :=
  ((hubReg off).all fun e => !e.edge) &&
    (decide (off < 0x1800) || decide (0x1A00 ≤ off ∧ off < 0x1C80) || off == 0x3200 || off == 0x3208)

theorem all_configLike : configOffs.all configLike = true := by
  simp only [configOffs, List.all_append, Bool.and_eq_true]
  refine ⟨⟨⟨⟨⟨⟨⟨⟨?_, ?_⟩, ?_⟩, ?_⟩, ?_⟩, ?_⟩, ?_⟩, ?_⟩, ?_⟩ <;> decide

theorem edge_of_configOff {off : Nat} {e : HubReg} (h : off ∈ configOffs) (he : hubReg off = some e) : e.edge = false := by
  have hlike := (Bool.and_eq_true_iff.mp (List.all_eq_true.mp all_configLike off h)).1
  simpa [he] using hlike

theorem not_configOff {off : Nat} (h : configLike off = false) : off ∉ configOffs := fun hoff =>
  absurd (List.all_eq_true.mp all_configLike off hoff) (by simp [h])

/-- A write of a configuration register goes by the state of its hub. -/
theorem exec_configSetWrite_of_mem {s : State} {hub off : Nat} {e : HubReg} (hoff : off ∈ configOffs) (he : hubReg off = some e)
    (v : W64) : exec (.configSetWrite hub off v) s = .next (s.configWrite hub off v e.rw) := by
  have hcontains : configOffs.contains off = true := List.contains_iff_mem.mpr hoff
  refine congrArg Host.Outcome.next ((if_pos hcontains).trans ?_)
  simp only [State.regWrite, he, edge_of_configOff hoff he, Bool.false_and, Bool.false_eq_true, if_false]
  exact if_pos hcontains

theorem exec_configSetWrite_of_not_mem {s : State} {hub off : Nat} (hoff : off ∉ configOffs) (v : W64) :
    exec (.configSetWrite hub off v) s = .next s :=
  congrArg Host.Outcome.next (if_neg (mt List.contains_iff_mem.mp hoff))

theorem State.regWrite_of_none {s : State} {hub off : Nat} (h : hubReg off = none) (v : W64) : s.regWrite hub off v = s := by
  simp only [State.regWrite, h]

theorem State.configWrite_of_tested {s : State} {hub : Nat} (h : (s.hub hub).st = .tested) (off : Nat) (v rw : W64) :
    s.configWrite hub off v rw = s.setHreg hub off (maskWrite (s.hreg hub off) v rw) := by
  simp only [State.configWrite, h]

theorem State.configWrite_of_configured {s : State} {hub : Nat} (h : (s.hub hub).st = .configured) (off : Nat) (v rw : W64) :
    s.configWrite hub off v rw = (s.setHubSt hub .tested).setHreg hub off (maskWrite (s.hreg hub off) v rw) := by
  simp only [State.configWrite, h]

theorem State.configWrite_of_other {s : State} {hub : Nat} (h : (s.hub hub).st ≠ .tested ∧ (s.hub hub).st ≠ .configured)
    (off : Nat) (v rw : W64) : s.configWrite hub off v rw = s := by
  obtain ⟨ht, hc⟩ := h
  unfold State.configWrite
  split
  · next hst => exact absurd hst ht
  · next hst => exact absurd hst hc
  · rfl

theorem exec_configSetWrite_of_other {s : State} {hub : Nat} (h : (s.hub hub).st ≠ .tested ∧ (s.hub hub).st ≠ .configured)
    (off : Nat) (v : W64) : exec (.configSetWrite hub off v) s = .next s := by
  by_cases hoff : off ∈ configOffs
  · cases he : hubReg off with
    | none => exact congrArg Host.Outcome.next ((if_pos (List.contains_iff_mem.mpr hoff)).trans (State.regWrite_of_none he v))
    | some e => rw [exec_configSetWrite_of_mem hoff he, State.configWrite_of_other h]
  · exact exec_configSetWrite_of_not_mem hoff v

/-- The offsets whose write has a meaning of its own, beside the configuration set (R6). -/
def ownWrite (off : Nat) : Bool :=
  off == 0x118 || off == 0x1800 || off == 0x2020 || decide (0x1D00 ≤ off ∧ off < 0x1D40) || decide (0x3000 ≤ off ∧ off < 0x3100) ||
    off == 0x3600 || off == 0x3608 || off == 0x3618 || decide (0x4000 ≤ off ∧ off < 0x4200) || off == 0x5008 || off == 0x2028 ||
    off == 0x6030

/-- A write of any other register of every hub goes under its mask. -/
theorem State.regWrite_of_plain {s : State} {off : Nat} {m : W64} (he : hubReg off = some ⟨m, false⟩)
    (hconfig : configLike off = false) (hown : ownWrite off = false) (hub : Nat) (v : W64) :
    s.regWrite hub off v = s.setHreg hub off (maskWrite (s.hreg hub off) v m) := by
  simp only [ownWrite, Bool.or_eq_false_iff, beq_eq_false_iff_ne, decide_eq_false_iff_not] at hown
  simp [State.regWrite, he, not_configOff hconfig, hown]

/-- The registers of every hub that a plain write reaches, with the masks of their fields. -/
theorem plainRegs : ∀ x ∈ ([(0x2000, 0xFF), (0x3628, 0xFFFFFFFFFFFFF), (0x3630, 0xFFFFFFFFFF), (0x3640, 0xFFFFFFFFFFFFFFFF),
    (0x5010, 0xFFFFFF), (0x5020, 0x7FFFFFF), (0x5028, 0x7F), (0x5030, 0x1FFFF)] : List (Nat × W64)),
    hubReg x.1 = some ⟨x.2, false⟩ ∧ configLike x.1 = false ∧ ownWrite x.1 = false := by decide

theorem State.regWrite_huberr (s : State) (hub : Nat) (v : W64) :
    s.regWrite hub 0x1800 v = s.setHreg hub 0x1800 (s.hreg hub 0x1800 &&& ~~~(v &&& 1)) := by
  have he : hubReg 0x1800 = some ⟨0, false⟩ := by decide
  have hcontains : configOffs.contains 0x1800 = false := by simpa using not_configOff (off := 0x1800) (by decide)
  simp only [State.regWrite, he, hcontains]
  rfl

theorem State.regWrite_poisonaddr (s : State) (hub : Nat) (v : W64) :
    s.regWrite hub 0x2020 v = s.setHreg hub 0x2020 (s.hreg hub 0x2020 &&& ~~~(v &&& 1)) := by
  have he : hubReg 0x2020 = some ⟨0, false⟩ := by decide
  have hcontains : configOffs.contains 0x2020 = false := by simpa using not_configOff (off := 0x2020) (by decide)
  simp only [State.regWrite, he, hcontains]
  rfl

theorem State.regWrite_retainto (s : State) (hub : Nat) (v : W64) :
    s.regWrite hub 0x2028 v = if bits v 0 16 = 0
      then (s.setHreg hub 0x2028 (maskWrite (s.hreg hub 0x2028) v 0xFFFF)).retainOver (s.siteOf hub)
      else s.setHreg hub 0x2028 (maskWrite (s.hreg hub 0x2028) v 0xFFFF) := by
  have he : hubReg 0x2028 = some ⟨0xFFFF, false⟩ := by decide
  have hcontains : configOffs.contains 0x2028 = false := by simpa using not_configOff (off := 0x2028) (by decide)
  simp only [State.regWrite, he, hcontains]
  rfl

/-! ### RETAINTO set to 0 (R96) -/

/-- A retained region becomes free. -/
def retainFreed (e : Region) : Region :=
  match e.state with
  | .retained _ => e.freed
  | _ => e

theorem State.region_mapRegions (s : State) (site cl : Nat) {f : Nat → Region → Region} {core : Nat} (hcore : core < 256)
    (hf : f core Region.reset = Region.reset) (k : Nat) :
    ((s.mapRegions site cl f).core site core).region k =
      if core / 64 = cl then f core ((s.core site core).region k) else (s.core site core).region k := by
  have hsite : (site * 256 + core) / 256 = site := by omega
  have hmod : (site * 256 + core) % 256 = core := by omega
  unfold State.core State.mapRegions
  rw [Table.get_mapVals (by split <;> rfl), hsite, hmod]
  by_cases hcl : core / 64 = cl
  · rw [if_pos ⟨rfl, hcl⟩, if_pos hcl]
    exact Table.get_mapVals (f := fun _ e => f core e) hf _
  · rw [if_neg fun h => hcl h.2, if_neg hcl]

/-- Every region of a die's core is freed when it was retained, each by the cluster of its core. -/
theorem State.region_retainOver (s : State) (site : Nat) {core : Nat} (hcore : core < 256) (k : Nat) :
    ((s.retainOver site).core site core).region k = retainFreed ((s.core site core).region k) := by
  have hover : s.retainOver site = (((s.mapRegions site 0 fun _ => retainFreed).mapRegions site 1 fun _ => retainFreed).mapRegions site 2
      fun _ => retainFreed).mapRegions site 3 fun _ => retainFreed := rfl
  have hcl : core / 64 < 4 := by omega
  rw [hover]
  simp only [State.region_mapRegions _ site _ hcore (f := fun _ => retainFreed) rfl]
  generalize core / 64 = cl at hcl
  interval_cases cl <;> rfl

theorem retainFreed_of_retained {e : Region} {n : Nat} (h : e.state = .retained n) : retainFreed e = e.freed := by
  simp only [retainFreed, h]

/-! ### Quotes (R436) -/

theorem State.length_regBytes (s : State) (h off n : Nat) : (s.regBytes h off n).length = 8 * n := by
  simp [State.regBytes, length_toBytes, mul_comm]

theorem length_part_pad (l : List Byte) (n : Nat) : (part (l ++ List.replicate n 0) 0 n).length = n := by
  simp [part]

theorem State.length_quoteBody (s : State) (h : Nat) : (s.quoteBody h).length = 232 := by
  simp only [State.quoteBody, List.length_append, length_toBytes, length_part_pad, State.length_regBytes, List.length_map,
    List.length_range]

theorem part_append_of_le (l r : List Byte) {off n : Nat} (h : off + n ≤ l.length) : part (l ++ r) off n = part l off n := by
  rw [part, part, List.drop_append_of_le_length (by omega), List.take_append_of_le_length (by rw [List.length_drop]; omega)]

/-- The doublewords that a quote leaves in its buffer: what it signs, and the signature. -/
def State.quoteWords (s : State) (h : Nat) : List (Nat × W64) :=
  (List.range 2165).map fun i => (0x10000 + 8 * i, BitVec.ofNat 64 (ofBytes
    (part (s.quoteBody h ++ part (Config.sign128f (s.quoteBody h) ++ List.replicate 17088 0) 0 17088) (8 * i) 8)))

theorem exec_quote_of_idle {s : State} {hub : Nat} (hedge : edgeHub hub = true) (hbusy : bit (s.hreg hub 0x6030) 2 = false) :
    exec (.quote hub) s = .next ((s.setHregs hub (s.quoteWords hub)).setHreg hub 0x6030 4) := by
  refine congrArg Host.Outcome.next ((if_neg (by simp [hedge, hbusy])).trans ?_)
  rw [State.setHregs, State.quoteWords, List.foldl_map]

theorem exec_quote_of_busy {s : State} {hub : Nat} (hbusy : bit (s.hreg hub 0x6030) 2 = true) : exec (.quote hub) s = .next s :=
  congrArg Host.Outcome.next (if_pos (.inr hbusy))

theorem exec_quoteDone_of_busy {s : State} {hub : Nat} (hedge : edgeHub hub = true) (hbusy : bit (s.hreg hub 0x6030) 2 = true) :
    exec (.quoteDone hub) s = .next (s.setHreg hub 0x6030 2) :=
  congrArg Host.Outcome.next (if_pos (by simp [hedge, hbusy]))

/-- The first 29 doublewords of the buffer are what the quote signs. -/
theorem State.hreg_quoteWords (s : State) (hub : Nat) {i : Nat} (hi : i < 29) :
    ((s.setHregs hub (s.quoteWords hub)).setHreg hub 0x6030 4).hreg hub (0x10000 + 8 * i) =
      BitVec.ofNat 64 (ofBytes (part (s.quoteBody hub) (8 * i) 8)) := by
  rw [State.hreg_setHreg_of_ne _ _ _ _ _ (by omega), State.quoteWords, State.hreg_setHregs_run _ _ _ _ _ (by omega),
    part_append_of_le _ _ (by rw [State.length_quoteBody]; omega)]

/-! ### Host ports (R428) -/

theorem exec_hostPortTrain_down {s : State} {port : Nat} (h : port < 16) :
    exec (.hostPortTrain port false) s = .next { s with ports := s.ports &&& ~~~(1#16 <<< port) } := by
  refine (if_neg (by omega)).trans ?_
  rfl

theorem exec_hostPortTrain_up {s : State} {port : Nat} (h : port < 16) :
    exec (.hostPortTrain port true) s =
      if (s.hub (cxlHub port)).st = .failed ∨ !s.mainPower then .next s else .next { s with ports := s.ports ||| (1#16 <<< port) } := by
  refine (if_neg (by omega)).trans ?_
  rfl

/-- Settles O50: the wave, the tests, COMMIT and SERVE change hubs alone, a start begins from the reset state, and registers are
written under their masks. -/
theorem bringUpEvents : Obligations.BringUpEvents := by
  intro s hub off port v u live begun becomes turns m hash named masked locks tests site
  refine ⟨fun hp => if_pos hp, fun hp hh hs => ?powerOn, fun hp hh => ?powerHalter, fun he hl hs => ?start, fun h => ?startNone,
    fun hl hst hlt he => ?lockEdge, fun n hn t0 hl hst hlt he ho hoff => ?lockOffer, fun n hl hst hlt he ho hn => ?lockFirst,
    exec_clockLock_of_idle, fun h => ⟨?train, ?timeout⟩, fun h => ⟨exec_linkTrain_of_not_clocked h, ?noTimeout⟩,
    fun lg l hst hh hg => ?testBad, fun lg l hst hh hg hp => ?testGood, fun lg l hst hh hg hp hk => ?testPair,
    fun lg l hst hh hg hk => ?testWait, fun hst hh => ?testTimeout, fun e hb he => ?commitErr, fun hb hm hh => ?commitOk,
    fun hb => ⟨exec_commit_of_deaf hb, exec_serve_of_deaf hb⟩, fun hb hh hst hn hk => ?serveOk, fun hb hh hst => ?serveOther,
    fun e ho he hst => ?configTested, fun e ho he hst => ?configConfigured, fun h => ?configNone, fun x hx ho => ?plain,
    fun ho hv => ?retainSet, fun ho hv => ?retainZero, fun h => ?noReg, ?huberr, ?poisonaddr, fun hs hb => ?failFirst,
    fun hs hb => ?failThird, fun hs => ?failNone, runs_of_exec rfl rfl, fun h => ?standby, fun h => if_pos h, ?loss,
    fun h => runs_of_exec (exec_hostPortTrain_down h) rfl, fun h hf hp => ?portUp, fun h => ?portNone, fun he hb => ?quote,
    fun he hb => ⟨exec_quote_of_busy hb, ?quoteDone⟩⟩
  case powerOn =>
    obtain ⟨hpower, hbegun⟩ := State.begun_beginStart (s := { s with mainPower := true }) hh hs
    exact runs_of_exec (exec_powerOn_of_off hp hh) ⟨hpower, hbegun⟩
  case powerHalter =>
    refine runs_of_exec (exec_powerOn_of_halter hp hh) ⟨rfl, fun k hk => ?_⟩
    refine (congrArg Hub.st (Table.get_map_range Hub.reset
      (fun h => if edgeHub h then { bootHub s.tick h with st := .linked, linked := true } else Hub.reset) hk)).trans ?_
    split <;> rfl
  case start =>
    obtain ⟨hpower, hbegun⟩ := State.begun_beginStart hl.2 hs
    refine runs_of_exec ((exec_bootcmdStart hub s).trans (congrArg _ ((if_pos he).trans (State.cmdStart_of_live hl)))) ?_
    exact ⟨hpower.trans hl.1, hbegun⟩
  case startNone =>
    refine (exec_bootcmdStart hub s).trans (congrArg _ ?_)
    rw [State.cmdStart]
    rcases h with h | h | h <;> simp [h]
  case lockEdge => exact runs_of_exec (exec_clockLock_of_edge hl hst hlt he) ((s.locks_lock hlt 0).reach 2)
  case lockOffer =>
    exact runs_of_exec (exec_clockLock_of_clock hl hst hlt he (State.clockFrom_of_offer hn ho hoff)) (s.locks_lock hlt n.1)
  case lockFirst =>
    exact runs_of_exec (exec_clockLock_of_clock hl hst hlt he (State.clockFrom_of_no_offer ho hn)) (s.locks_lock hlt n.1)
  case train =>
    exact runs_of_exec (exec_linkTrain_of_clocked h) ((s.becomes_modHub hub fun u => { u with st := .linked, linked := true }).reach 3)
  case timeout =>
    exact runs_of_exec ((exec_clockedTimeout hub s).trans (congrArg _ (if_pos h))) (s.becomes_modHub hub fun u => { u with st := .failed })
  case noTimeout => exact (exec_clockedTimeout hub s).trans (congrArg _ (if_neg h))
  case testBad => exact runs_of_exec (exec_hubTestResult_of_bad hst hh lg l hg) (s.testEnds_testEnd hub lg l .failed)
  case testGood => exact runs_of_exec (exec_hubTestResult_of_good hst hh lg l hg hp) ((s.testEnds_testEnd hub lg l .tested).reach 4)
  case testPair =>
    refine runs_of_exec ((exec_hubTestResult_of_pairs hst hh lg l hg hp).trans (congrArg _ (if_neg ?_)))
      (s.testEnds_testEnd hub lg l .failed)
    simpa using hk
  case testWait =>
    obtain ⟨k, hk, hlinked⟩ := hk
    refine (exec_hubTestResult_of_pairs hst hh lg l hg (List.ne_nil_of_mem hk)).trans (congrArg _ (if_pos ?_))
    exact List.any_eq_true.mpr ⟨k, hk, decide_eq_true hlinked⟩
  case testTimeout =>
    exact runs_of_exec (exec_hubTestTimeout_of_linked hst hh) (s.becomes_modHub hub fun u => { u with st := .failed })
  case commitErr =>
    exact runs_of_exec ((exec_commit_of_hears hb).trans (congrArg _ (State.commit_of_err he))) ((s.becomes_setCfgerr hub e).reach 5)
  case commitOk => exact runs_of_exec (exec_commit_of_hears hb) (State.commit_result hm hh)
  case serveOk => exact runs_of_exec (exec_serve_of_hears hb hh) (State.serve_result hst hn hk)
  case serveOther =>
    exact runs_of_exec ((exec_serve_of_hears hb hh).trans (congrArg _ (State.serve_of_other hst))) ((s.becomes_setCfgerr hub 5).reach 6)
  case configTested =>
    exact runs_of_exec ((exec_configSetWrite_of_mem ho he v).trans (congrArg _ (State.configWrite_of_tested hst off v e.rw)))
      (s.onlyReg_setHreg hub off _)
  case configConfigured =>
    refine runs_of_exec ((exec_configSetWrite_of_mem ho he v).trans (congrArg _ (State.configWrite_of_configured hst off v e.rw)))
      ⟨?_, State.hreg_setHreg_self .., rfl⟩
    rw [State.setHreg, State.hub_modHub_self]
    exact (s.st_setHubSt hub .tested hub).trans (if_pos rfl)
  case configNone =>
    rcases h with h | h
    · exact exec_configSetWrite_of_not_mem h v
    · exact exec_configSetWrite_of_other h off v
  case plain =>
    subst ho
    obtain ⟨hreg, hconfig, hown⟩ := plainRegs x hx
    exact runs_of_exec (congrArg Host.Outcome.next (State.regWrite_of_plain hreg hconfig hown hub v)) (s.onlyReg_setHreg hub x.1 _)
  case retainSet =>
    subst ho
    exact runs_of_exec (congrArg Host.Outcome.next ((s.regWrite_retainto hub v).trans (if_neg hv))) (s.onlyReg_setHreg hub 0x2028 _)
  case retainZero =>
    subst ho
    refine runs_of_exec (congrArg Host.Outcome.next ((s.regWrite_retainto hub v).trans (if_pos hv)))
      ⟨State.hreg_setHreg_self .., rfl, fun core k n hcore hst => ?_⟩
    rw [State.region_retainOver _ _ hcore]
    exact retainFreed_of_retained hst
  case noReg => exact congrArg Host.Outcome.next (State.regWrite_of_none h v)
  case huberr => exact runs_of_exec (congrArg Host.Outcome.next (s.regWrite_huberr hub 1)) (s.onlyReg_setHreg hub 0x1800 _)
  case poisonaddr => exact runs_of_exec (congrArg Host.Outcome.next (s.regWrite_poisonaddr hub 1)) (s.onlyReg_setHreg hub 0x2020 _)
  case failFirst => exact runs_of_exec (congrArg Host.Outcome.next ((if_pos hs).trans (State.failStart_of_first hb s.stage))) rfl
  case failThird => exact runs_of_exec (congrArg Host.Outcome.next (if_pos hs)) (State.failStart_of_third hb s.stage)
  case failNone => exact congrArg Host.Outcome.next (if_neg (by simp [hs]))
  case standby => exact runs_of_exec (if_neg (by simp [h])) rfl
  case loss =>
    have hkeeps : (if s.starting then s.failStart s.stage else s).mem = s.mem ∧
        (if s.starting then s.failStart s.stage else s).standby = s.standby := by
      split
      · exact s.failStart_keeps s.stage
      · exact ⟨rfl, rfl⟩
    refine runs_of_exec (exec_mainPowerLoss s) ⟨rfl, rfl, hkeeps.2, rfl, fun k => ?_⟩
    rw [← hkeeps.1]
    exact State.get_keptMem _ k
  case portUp =>
    exact runs_of_exec ((exec_hostPortTrain_up h).trans (if_neg (by simp [hf, hp]))) rfl
  case portNone =>
    rcases Nat.lt_or_ge port 16 with hlt | hge
    · exact (exec_hostPortTrain_up hlt).trans (if_pos (.inl (h.resolve_left (by omega))))
    · exact if_pos hge
  case quote =>
    exact runs_of_exec (exec_quote_of_idle he hb)
      ⟨State.hreg_setHreg_self .., s.setHreg_setHregs_eq hub _ 0x6030 4, fun i hi => s.hreg_quoteWords hub hi⟩
  case quoteDone => exact runs_of_exec (exec_quoteDone_of_busy he hb) (s.onlyReg_setHreg hub 0x6030 2)

end Sys2Proof.Machine

/-! # Global stores (O25)

A plain store asks for its address in a state that has forgotten a failed walk; that changes nothing where a TLB translates the address,
and nothing where no walk has failed. -/

namespace Sys2Proof.Machine

/-! ### Addresses checked without a failed walk (R41) -/

/-- The state in which the context in issue has forgotten a walk that failed. -/
def State.forgetWalk (s : State) : State := s.modC fun c => { c with walkFault := none }

/-- A failed walk matters only to an address that no TLB translates. -/
theorem State.check_forgetWalk {s : State} {a : Access} {va : W64}
    (h : s.c.walkFault = none ∨ s.tlbFind s.cur.site s.cur.core s.c.asid va.toNat ≠ none) :
    s.forgetWalk.check s.cur a va = s.check s.cur a va := by
  have hc : s.forgetWalk.ctx s.cur = { s.ctx s.cur with walkFault := none } := s.c_modC _
  have htlb (asid : BitVec 16) : s.forgetWalk.tlbFind s.cur.site s.cur.core asid va.toNat =
    s.tlbFind s.cur.site s.cur.core asid va.toNat := rfl
  simp only [State.check, State.localCheck, hc, htlb]
  rcases h with h | h
  · rw [State.c] at h
    simp only [h]
    rfl
  · obtain ⟨e, he⟩ := Option.ne_none_iff_exists'.mp h
    rw [State.c] at he
    simp only [he]
    rfl

theorem State.aperture_ne_mem (s : State) (r : CtxRef) (va : W64) (pa : Nat) (leaf : W64) (size : Nat) :
    s.aperture r va ≠ some (.mem pa leaf size) := by
  fun_cases State.aperture <;> simp

/-- An address that names memory is one that a TLB translates. -/
theorem State.tlbFind_of_check {s : State} {r : CtxRef} {a : Access} {va : W64} {pa : Nat} {leaf : W64} {size : Nat}
    (h : s.check r a va = .ok (.mem pa leaf size)) : s.tlbFind r.site r.core (s.ctx r).asid va.toNat ≠ none := by
  intro hnone
  rw [State.check] at h
  simp only [hnone] at h
  by_cases hhigh : bit va 55 = true
  · have hap := s.aperture_ne_mem r va pa leaf size
    simp only [hhigh, if_true] at h
    grind
  · grind

/-! ### Stores that leave as requests (R276, R281) -/

theorem State.storeMem_of_home {s : State} {r : CtxRef} {asid : BitVec 16} {va : W64} {pa : Nat} {leaf : W64} {bs : List (Nat × Byte)}
    (h : s.homeOf pa leaf = r.site) : s.storeMem r asid va pa leaf bs =
      ((s.l1Write r.site r.core (s.lineOf pa) bs).sendAs r asid va pa leaf (.store bs 0) .sent [], true) := if_pos h

/-- A plain store whose address passes its checks, to a line at home on this die: the core's own L1 copy takes its bytes, and they
leave as a request. -/
theorem GlobalOk.plainStore_of_home {s : State} {va : W64} {data : List Byte} {pa : Nat} {leaf : W64}
    (h : GlobalOk s (Access.plain data.length true) va pa leaf) (hhome : s.homeOf pa leaf = s.cur.site) (hocs : s.c.ocs ≠ 255) :
    s.plainStore va data = ((s.l1Write s.cur.site s.cur.core (s.lineOf pa) (runAt (pa % 128) data)).sendAs s.cur s.c.asid va pa leaf
      (.store (runAt (pa % 128) data) 0) .sent []).ocsUp s.cur := by
  obtain ⟨⟨size, hcheck⟩, hcache, hreg, hparked, hwalking, hwarm, hinj⟩ := h
  have hplain := (State.check_forgetWalk (.inr (State.tlbFind_of_check hcheck))).trans hcheck
  rw [State.forgetWalk] at hplain
  have hhold : (s.c.ocs == 255 || (decide (leafMT leaf = 2) && s.deviceBusy s.cur) || s.injFull s.cur (s.homeOf pa leaf)) = false := by
    simp [hocs, leafMT_of_cacheable hcache, hinj]
  simp only [State.plainStore, hplain, hhold, State.atTarget, hreg, debugBad_of_cacheable hcache, hparked, hwalking, hwarm.tlbTouch,
    State.storeMem_of_home hhome]
  rfl

/-! ### Stores that a leaf refuses (R128, R129, R283) -/

/-- A context that does not wait is not roused. -/
theorem State.rouse_of_not_waiting {s : State} {r : CtxRef} (h : (s.ctx r).st ≠ .waiting) : s.rouse r = s := if_pos (.inl h)

/-- A plain store that a leaf refuses parks with the leaf's cause. -/
theorem State.plainStore_of_refused {s : State} {va : W64} {data : List Byte} {code : Nat}
    (hcheck : s.check s.cur (Access.plain data.length true) va = .refused code) (hwalk : s.c.walkFault = none) (hocs : s.c.ocs ≠ 255)
    (hparked : s.pageParked s.cur va = false) (hwalking : s.pageWalking s.cur va = false) :
    s.plainStore va data = s.parkHere (s.storeEntry va data) (some code) := by
  have hplain := (State.check_forgetWalk (.inl hwalk)).trans hcheck
  rw [State.forgetWalk] at hplain
  simp [State.plainStore, hplain, hocs, hparked, hwalking]

/-- A store parked with a cause is a FAULTED entry, counted in ocs, and its cause is pending. -/
theorem State.parkHere_of_refused {s : State} {e : ReplayEntry} {code : Nat} (hroom : s.rqRoom s.cur = true) (hst : s.c.st ≠ .waiting) :
    let t := s.parkHere e (some code)
    (t.core s.cur.site s.cur.core).rq = (s.core s.cur.site s.cur.core).rq ++ [{ e with faulted := true }] ∧
      t.c = { s.c with ocs := s.c.ocs + 1, pendStore := s.c.pendStore ++ [(code, e.va)] } ∧ t.issue = s.issue ∧
      ∀ x, t.byte x = s.byte x := by
  let u := (s.modCore s.cur.site s.cur.core fun k => { k with rq := k.rq ++ [{ e with faulted := true }] }).modCtx s.cur
    fun x => { x with pendStore := x.pendStore ++ [(code, e.va)] }
  have hu : u.ctx s.cur = { s.c with pendStore := s.c.pendStore ++ [(code, e.va)] } := State.ctx_modCtx_self _ _ _
  have hstay : u.rouse s.cur = u := State.rouse_of_not_waiting (by rw [hu]; exact hst)
  have hpark : s.parkHere e (some code) = u.takeId.ocsUp s.cur := (if_pos hroom).trans (congrArg (fun v => v.takeId.ocsUp s.cur) hstay)
  rw [hpark]
  have hrq := congrArg Core.rq (s.core_modCore_self s.cur.site s.cur.core fun k => { k with rq := k.rq ++ [{ e with faulted := true }] })
  refine ⟨hrq, ?_, rfl, State.byte_congr rfl rfl rfl⟩
  exact (State.ctx_modCtx_self _ _ _).trans (congrArg (fun c => { c with ocs := c.ocs + 1 }) hu)

/-- Settles O25: a store that passes its checks goes home as a request, one that its leaf refuses becomes a FAULTED replay entry; neither
writes memory. -/
theorem globalStoreResults : Obligations.GlobalStoreResults := by
  constructor
  · intro s x a z o pa leaf n h hhome hocs
    have hstore := GlobalOk.plainStore_of_home (data := toBytes n (s.g x).toNat) (by rwa [length_toBytes]) hhome hocs
    refine runs_of_exec ((exec_st x a z o s).trans (congrArg _ hstore)) ?_
    exact ⟨⟨_, rfl, rfl, rfl, rfl, rfl, rfl⟩, State.ctx_modCtx_self _ _ _, rfl, State.byte_congr rfl rfl rfl⟩
  · intro s x a z o code n va hcheck hwalk hst hocs hroom hparked hwalking
    let data := toBytes n (s.g x).toNat
    have hstore := State.plainStore_of_refused (data := data) (by rwa [length_toBytes]) hwalk hocs hparked hwalking
    refine runs_of_exec ((exec_st x a z o s).trans (congrArg _ hstore)) ?_
    obtain ⟨hrq, hc, hissue, hbyte⟩ := State.parkHere_of_refused (e := s.storeEntry va data) (code := code) hroom hst
    exact ⟨⟨_, hrq, rfl, rfl, rfl, rfl⟩, hc, hissue, hbyte⟩

end Sys2Proof.Machine

/-! # Traffic between caches and homes

Lines that leave a die's cache, writes at a home and lines made ready there touch no context and no TLB, and the only requests that
they make are write-backs. Each operation of this kind has one lemma that says so. -/

namespace Sys2Proof.Table

/-- What a change of the values leaves alone of each is as before at every key. -/
theorem map_get_mapVals {α β : Type} (p : α → β) {f : Nat → α → α} (hf : ∀ n x, p (f n x) = p x) (d : α) (t : Table α)
    (k : Nat) :
    p (get d (mapVals f t) k) = p (get d t k) := by
  induction t with
  | nil => rfl
  | cons e t ih =>
    rw [mapVals, List.map_cons, get, get]
    split
    · exact hf _ _
    · exact ih

end Sys2Proof.Table

namespace Sys2Proof.Machine

theorem State.core_modCore (s : State) (site core a b : Nat) (f : Core → Core) :
    (s.modCore site core f).core a b = if a * 256 + b = site * 256 + core then f (s.core a b) else s.core a b := by
  split
  · next h => simp only [State.core, State.modCore, h, Table.get_put_self]
  · next h => exact Table.get_put_of_ne _ _ _ h

/-- The contexts, the bundle in issue and the TLBs are as before, and no request is in flight but write-backs where none was. -/
structure Traffic (s t : State) : Prop where
  ctxs : t.ctxs = s.ctxs
  cur : t.cur = s.cur
  issue : t.issue = s.issue
  coreTlb : ∀ site core, (t.core site core).tlb = (s.core site core).tlb
  dieTlb : ∀ site, (t.die site).tlb = (s.die site).tlb
  backs : (∀ q ∈ s.reqs, q.kind.back = true) → ∀ q ∈ t.reqs, q.kind.back = true

namespace Traffic

variable {s t u : State}

/-! ### Changes that are traffic -/

theorem refl (s : State) : Traffic s s := ⟨rfl, rfl, rfl, fun _ _ => rfl, fun _ => rfl, id⟩

theorem trans (h : Traffic s t) (h' : Traffic t u) : Traffic s u :=
  ⟨h'.ctxs.trans h.ctxs, h'.cur.trans h.cur, h'.issue.trans h.issue, fun i k => (h'.coreTlb i k).trans (h.coreTlb i k),
    fun i => (h'.dieTlb i).trans (h.dieTlb i), fun hs => h'.backs (h.backs hs)⟩

theorem c (h : Traffic s t) : t.c = s.c := by rw [State.c, State.c, State.ctx, State.ctx, h.ctxs, h.cur]

theorem g (h : Traffic s t) (b : BitVec 5) : t.g b = s.g b := by rw [State.g, State.g, h.c]

theorem ite {p : Prop} [Decidable p] (h : Traffic s t) (h' : Traffic s u) : Traffic s (if p then t else u) := by
  split
  · exact h
  · exact h'

/-- The state of an operation that answers something beside it. -/
theorem of_fst {α : Type} {p : State × α} {a : α} (hp : p = (t, a)) (h : Traffic s p.1) : Traffic s t := by
  rw [hp] at h
  exact h

theorem foldl {α : Type} {f : State → α → State} (hf : ∀ s x, Traffic s (f s x)) (l : List α) (s : State) :
    Traffic s (l.foldl f s) := by
  induction l generalizing s with
  | nil => exact refl s
  | cons x l ih => exact (hf s x).trans (ih _)

/-- A change of memory, of L2, of a hub, of what goes out. -/
theorem of_eq (hctxs : t.ctxs = s.ctxs) (hcur : t.cur = s.cur) (hissue : t.issue = s.issue) (hcores : t.cores = s.cores)
    (hdies : t.dies = s.dies) (hreqs : t.reqs = s.reqs) : Traffic s t :=
  ⟨hctxs, hcur, hissue, fun _ _ => by rw [State.core, State.core, hcores], fun _ => by rw [State.die, State.die, hdies],
    fun h => hreqs ▸ h⟩

theorem modCore (s : State) (site core : Nat) {f : Core → Core} (hf : ∀ k, (f k).tlb = k.tlb) : Traffic s (s.modCore site core f) := by
  refine ⟨rfl, rfl, rfl, fun i k => ?_, fun _ => rfl, id⟩
  rw [State.core_modCore]
  split
  · exact hf _
  · rfl

theorem mapCores (s : State) {f : Nat → Core → Core} (hf : ∀ n k, (f n k).tlb = k.tlb) :
    Traffic s { s with cores := Table.mapVals f s.cores } :=
  ⟨rfl, rfl, rfl, fun _ _ => Table.map_get_mapVals Core.tlb hf _ _ _, fun _ => rfl, id⟩

theorem modDie (s : State) (site : Nat) {f : Die → Die} (hf : ∀ d, (f d).tlb = d.tlb) : Traffic s (s.modDie site f) := by
  refine ⟨rfl, rfl, rfl, fun _ _ => rfl, fun i => ?_, id⟩
  by_cases h : i = site
  · rw [h, State.die_modDie_self, hf]
  · rw [State.die_modDie_of_ne _ f h]

theorem mapReqs (s : State) {f : Req → Req} (hf : ∀ q, q.kind.back = true → (f q).kind.back = true) :
    Traffic s { s with reqs := s.reqs.map f } :=
  ⟨rfl, rfl, rfl, fun _ _ => rfl, fun _ => rfl, fun h => List.forall_mem_map.mpr fun q hq => hf q (h q hq)⟩

/-! ### Copies that go, fills that come too late (R79, R105) -/

theorem setByte (s : State) (pa : Nat) (b : Byte) : Traffic s (s.setByte pa b) := of_eq rfl rfl rfl rfl rfl rfl

theorem emit (s : State) (o : Out) : Traffic s (s.emit o) := of_eq rfl rfl rfl rfl rfl rfl

theorem modHub (s : State) (h : Nat) (f : Hub → Hub) : Traffic s (s.modHub h f) := of_eq rfl rfl rfl rfl rfl rfl

theorem next (s : State) : Traffic s s.next := of_eq rfl rfl rfl rfl rfl rfl

theorem setL2 (s : State) (l : List L2Line) : Traffic s { s with l2 := l } := of_eq rfl rfl rfl rfl rfl rfl

theorem l1Drop (s : State) (site line : Nat) (but : Option Nat) : Traffic s (s.l1Drop site line but) :=
  mapCores s fun n k => by split <;> rfl

theorem staleFills (s : State) (line : Nat) (which : Req → Bool) : Traffic s (s.staleFills line which) :=
  mapReqs s fun q hq => by grind

theorem noInstall (s : State) (site : Nat) (which : Req → Bool) : Traffic s (s.noInstall site which) :=
  mapReqs s fun q hq => by grind

theorem forward (s : State) (site line : Nat) (bs : List (Nat × Byte)) : Traffic s (s.forward site line bs) :=
  mapReqs s fun q hq => by grind

theorem sendBack (s : State) (site : Nat) (l : RdcLine) (asid : BitVec 16) (bs : List (Nat × Byte)) :
    Traffic s (s.sendBack site l asid bs) := by
  obtain ⟨hctxs, hcur, hissue, hcore, hdie, hbacks⟩ := forward s site l.line bs
  refine ⟨hctxs, hcur, hissue, hcore, hdie, fun h => ?_⟩
  rw [State.sendBack, List.forall_mem_append]
  exact ⟨hbacks h, List.forall_mem_singleton.mpr rfl⟩

/-! ### Lines of the host and of owners (R138, R139, R146) -/

theorem cacheReq (s : State) (line : Nat) (own : Bool) : Traffic s (s.cacheReq line own) := ite (emit s _) (refl s)

theorem cacheBack (s : State) (v : L2Line) : Traffic s (s.cacheBack v) := ite (emit s _) (refl s)

theorem snoop (s : State) (line : Nat) : Traffic s (s.snoop line) := ite ((emit s _).trans (setL2 _ _)) (refl s)

theorem predMove (s : State) (site line : Nat) (up : Bool) : Traffic s (s.predMove site line up) :=
  ite (refl s) (modDie s site fun _ => rfl)

theorem returnLine (s : State) (site core line : Nat) : Traffic s (s.returnLine site core line) := modCore s site core fun _ => rfl

theorem recallLine (s : State) (line : Nat) (who : Option CtxRef) : Traffic s (s.recallLine line who) := by
  unfold State.recallLine
  split
  · exact ite ((returnLine s _ _ line).trans (predMove _ _ line true)) (returnLine s _ _ line)
  · exact refl s

theorem claimLine (s : State) (line : Nat) (who : Option CtxRef) : Traffic s (s.claimLine line who).1 := by
  unfold State.claimLine
  split
  · exact snoop s line
  · exact recallLine s line who

theorem claimLines (who : Option CtxRef) (l : List Nat) (s : State) : Traffic s (s.claimLines who l).1 := by
  induction l generalizing s with
  | nil => exact refl s
  | cons x l ih =>
    have hx := claimLine s x who
    unfold State.claimLines
    split
    · next v hv => exact (of_fst hv hx).trans (ih v)
    · next v hv => exact of_fst hv hx

theorem takeBack (s : State) (line : Nat) : Traffic s (s.takeBack line) := by
  have hsnoop : Traffic s (if s.l2.any fun l => l.line = line ∧ l.host ∧ !l.snooped then s.emit (.snoop line) else s) :=
    ite (emit s _) (refl s)
  have hdrop {u : State} : Traffic u { u with
      cores := Table.mapVals (fun _ (c : Core) => { c with l1 := c.l1.filter fun l => l.line != line }) u.cores } :=
    mapCores u fun _ _ => rfl
  have hreqs {u : State} : Traffic u { u with
      reqs := u.reqs.map fun q => if q.stage = .snoop ∧ u.lineOf q.pa = line then { q with stage := .left } else q } :=
    mapReqs u fun q hq => by split <;> exact hq
  exact ((hsnoop.trans (recallLine _ line none)).trans ((hdrop.trans (setL2 _ _)).trans hreqs)).trans (staleFills _ line _)

/-! ### Writes at a home (R79, R82, R387) -/

theorem setPlaces (l : List (Nat × Byte)) (f : Nat × Byte → Nat) (s : State) : Traffic s (l.foldl (fun s b => s.setByte (f b) b.2) s) :=
  foldl (fun s b => setByte s (f b) b.2) l s

theorem putUndo (s : State) (h : Nat) (u : UndoRec) : Traffic s (s.putUndo h u) :=
  ((foldl takeBack _ s).trans (setPlaces _ Prod.fst _)).trans (of_eq rfl rfl rfl rfl rfl rfl)

theorem logUndo (s : State) (line home : Nat) (asid : BitVec 16) : Traffic s (s.logUndo line home asid) := by
  unfold State.logUndo
  dsimp only
  split
  · exact refl s
  split
  · exact refl s
  split
  · exact (modHub s _ _).trans (putUndo _ _ _)
  · exact of_eq rfl rfl rfl rfl rfl rfl

theorem homeWrite (s : State) (line home : Nat) (asid : BitVec 16) (who : Option (Nat × Nat)) (bs : List (Nat × Byte)) :
    Traffic s (s.homeWrite line home asid who bs) := by
  unfold State.homeWrite
  extract_lets undone but dropped written owned stored
  have hwritten : Traffic s written :=
    (((logUndo s line home asid).trans (l1Drop _ home line but)).trans (staleFills _ line _)).trans (setPlaces bs _ _)
  have howned : Traffic s owned := ite (hwritten.trans (cacheReq _ line true)) hwritten
  have hstored : Traffic s stored := ite hwritten (howned.trans (setL2 _ _))
  exact ite (hstored.trans (of_eq rfl rfl rfl rfl rfl rfl)) hstored

theorem homeDword (s : State) (asid : BitVec 16) (pa : Nat) (v : W64) : Traffic s (s.homeDword asid pa v) := homeWrite s _ _ asid none _

theorem fillL2 (s : State) (line home : Nat) : Traffic s (s.fillL2 line home) := by
  have hput (u : State) (l : List L2Line) : Traffic u { u.cacheReq line false with l2 := l } :=
    (cacheReq u line false).trans (setL2 _ l)
  unfold State.fillL2
  dsimp only
  split
  · exact refl s
  split
  · exact hput s _
  split
  · exact refl s
  split
  · exact refl s
  · next v _ _ =>
    have hdrop := (l1Drop s home v.line none).trans (staleFills _ v.line fun q => q.who.site = home)
    exact ((hdrop.trans (cacheBack _ v)).trans (next _)).trans (hput _ _)

/-! ### Lines that leave a die's cache (R88) -/

theorem rdcFlush (s : State) (site : Nat) (l : RdcLine) (asid : BitVec 16) : Traffic s (s.rdcFlush site l asid) := by
  unfold State.rdcFlush
  extract_lets mine
  split
  · exact ite (refl s) (sendBack s site l asid _)
  · next late bs s0 taken _ =>
    have htaken : Traffic s taken := ite (refl s) (mapReqs s fun q hq => by grind [ReqKind.back])
    refine ite htaken ?_
    exact ((htaken.trans (forward _ site l.line _)).trans (recallLine _ l.line none)).trans
      ((fillL2 _ l.line l.home).trans (homeWrite _ l.line l.home asid none _))

theorem rdcEvict (s : State) (site : Nat) (which : RdcLine → Bool) : Traffic s (s.rdcEvict site which) := by
  unfold State.rdcEvict
  extract_lets d gone out
  have hout : Traffic s out := foldl (fun u l => (rdcFlush u site l (d.lineAsid l)).trans (l1Drop _ site l.line none)) gone s
  exact hout.trans (modDie out site fun _ => rfl)

theorem rdcUnbound (s : State) (site : Nat) : Traffic s (s.rdcUnbound site) := (rdcEvict s site _).trans (noInstall _ site _)

theorem rdcAcquire (s : State) (site t : Nat) : Traffic s (s.rdcAcquire site t) := (rdcEvict s site _).trans (noInstall _ site _)

theorem dropSlot (s : State) (site slot : Nat) : Traffic s (s.dropSlot site slot) :=
  (rdcAcquire s site slot).trans (modDie _ site fun _ => rfl)

theorem dropForAtomic (s : State) (r : CtxRef) (line : Nat) : Traffic s (s.dropForAtomic r line) :=
  have hdrop : Traffic s (s.modCore r.site r.core fun k => { k with l1 := k.l1.filter fun l => l.line != line }) :=
    modCore s r.site r.core fun _ => rfl
  hdrop.trans (rdcEvict _ r.site _)

/-! ### Binding slots (R109, R110) -/

theorem roomSlot (s : State) (site : Nat) : Traffic s (s.roomSlot site).1 := by
  unfold State.roomSlot
  split
  · exact refl s
  · exact dropSlot s site _

theorem bindSlot (s : State) (site : Nat) (asid : BitVec 16) (va : W64) (who : Option CtxRef) :
    Traffic s (s.bindSlot site asid va who).1 := by
  have hone := claimLine s (s.lineOf (s.asidPa asid.toNat)) who
  unfold State.bindSlot
  extract_lets o
  split
  · next b _ => exact modDie s site (f := fun d => { d with bind := (d.bind.filter fun x => x.slot != b.slot) ++ [b] }) fun _ => rfl
  split
  · next u hu => exact of_fst hu hone
  next u hu =>
  have hu := of_fst hu hone
  split
  · exact hu
  next base n _ =>
  have hall := claimLines who ((probeAddrs base n o).map u.lineOf) u
  split
  · next v hv => exact hu.trans (of_fst hv hall)
  next v hv =>
  have hv := hu.trans (of_fst hv hall)
  split
  · exact hv
  next a _ =>
  have hroom := roomSlot v site
  split
  · next x hx => exact hv.trans (of_fst hx hroom)
  next x t hx =>
  have hbind : Traffic (x.rdcUnbound site) ((x.rdcUnbound site).modDie site fun d =>
      { d with bind := d.bind ++ [⟨t, asid, o, bits (x.dword (a + 8)) 7 49, bits (x.dword (a + 16)) 0 32⟩] }) :=
    modDie _ site fun _ => rfl
  exact ((hv.trans (of_fst hx hroom)).trans (rdcUnbound x site)).trans hbind

theorem fillSlot (s : State) (va : W64) : Traffic s (s.fillSlot va) := bindSlot s _ _ va _

theorem dropBinding (s : State) (asid : BitVec 16) (obj : Nat) : Traffic s (s.dropBinding asid obj) :=
  foldl (fun u d => by
    split
    · exact dropSlot u d _
    · exact refl u) _ s

theorem bindGo (s : State) (o base len : W64) (tbl n : Nat) : Traffic s (s.bindGo o base len tbl n).1 := by
  unfold State.bindGo
  extract_lets asid
  split
  · split
    · exact refl s
    · exact (dropBinding s asid _).trans (homeDword _ asid _ _)
  split
  · exact refl s
  split
  · exact fillSlot s o
  split
  · exact refl s
  · exact ((((homeDword s asid _ _).trans (homeDword _ asid _ _)).trans (homeDword _ asid _ _)).trans (homeDword _ asid _ _)).trans
      (fillSlot _ o)

end Traffic
end Sys2Proof.Machine

/-! # Invalidation of translations and of the instruction cache (O40) -/

namespace Sys2Proof.Machine

/-! ### TLB entries dropped (R272) -/

section TlbDrop

variable (s : State) (f : TlbEntry → Bool) (p : WalkPtr → Bool)

theorem State.tlb_core_tlbDrop (site core : Nat) :
    ((s.tlbDrop f p).core site core).tlb = (s.core site core).tlb.filter fun e => !f e :=
  congrArg Core.tlb (Table.get_mapVals (d := Core.reset) (f := fun _ c => { c with tlb := c.tlb.filter fun e => !f e }) rfl s.cores)

theorem State.tlb_die_tlbDrop (site : Nat) : ((s.tlbDrop f p).die site).tlb = (s.die site).tlb.filter fun e => !f e :=
  congrArg Die.tlb (Table.get_mapVals (d := Die.reset) (f := fun _ d => { d with tlb := d.tlb.filter fun e => !f e }) rfl s.dies)

end TlbDrop

/-- Every TLB of the module has lost the entries named, and no other. -/
theorem Traffic.tlbDrop {s u : State} (h : Traffic s u) {f : TlbEntry → Bool} {named : TlbEntry → Prop}
    (hf : ∀ e, f e = true ↔ named e)
    (p : WalkPtr → Bool) :
    let t := u.tlbDrop f p
    (∀ site core, ∀ e ∈ (t.core site core).tlb, ¬ named e ∧ e ∈ (s.core site core).tlb) ∧
      (∀ site, ∀ e ∈ (t.die site).tlb, ¬ named e ∧ e ∈ (s.die site).tlb) ∧
      (∀ site core, ∀ e ∈ (s.core site core).tlb, ¬ named e → e ∈ (t.core site core).tlb) ∧
      t.ctxs = s.ctxs ∧ t.issue = s.issue := by
  simp only [State.tlb_core_tlbDrop, State.tlb_die_tlbDrop, h.coreTlb, h.dieTlb, List.mem_filter, Bool.not_eq_true',
    ← Bool.not_eq_true, hf]
  exact ⟨fun _ _ e he => he.symm, fun _ e he => he.symm, fun _ _ e he hn => ⟨he, hn⟩, h.ctxs, h.issue⟩

section Tlbinv

variable {s : State} {f : TlbEntry → Bool} {p : WalkPtr → Bool} {g : Req → Bool}

/-- In system mode, with no request in flight but write-backs, a TLB instruction is done at once. -/
theorem State.tlbinv_of_sys (hsys : s.c.sys = true) (hreqs : ∀ q ∈ s.reqs, q.kind.back = true) :
    s.tlbinv f p g = .next (s.tlbDrop f p) := by
  refine (if_neg (by simp [hsys])).trans (congrArg Host.Outcome.next (if_neg ?_))
  simp only [List.any_eq_true, not_exists, not_and]
  intro q hq hopen
  have hback := hreqs q hq
  cases hk : q.kind <;> simp_all [ReqKind.back]

theorem State.tlbinv_of_user (hsys : s.c.sys = false) : s.tlbinv f p g = .next (s.trap 0x09 0) := if_pos (by simp [hsys])

end Tlbinv

/-! ### The TLB instructions (R272, R273) -/

theorem exec_tlbinvVa (a b : BitVec 5) (s : State) : ∃ p g, exec (.tlbinvVa a b) s = s.tlbinv (fun e => (leafG e.leaf ||
    e.asid == (s.g b).setWidth 16) && decide (e.vbase / 4096 ≤ (s.g a).toNat / 4096) &&
      decide ((s.g a).toNat / 4096 < (e.vbase + e.size) / 4096)) p g := ⟨_, _, rfl⟩

theorem exec_tlbinvAll (s : State) : exec .tlbinvAll s = s.tlbinv (fun _ => true) (fun _ => true) fun _ => true := rfl

/-- The bindings of an ASID leave every die's binding cache (R273). -/
def State.dropAsid (s : State) (asid : BitVec 16) : State :=
  (List.range s.nSites).foldl (fun s d => ((s.die d).bind.filter fun b => b.asid = asid).foldl (fun s b => s.dropSlot d b.slot) s) s

theorem Traffic.dropAsid (s : State) (asid : BitVec 16) : Traffic s (s.dropAsid asid) :=
  foldl (fun u d => foldl (fun v (b : BindSlot) => dropSlot v d b.slot) ((u.die d).bind.filter fun b => b.asid = asid) u) _ s

theorem exec_tlbinvAsid (a : BitVec 5) (s : State) :
    exec (.tlbinvAsid a) s = (if s.c.sys then s.dropAsid ((s.g a).setWidth 16) else s).tlbinv
      (fun e => e.asid == (s.g a).setWidth 16 && !leafG e.leaf) (fun p => p.asid == (s.g a).setWidth 16)
      fun q => q.asid == (s.g a).setWidth 16 := by
  cases hsys : s.c.sys <;> simp [exec, execTlbinvAsid, hsys, State.dropAsid]

/-! ### The instruction cache emptied (R274) -/

theorem runs_icsync_of_done {s : State} (h : s.c.ocs = 0 ∧ s.awaiting s.cur = false) : Runs .icsync s fun t =>
    (t.core s.cur.site s.cur.core).ic = [] ∧ t.ctxs = s.ctxs ∧ t.mem = s.mem ∧ t.issue = s.issue := by
  refine ⟨_, if_pos ⟨h.1, by simp [h.2]⟩, ?_⟩
  exact ⟨congrArg Core.ic (s.core_modCore_self s.cur.site s.cur.core fun k => { k with ic := [] }), rfl, rfl, rfl⟩

theorem exec_icsync_of_not_done {s : State} (h : ¬ (s.c.ocs = 0 ∧ s.awaiting s.cur = false)) :
    exec .icsync s = .next (s.flow .stall) := if_neg (by simpa using h)

/-- Settles O40: an idle module's TLB instructions drop entries and are done; the bindings that `tlbinv` of an ASID drops too are traffic,
which no TLB sees. -/
theorem translationMaintenance : Obligations.TranslationMaintenance := by
  intro s a b idle gone page
  have quiet (h : idle) : ∀ q ∈ s.reqs, q.kind.back = true := by simp [show s.reqs = [] from h]
  refine ⟨fun hsys h => ?va, fun hsys h => ?asid, fun hsys h => ?all, fun hsys htrap => ⟨?userVa, ?userAsid, ?userAll⟩,
    runs_icsync_of_done, fun h => givesF_stall_of_exec (exec_icsync_of_not_done h)⟩
  case va =>
    obtain ⟨p, g, hexec⟩ := exec_tlbinvVa a b s
    refine runs_of_exec (hexec.trans (State.tlbinv_of_sys hsys (quiet h))) ⟨rfl, (Traffic.refl s).tlbDrop (fun e => ?_) p⟩
    simp [page, and_assoc]
  case asid =>
    have htraffic := Traffic.dropAsid s ((s.g a).setWidth 16)
    have hsys' : (s.dropAsid ((s.g a).setWidth 16)).c.sys = true := by
      rw [htraffic.c, hsys]
    have hexec := exec_tlbinvAsid a s
    rw [if_pos hsys] at hexec
    refine runs_of_exec (hexec.trans (State.tlbinv_of_sys hsys' (htraffic.backs (quiet h)))) (htraffic.tlbDrop (fun e => ?_) _)
    simp
  case all =>
    exact runs_of_exec ((exec_tlbinvAll s).trans (State.tlbinv_of_sys hsys (quiet h)))
      ⟨rfl, (Traffic.refl s).tlbDrop (fun e => by simp) _⟩
  case userVa =>
    obtain ⟨p, g, hexec⟩ := exec_tlbinvVa a b s
    exact htrap.traps_of_exec (by decide) (hexec.trans (State.tlbinv_of_user hsys))
  case userAsid =>
    have hexec := exec_tlbinvAsid a s
    rw [if_neg (by simp [hsys])] at hexec
    exact htrap.traps_of_exec (by decide) (hexec.trans (State.tlbinv_of_user hsys))
  case userAll => exact htrap.traps_of_exec (by decide) ((exec_tlbinvAll s).trans (State.tlbinv_of_user hsys))

end Sys2Proof.Machine

/-! # Bindings, acquires and releases (O30)

A home makes a line ready at once where neither the host nor a core holds it; an access to an object then goes on at its target. -/

namespace Sys2Proof.Machine

/-! ### Lines that are ready (R139, R146) -/

theorem State.claimLine_of_ready {s : State} {line : Nat} (h : s.Ready [line]) (who : Option CtxRef) : s.claimLine line who = (s, true) := by
  obtain ⟨hhost, howner⟩ := h line (List.mem_singleton_self line)
  simp [State.claimLine, State.recallLine, hhost, howner]

theorem State.claimLines_of_ready {s : State} {lines : List Nat} (h : s.Ready lines) (who : Option CtxRef) :
    s.claimLines who lines = (s, true) := by
  induction lines with
  | nil => rfl
  | cons x l ih =>
    have hx : s.Ready [x] := fun y hy => h y (List.mem_singleton.mp hy ▸ List.mem_cons_self)
    simp only [State.claimLines, State.claimLine_of_ready hx]
    exact ih fun y hy => h y (List.mem_cons_of_mem x hy)

theorem State.objectAt_of_ready {s : State} (h : s.Ready [s.lineOf (s.asidPa s.c.asid.toNat)]) (f : State → State) :
    s.objectAt f = f s := by
  simp only [State.objectAt, State.claimLine_of_ready h]

/-! ### An address that passes its checks -/

theorem AddressOk.reachPast {s : State} {a : Access} {va : W64} {pa : Nat} {leaf : W64} {size : Nat} (h : AddressOk s a va pa leaf size)
    (f : State → Target → State) : s.reachPast false a va f = f s (.mem pa leaf size) := by
  obtain ⟨hcheck, hreg, hdebug, -, -, hwarm⟩ := h
  simp [State.reachPast, State.reachAll, hcheck, State.atTarget, hreg, hdebug, hwarm.tlbTouch]

theorem AddressOk.reach {s : State} {a : Access} {va : W64} {pa : Nat} {leaf : W64} {size : Nat} (h : AddressOk s a va pa leaf size)
    (f : State → Target → State) : s.reach a va f = f s (.mem pa leaf size) := by
  have hfree := h.reachPast f
  obtain ⟨-, -, -, hparked, hwalking, -⟩ := h
  rwa [State.reach, State.pageBusy, hparked, hwalking]

/-! ### A context that parks for an answer -/

/-- The context in issue parks until its requests are answered. -/
theorem State.parkOn_parks (s : State) (ids : List Nat) (pend : RegSet) :
    let t := s.parkOn ids pend
    t.reqs = s.reqs ∧ t.c = { s.c with st := .parked, wait := .replies ids, pend := s.c.pend.add pend } ∧ t.issue.flow = .park ∧
      ∀ x, t.byte x = s.byte x := by
  intro t
  let u := s.modC fun c => { c with wait := .replies ids, pend := c.pend.add pend }
  have hu : u.c = { s.c with wait := .replies ids, pend := s.c.pend.add pend } := s.c_modC _
  have hl := u.leave_leaves s.cur .parked
  have hc : t.c = { u.c with st := .parked } := (congrArg _ hl.cur).trans hl.ctx
  exact ⟨hl.reqs, by rw [hc, hu], rfl, fun x => (State.byte_flow _ _ x).trans ((hl.byte x).trans (State.byte_congr rfl rfl rfl x))⟩

/-- The context in issue parks for an answer that carries `v`. -/
theorem State.answerLater_parks (s : State) (d : BitVec 5) (va : W64) (pa v : Nat) :
    let t := s.answerLater d va pa v
    (∃ q, t.reqs.getLast? = some q ∧ q.who = s.cur ∧ q.value = BitVec.ofNat 64 v) ∧ t.c.st = .parked ∧ t.c.g = s.c.g ∧
      ∀ x, t.byte x = s.byte x := by
  let sent := (s.send s.cur (BitVec.ofNat 64 (vline va * 128)) pa 0 (.answer d) .done []).modReq s.nextId fun q =>
    { q with value := BitVec.ofNat 64 v }
  obtain ⟨hreqs, hc, -, hbyte⟩ := sent.parkOn_parks [s.nextId] (rG [d])
  have hlast : ∃ q, sent.reqs.getLast? = some q ∧ q.who = s.cur ∧ q.value = BitVec.ofNat 64 v := by
    simp [sent, State.modReq, State.send, State.sendAs]
  have ht : s.answerLater d va pa v = sent.parkOn [s.nextId] (rG [d]) := rfl
  rw [ht]
  refine ⟨?_, by rw [hc], by rw [hc]; rfl, fun x => (hbyte x).trans (State.byte_congr rfl rfl rfl x)⟩
  obtain ⟨q, hq, hrest⟩ := hlast
  exact ⟨q, (congrArg List.getLast? hreqs).trans hq, hrest⟩

/-! ### Memory read alike -/

theorem State.bytes_congr {s t : State} (h : ∀ x, t.byte x = s.byte x) (pa n : Nat) : t.bytes pa n = s.bytes pa n := by
  induction n generalizing pa with
  | zero => rfl
  | succ n ih => rw [State.bytes, State.bytes, h, ih]

theorem State.dword_congr {s t : State} (h : ∀ x, t.byte x = s.byte x) (pa : Nat) : t.dword pa = s.dword pa := by
  rw [State.dword, State.dword, State.bytes_congr h]

theorem State.probe_congr {s t : State} (h : ∀ x, t.byte x = s.byte x) (base n o : Nat) : t.probe base n o = s.probe base n o := by
  simp only [State.probe, State.dword_congr h]

/-! ### A slot made free (R88, R110) -/

/-- Where no line of the cache is to leave it, none is written home. -/
theorem State.rdcEvict_of_none {s : State} {site : Nat} {which : RdcLine → Bool} (h : ∀ l ∈ (s.die site).rdc, which l = false) :
    s.rdcEvict site which = s.modDie site fun d => { d with rdc := d.rdc.filter fun l => !which l } := by
  have hgone : (s.die site).rdc.filter which = [] := List.filter_eq_nil_iff.mpr fun l hl => by simp [h l hl]
  simp only [State.rdcEvict, hgone, List.foldl_nil]

theorem State.slotBusy_noInstall (s : State) (site : Nat) (which : Req → Bool) (k slot : Nat) :
    (s.noInstall site which).slotBusy k slot = s.slotBusy k slot := by
  simp only [State.slotBusy, State.noInstall, List.any_map]
  congr 1
  funext q
  grind

theorem State.slotBusy_of_victim {s : State} {site u : Nat} (h : s.victimSlot site = some u) : s.slotBusy site u = false := by
  unfold State.victimSlot at h
  dsimp only at h
  split at h
  · next t ht =>
    cases h
    exact (Bool.not_eq_true' _).mp (Bool.and_eq_true_iff.mp (List.find?_some (p := fun t => _ && _) ht)).2
  · obtain ⟨b, hb, rfl⟩ := Option.map_eq_some_iff.mp h
    simpa using List.find?_some hb

/-- A victim that no line of the cache is held under is free at once, and memory is as before. -/
theorem State.roomSlot_of_untagged {s : State} {site u : Nat} (hu : s.victimSlot site = some u)
    (hrdc : ∀ l ∈ (s.die site).rdc, l.tag ≠ some u) :
    s.roomSlot site = (s.dropSlot site u, some u) ∧ ∀ x, (s.dropSlot site u).byte x = s.byte x := by
  have hevict : s.rdcEvict site (fun l => l.tag = some u) =
      s.modDie site fun d => { d with rdc := d.rdc.filter fun l => !decide (l.tag = some u) } :=
    State.rdcEvict_of_none fun l hl => by simpa using hrdc l hl
  have hbusy : (s.dropSlot site u).slotBusy site u = false := by
    rw [State.dropSlot, State.rdcAcquire, hevict]
    exact (State.slotBusy_noInstall _ site _ site u).trans (State.slotBusy_of_victim (s := s) hu)
  refine ⟨?_, fun x => ?_⟩
  · simp [State.roomSlot, hu, hbusy]
  · rw [State.dropSlot, State.rdcAcquire, hevict]
    exact State.byte_congr rfl rfl rfl x

/-! ### `bind` (R109, R287) -/

section BindGo

variable {s : State} {o base len : W64} {tbl n : Nat}

theorem State.bindGo_of_unbound (hlen : len = 0) (hheld : s.probe tbl n (vline o) = none) : s.bindGo o base len tbl n = (s, 4) := by
  simp [State.bindGo, hlen, hheld]

theorem State.bindGo_of_bound (hlen : len = 0) (hheld : s.probe tbl n (vline o) ≠ none) : (s.bindGo o base len tbl n).2 = 0 := by
  obtain ⟨x, hx⟩ := Option.ne_none_iff_exists'.mp hheld
  simp [State.bindGo, hlen, hx]

theorem State.bindGo_of_bad (hlen : len ≠ 0) (hbad : bindArgsBad o base len = true) : s.bindGo o base len tbl n = (s, 3) := by
  simp only [State.bindGo, if_neg hlen, hbad, if_true]

variable (hlen : len ≠ 0) (hgood : bindArgsBad o base len = false)
include hlen hgood

theorem State.bindGo_of_held (hheld : s.probe tbl n (vline o) ≠ none) : (s.bindGo o base len tbl n).2 = 2 := by
  simp only [State.bindGo, if_neg hlen, hgood, Option.isSome_iff_ne_none.mpr hheld]
  rfl

variable (hheld : s.probe tbl n (vline o) = none)
include hheld

theorem State.bindGo_of_full (hroom : ((probeAddrs tbl n (vline o)).find? fun x => !bit (s.dword x) 0) = none) :
    s.bindGo o base len tbl n = (s, 1) := by
  simp only [State.bindGo, if_neg hlen, hgood, hheld, hroom]
  rfl

theorem State.bindGo_of_room (hroom : ((probeAddrs tbl n (vline o)).find? fun x => !bit (s.dword x) 0) ≠ none) :
    (s.bindGo o base len tbl n).2 = 0 := by
  obtain ⟨x, hx⟩ := Option.ne_none_iff_exists'.mp hroom
  simp only [State.bindGo, if_neg hlen, hgood, hheld, hx]
  rfl

end BindGo

section Bind

variable {s : State} {d a b : BitVec 5} {pa page : Nat} {leaf : W64}

/-- A table that keeps the rules of R107 is worked on by a state with a slot at hand where `bind` fills one; its memory is as before. -/
theorem AddressOk.exec_bind_of_table (h : AddressOk s (Access.object false) (s.g a) pa leaf page) {tbl n : Nat}
    (htbl : s.bindTable s.c.asid = some (tbl, n))
    (hready : s.Ready (s.lineOf (s.asidPa s.c.asid.toNat) :: (probeAddrs tbl n (vline (s.g a))).map s.lineOf))
    (hslot : s.bindFills (s.g a) (s.g b) (s.g (b + 1)) tbl n = true →
      ∃ u, s.victimSlot s.cur.site = some u ∧ ∀ l ∈ (s.die s.cur.site).rdc, l.tag ≠ some u) :
    ∃ u, Traffic s u ∧ (∀ x, u.byte x = s.byte x) ∧ exec (.bind d a b) s =
      .next ((u.bindGo (s.g a) (s.g b) (s.g (b + 1)) tbl n).1.answerLater d (s.g a) pa
        (u.bindGo (s.g a) (s.g b) (s.g (b + 1)) tbl n).2) := by
  have hasid : s.Ready [s.lineOf (s.asidPa s.c.asid.toNat)] := fun x hx => hready x (List.mem_singleton.mp hx ▸ List.mem_cons_self)
  have hprobes : s.Ready ((probeAddrs tbl n (vline (s.g a))).map s.lineOf) := fun x hx => hready x (List.mem_cons_of_mem _ hx)
  simp only [exec, execBind, h.reach, State.objectAt_of_ready hasid, htbl, State.claimLines_of_ready hprobes]
  cases hfills : s.bindFills (s.g a) (s.g b) (s.g (b + 1)) tbl n with
  | false => exact ⟨s, Traffic.refl s, fun _ => rfl, rfl⟩
  | true =>
    obtain ⟨u, hu, hrdc⟩ := hslot hfills
    obtain ⟨hroom, hbyte⟩ := State.roomSlot_of_untagged hu hrdc
    simp only [if_true, hroom]
    have htraffic := Traffic.dropSlot s s.cur.site u
    exact ⟨s.dropSlot s.cur.site u, htraffic, hbyte, by rw [htraffic.g, htraffic.g]⟩

variable (hready : s.Ready [s.lineOf (s.asidPa s.c.asid.toNat)])
include hready

theorem AddressOk.exec_bind_of_no_table (h : AddressOk s (Access.object false) (s.g a) pa leaf page)
    (htbl : s.bindTable s.c.asid = none) : exec (.bind d a b) s = .next (s.trap 0x09 (s.g a)) := by
  simp only [exec, execBind, h.reach, State.objectAt_of_ready hready, htbl]

/-! ### `acq` and `rel` (R112, R113, R288) -/

variable {e : Scope}

theorem AddressOk.exec_acq_of_bad (h : AddressOk s (Access.object false) (s.g a) pa leaf page) (hbad : s.bindBad (s.g a) = true) :
    exec (.acq d a e) s = .next (s.trap 0x09 (s.g a)) := by
  simp only [exec, execAcq, h.reachPast, State.objectAt_of_ready hready, hbad]
  rfl

theorem AddressOk.exec_rel_of_bad (h : AddressOk s (Access.object true) (s.g a) pa leaf page) (hbad : s.bindBad (s.g a) = true) :
    exec (.rel a b e) s = .next (s.trap 0x09 (s.g a)) := by
  simp only [exec, execRel, h.reachPast, State.objectAt_of_ready hready, hbad]
  rfl

/-- The context in issue asks a home for an object and parks. -/
def State.askHome (s : State) (d : BitVec 5) (va : W64) (pa : Nat) (leaf : W64) (e : Scope) : State :=
  (s.send s.cur va pa leaf (.acq d e) .sent []).parkOn [s.nextId] (rG [d])

theorem AddressOk.exec_acq_of_free (h : AddressOk s (Access.object false) (s.g a) pa leaf page) (hgood : s.bindBad (s.g a) = false)
    (hbusy : s.lineBusy s.cur.site s.cur.core (s.lineOf pa) = false) (hinj : s.injFull s.cur (s.homeOf pa leaf) = false) :
    exec (.acq d a e) s = .next ((s.dropForAtomic s.cur (s.lineOf pa)).askHome d (s.g a) pa leaf e) := by
  simp only [exec, execAcq, h.reachPast, State.objectAt_of_ready hready, hgood, hbusy, hinj]
  rfl

theorem AddressOk.exec_rel_of_not_drained (h : AddressOk s (Access.object true) (s.g a) pa leaf page) (hgood : s.bindBad (s.g a) = false)
    (hdrained : s.drained s.cur = false) : exec (.rel a b e) s = .next (s.flow .stall) := by
  simp only [exec, execRel, h.reachPast, State.objectAt_of_ready hready, hgood, State.releasePart, hdrained]
  rfl

theorem AddressOk.exec_rel_of_unbound (h : AddressOk s (Access.object true) (s.g a) pa leaf page) (hgood : s.bindBad (s.g a) = false)
    (hdrained : s.drained s.cur = true) (hslot : s.bindSlot s.cur.site s.c.asid (s.g a) (some s.cur) = (s, .unbound))
    (hline : s.Ready [s.lineOf pa]) :
    exec (.rel a b e) s = .next ((s.dropForAtomic s.cur (s.lineOf pa)).homeWrite (s.lineOf pa) (s.homeOf pa leaf) s.c.asid none
      (runAt (pa % 128) (toBytes 8 (s.g b).toNat))) := by
  simp only [exec, execRel, h.reachPast, State.objectAt_of_ready hready, hgood, State.releasePart, hdrained, hslot,
    State.claimLine_of_ready hline]
  rfl

end Bind

/-! ### The object word written at its home -/

/-- Where the die's cache does not hold the line, an atomic operation on it drops the core's own copy only. -/
theorem State.dropForAtomic_of_none {s : State} {r : CtxRef} {line : Nat} (h : s.rdcFind r.site line = none) :
    let t := s.dropForAtomic r line
    (t.mem = s.mem ∧ t.sites = s.sites ∧ t.hubs = s.hubs) ∧ t.groups = s.groups := by
  have hnone : ∀ l ∈ (s.die r.site).rdc, decide (l.line = line) = false := by
    simpa [State.rdcFind] using h
  unfold State.dropForAtomic
  extract_lets dropped t
  have ht : t = _ := State.rdcEvict_of_none (s := dropped) hnone
  rw [ht]
  exact ⟨⟨rfl, rfl, rfl⟩, rfl⟩

theorem State.windowAlias_mod {s : State} {off pa : Nat} (h : s.windowAlias off = some pa) : pa % 128 = off % 128 := by
  unfold State.windowAlias at h
  extract_lets n l at h
  split at h
  · cases h
  · cases h
    rw [mkPa, State.iwSize]
    omega

/-- The two names of a byte of the interleaved window stand at one place in their lines (R13). -/
theorem State.plain_mod (s : State) (pa : Nat) : s.plain pa % 128 = pa % 128 := by
  unfold State.plain
  split
  · cases h : s.windowAlias (pa % 281474976710656) with
    | none => rfl
    | some x =>
      have := State.windowAlias_mod h
      simp only [Option.getD_some]
      omega
  · rfl

/-- Where a byte is kept, it stands at its own place in a line. -/
theorem State.canon_mod (s : State) (pa : Nat) : s.canon pa % 128 = pa % 128 := by
  rw [← s.plain_mod pa]
  unfold State.canon
  extract_lets p reg
  have hp : p = s.plain pa := rfl
  rw [hp]
  split
  · rw [mkPa]
    omega
  split
  · rw [mkPa]
    omega
  · rfl

/-- Bytes of one line go to places that differ. -/
theorem State.storedAt_setBytes (s : State) (pa : Nat) {l : List Byte} (h : l.length ≤ 128) : StoredAt s (s.setBytes pa l) pa l := by
  refine ⟨fun i hi => s.byte_setBytes_of_inj (fun j k hj hk heq => ?_) hi, fun x hx => s.byte_setBytes_of_ne pa x l hx⟩
  have hmod := congrArg (· % 128) heq
  simp only [State.canon_mod] at hmod
  omega

theorem StoredAt.congr_left {s s' t : State} {pa : Nat} {l : List Byte} (h : StoredAt s t pa l) (hmem : s.mem = s'.mem)
    (hsites : s.sites = s'.sites) (hhubs : s.hubs = s'.hubs) : StoredAt s' t pa l := by
  obtain ⟨hin, hout⟩ := h
  refine ⟨hin, fun x hx => (hout x ?_).trans (State.byte_congr hmem hsites hhubs x)⟩
  simpa only [State.canon_congr hsites hhubs] using hx

theorem StoredAt.congr_right {s t t' : State} {pa : Nat} {l : List Byte} (h : StoredAt s t pa l) (hbyte : ∀ x, t'.byte x = t.byte x) :
    StoredAt s t' pa l :=
  ⟨fun i hi => (hbyte _).trans (h.1 i hi), fun x hx => (hbyte x).trans (h.2 x hx)⟩

theorem runAt_cons (off : Nat) (b : Byte) (l : List Byte) : runAt off (b :: l) = (off, b) :: runAt (off + 1) l := by
  simp [runAt, List.range_succ_eq_map, Nat.add_assoc, Nat.add_comm 1]

/-- Bytes written by their offsets from an address are those written from there on. -/
theorem State.foldl_setByte_runAt (s : State) (base off : Nat) (l : List Byte) :
    (runAt off l).foldl (fun s b => s.setByte (base + b.1) b.2) s = s.setBytes (base + off) l := by
  induction l generalizing s off with
  | nil => rfl
  | cons b l ih => rw [runAt_cons, List.foldl_cons, ih, State.setBytes_cons, Nat.add_assoc]

theorem State.logUndo_of_unlogged {s : State} (h : s.Unlogged) (line home : Nat) (asid : BitVec 16) : s.logUndo line home asid = s :=
  if_pos (.inr (.inl (h _)))

/-- A write at a home that leaves no undo record writes its bytes, and nothing else of memory. -/
theorem State.byte_homeWrite {s : State} (h : s.Unlogged) (line home : Nat) (asid : BitVec 16) (who : Option (Nat × Nat))
    (bs : List (Nat × Byte)) : ∃ u : State, (u.mem = s.mem ∧ u.sites = s.sites ∧ u.hubs = s.hubs) ∧
      ∀ x, (s.homeWrite line home asid who bs).byte x = (bs.foldl (fun s b => s.setByte (line * 128 + b.1) b.2) u).byte x := by
  unfold State.homeWrite
  extract_lets undone but dropped written owned stored
  have hundone : undone = s := State.logUndo_of_unlogged h line home asid
  refine ⟨dropped, by simp only [dropped, hundone]; exact ⟨rfl, rfl, rfl⟩, fun x => ?_⟩
  have howned : owned.byte x = written.byte x := by
    simp only [owned, State.cacheReq]
    split_ifs <;> exact State.byte_congr rfl rfl rfl x
  have hstored : stored.byte x = written.byte x := by
    simp only [stored]
    split
    · rfl
    · exact (State.byte_congr rfl rfl rfl x).trans howned
  split
  · exact (State.byte_congr rfl rfl rfl x).trans hstored
  · exact hstored

theorem State.storedAt_homeWrite {s : State} (h : s.Unlogged) (pa home : Nat) (asid : BitVec 16) (who : Option (Nat × Nat)) {l : List Byte}
    (hl : l.length ≤ 128) : StoredAt s (s.homeWrite (pa / 128) home asid who (runAt (pa % 128) l)) pa l := by
  obtain ⟨u, ⟨hmem, hsites, hhubs⟩, hbyte⟩ := s.byte_homeWrite h (pa / 128) home asid who (runAt (pa % 128) l)
  rw [State.foldl_setByte_runAt, Nat.div_add_mod'] at hbyte
  exact ((u.storedAt_setBytes pa hl).congr_left hmem hsites hhubs).congr_right hbyte

/-- A request to a home, made by a state that differs from the one before by traffic, is one for which the context in issue parks. -/
theorem Traffic.askHome {s u : State} (h : Traffic s u) (d : BitVec 5) (va : W64) (pa : Nat) (leaf : W64) (e : Scope) :
    ∃ q, ParksFor s (u.askHome d va pa leaf e) q (rG [d]) ∧ q.pa = pa ∧ q.kind = .acq d e ∧ q.stage = .sent := by
  let sent := u.send u.cur va pa leaf (.acq d e) .sent []
  obtain ⟨hreqs, hpark, hflow, -⟩ := sent.parkOn_parks [u.nextId] (rG [d])
  have hsent : sent.c = s.c := h.c
  rw [hsent] at hpark
  exact ⟨_, ⟨(congrArg List.getLast? hreqs).trans List.getLast?_concat, h.cur, hpark, hflow⟩, rfl, rfl, rfl⟩

/-- Settles O30: each instruction goes on at its target, as no line that it works on has to be recalled, and a bind's status is read
off the table. -/
theorem bindAcquireReleaseResults : Obligations.BindAcquireReleaseResults := by
  intro s d a b e pa page leaf va len asidLine
  refine ⟨fun tbl n h htbl hready hslot => ?bind,
    fun hready hmay => ⟨fun h htbl => ?noTable, fun h hbad => ?acqBad, fun h hbad => ?relBad⟩,
    fun h hready hgood hbusy hinj => ?acq, fun h hready hgood => ⟨fun hdrained => ?early, fun hdrained hslot hline hrdc hlog => ?rel⟩⟩
  case bind =>
    intro held room
    obtain ⟨u, htraffic, hbyte, hexec⟩ := h.exec_bind_of_table htbl hready hslot
    have hprobe : u.probe tbl n (vline va) = held := State.probe_congr hbyte tbl n (vline va)
    have hroom : ((probeAddrs tbl n (vline va)).find? fun x => !bit (u.dword x) 0) = room := by simp only [State.dword_congr hbyte]; rfl
    have hgo := htraffic.trans (Traffic.bindGo u va (s.g b) len tbl n)
    refine runs_of_exec hexec ?_
    obtain ⟨⟨q, hq, hwho, hvalue⟩, hst, hg, hanswer⟩ := (u.bindGo va (s.g b) len tbl n).1.answerLater_parks d va pa
      (u.bindGo va (s.g b) len tbl n).2
    have hstatus : ∀ {n' : Nat}, (u.bindGo va (s.g b) len tbl n).2 = n' → q.value = BitVec.ofNat 64 n' :=
      fun heq => hvalue.trans (congrArg _ heq)
    have hkeeps : ∀ {n' : Nat}, u.bindGo va (s.g b) len tbl n = (u, n') → q.value = BitVec.ofNat 64 n' ∧
        ∀ y, ((u.bindGo va (s.g b) len tbl n).1.answerLater d va pa (u.bindGo va (s.g b) len tbl n).2).byte y = s.byte y :=
      fun heq => ⟨hstatus (congrArg Prod.snd heq), fun y => (hanswer y).trans (by rw [heq, hbyte])⟩
    rw [← hprobe, ← hroom]
    exact ⟨q, hq, hwho.trans hgo.cur, hst, hg.trans (congrArg Ctx.g hgo.c),
      fun hlen hheld => hkeeps (State.bindGo_of_unbound hlen hheld), fun hlen hheld => hstatus (State.bindGo_of_bound hlen hheld),
      fun hlen hbad => hkeeps (State.bindGo_of_bad hlen hbad),
      fun hlen hgood hheld => hstatus (State.bindGo_of_held hlen hgood hheld),
      fun hlen hgood hheld hfull => hkeeps (State.bindGo_of_full hlen hgood hheld hfull),
      fun hlen hgood hheld hfree => hstatus (State.bindGo_of_room hlen hgood hheld hfree)⟩
  case noTable => exact hmay.traps_of_exec (by decide) (h.exec_bind_of_no_table hready htbl)
  case acqBad => exact hmay.traps_of_exec (by decide) (h.exec_acq_of_bad hready hbad)
  case relBad => exact hmay.traps_of_exec (by decide) (h.exec_rel_of_bad hready hbad)
  case acq =>
    exact runs_of_exec (h.exec_acq_of_free hready hgood hbusy hinj) ((Traffic.dropForAtomic s s.cur (s.lineOf pa)).askHome d va pa leaf e)
  case early => exact givesF_stall_of_exec (h.exec_rel_of_not_drained hready hgood hdrained)
  case rel =>
    obtain ⟨⟨hmem, hsites, hhubs⟩, hgroups⟩ := State.dropForAtomic_of_none hrdc
    have hunlogged : (s.dropForAtomic s.cur (s.lineOf pa)).Unlogged := by rwa [State.Unlogged, hgroups]
    have hstored := State.storedAt_homeWrite hunlogged (s.plain pa) (s.homeOf pa leaf) s.c.asid none (l := toBytes 8 (s.g b).toNat)
      (by simp [length_toBytes])
    rw [s.plain_mod] at hstored
    have htraffic := (Traffic.dropForAtomic s s.cur (s.lineOf pa)).trans (Traffic.homeWrite _ (s.lineOf pa)
      (s.homeOf pa leaf) s.c.asid none (runAt (pa % 128) (toBytes 8 (s.g b).toNat)))
    exact runs_of_exec (h.exec_rel_of_unbound hready hgood hdrained hslot hline)
      ⟨hstored.congr_left hmem hsites hhubs, htraffic.ctxs, htraffic.issue⟩

end Sys2Proof.Machine

/-! # The events of the matrix unit and of the copy engine (O53)

A command that has started and whose operands have no fault takes its step at once: the spans' banks power up, which changes nothing that
the step reads, and then the step's own change is made at the queue's head. -/

namespace Sys2Proof.Machine

/-! ### Folds that a view follows -/

/-- A fold whose steps leave a view alone leaves it alone. -/
theorem foldl_keeps {α β γ : Type} (view : β → γ) {f : β → α → β} {l : List α} (h : ∀ x ∈ l, ∀ b, view (f b x) = view b)
    (b : β) : view (l.foldl f b) = view b := by
  induction l generalizing b with
  | nil => rfl
  | cons x l ih => rw [List.foldl_cons, ih fun y hy => h y (List.mem_cons_of_mem x hy), h x List.mem_cons_self]

/-- A fold in which only the step of `k` changes a view makes that change once, if it has that step. -/
theorem foldl_view {α β γ : Type} [DecidableEq α] (view : β → γ) {f : β → α → β} {change : γ → γ} {l : List α} {k : α}
    (hl : l.Nodup) (hother : ∀ x ∈ l, x ≠ k → ∀ b, view (f b x) = view b) (hk : ∀ b, view (f b k) = change (view b)) (b : β) :
    view (l.foldl f b) = if k ∈ l then change (view b) else view b := by
  induction l generalizing b with
  | nil => rfl
  | cons x l ih =>
    obtain ⟨hx, hl⟩ := List.nodup_cons.mp hl
    have hrest : ∀ y ∈ l, y ≠ k → ∀ b, view (f b y) = view b := fun y hy => hother y (List.mem_cons_of_mem x hy)
    rw [List.foldl_cons]
    by_cases hxk : x = k
    · subst hxk
      rw [foldl_keeps view fun y hy => hrest y hy fun heq => hx (heq ▸ hy), hk, if_pos List.mem_cons_self]
    · rw [ih hl hrest, hother x List.mem_cons_self hxk]
      simp [Ne.symm hxk]

/-! ### Changes of a core -/

section Queue

variable (s : State) (site core : Nat)

theorem State.mxq_mxMod {m : MxCmd} {rest : List MxCmd} (h : (s.core site core).mxq = m :: rest) (f : MxCmd → MxCmd) :
    ((s.mxMod site core f).core site core).mxq = f m :: rest := by
  simp only [State.mxMod, State.core_modCore_self, h]

theorem State.slotOf_mxMod (f : MxCmd → MxCmd) (i : Nat) : (s.mxMod site core f).slotOf site core i = s.slotOf site core i := by
  simp only [State.slotOf, State.mxMod, State.core_modCore_self]

theorem State.mxq_modSlot (i : Nat) (f : AccSlot → AccSlot) : ((s.modSlot site core i f).core site core).mxq = (s.core site core).mxq := by
  simp only [State.modSlot, State.core_modCore_self]

theorem State.jobs_modSlot (i : Nat) (f : AccSlot → AccSlot) :
    ((s.modSlot site core i f).core site core).jobs = (s.core site core).jobs := by
  simp only [State.modSlot, State.core_modCore_self]

theorem State.slotOf_modSlot {i : Nat} (hi : i < 8) (f : AccSlot → AccSlot) :
    (s.modSlot site core i f).slotOf site core i = f (s.slotOf site core i) := by
  simp [State.slotOf, State.modSlot, State.core_modCore_self, List.getD_eq_getElem?_getD, hi]

theorem State.slotOf_mxDone (m : MxCmd) (slot : Option Nat) (i : Nat) :
    (s.mxDone site core m slot).slotOf site core i = s.slotOf site core i := by
  simp only [State.slotOf, State.mxDone, State.core_modCore_self]

/-- A command that ends leaves the queue, and its job waits for its writes. -/
theorem State.mxDone_ends {m : MxCmd} {rest : List MxCmd} (h : (s.core site core).mxq = m :: rest) (slot : Option Nat) :
    ((s.mxDone site core m slot).core site core).mxq = rest.filter (fun x => x.job ≠ m.job) ∧
      ((s.mxDone site core m slot).core site core).jobs =
        (s.core site core).jobs ++ [⟨m.ctx, m.job, .matrix, if m.rel then scopeOf m.scope else none, slot⟩] := by
  simp [State.mxDone, State.core_modCore_self, h]

end Queue

/-! ### Banks that power up (R68) -/

/-- Of a state only banks that were gated have powered up. -/
def Powered (s t : State) : Prop := t = { s with cores := t.cores } ∧ ∀ a b, ∃ g, t.core a b = { s.core a b with gated := g }

namespace Powered

variable {s t u : State}

theorem refl (s : State) : Powered s s := ⟨rfl, fun a b => ⟨(s.core a b).gated, rfl⟩⟩

theorem trans (h : Powered s t) (h' : Powered t u) : Powered s u := by
  obtain ⟨heq, hcore⟩ := h
  obtain ⟨heq', hcore'⟩ := h'
  refine ⟨by rw [heq', heq], fun a b => ?_⟩
  obtain ⟨g, hg⟩ := hcore a b
  obtain ⟨g', hg'⟩ := hcore' a b
  exact ⟨g', by rw [hg', hg]⟩

theorem foldl {α : Type} {f : State → α → State} (hf : ∀ s x, Powered s (f s x)) (l : List α) (s : State) :
    Powered s (l.foldl f s) := by
  induction l generalizing s with
  | nil => exact refl s
  | cons x l ih => exact (hf s x).trans (ih _)

theorem powerUp (s : State) (site core off n : Nat) : Powered s (s.powerUp site core off n) := by
  unfold State.powerUp
  extract_lets l
  split
  · exact refl s
  · refine ⟨rfl, fun a b => ?_⟩
    rw [State.core_modCore]
    split
    · exact ⟨_, rfl⟩
    · exact ⟨(s.core a b).gated, rfl⟩

theorem powerSpans (s : State) (r : CtxRef) (l : List Span) : Powered s (s.powerSpans r l) := by
  refine foldl (fun s sp => ?_) l s
  split
  · exact refl s
  · exact foldl (fun s i => powerUp s _ _ _ _) _ s

theorem mxq (h : Powered s t) (site core : Nat) : (t.core site core).mxq = (s.core site core).mxq := by
  obtain ⟨g, hg⟩ := h.2 site core
  rw [hg]

theorem slotOf (h : Powered s t) (site core i : Nat) : t.slotOf site core i = s.slotOf site core i := by
  obtain ⟨g, hg⟩ := h.2 site core
  rw [State.slotOf, State.slotOf, hg]

theorem aside (h : Powered s t) : Aside s t := by
  rw [h.1]
  exact ⟨rfl, rfl⟩

theorem byte (h : Powered s t) (x : Nat) : t.byte x = s.byte x := by
  obtain ⟨heq, -⟩ := h
  exact State.byte_congr (by rw [heq]) (by rw [heq]) (by rw [heq]) x

theorem storedAt (h : Powered s t) {pa : Nat} {l : List Byte} (hstored : StoredAt t u pa l) : StoredAt s u pa l := by
  obtain ⟨heq, -⟩ := h
  exact hstored.congr_left (by rw [heq]) (by rw [heq]) (by rw [heq])

theorem engLoc (h : Powered s t) (r : CtxRef) (va : W64) : t.engLoc r va = s.engLoc r va := by
  rw [h.1]
  rfl

theorem elemAt (h : Powered s t) (r : CtxRef) (va : W64) (dist es : Nat) : t.elemAt r va dist es = s.elemAt r va dist es := by
  simp only [State.elemAt, h.engLoc, State.bytes_congr h.byte]

theorem mxGroup (h : Powered s t) (r : CtxRef) (c : MxCmd) (w : MxRow) (dist : Bool) (m n g acc : Nat) :
    t.mxGroup r c w dist m n g acc = s.mxGroup r c w dist m n g acc := by
  simp only [State.mxGroup, State.mxA, State.mxB, State.mxScales, h.elemAt]

end Powered

/-! ### One step of `mma` and `mdist` (R338) -/

/-- The places of a block of eight that starts at `o`, of the `n` that a matrix has. -/
def blockPlaces (o n : Nat) : List Nat := (List.range 8).filterMap fun i => if o + i < n then some (o + i) else none

theorem mem_blockPlaces {o n i : Nat} : i ∈ blockPlaces o n ↔ o ≤ i ∧ i < min n (o + 8) := by
  simp only [blockPlaces, List.mem_filterMap, List.mem_range, Option.ite_none_right_eq_some, Option.some.injEq]
  constructor
  · rintro ⟨k, hk, hn, rfl⟩
    omega
  · rintro ⟨ho, hi⟩
    exact ⟨i - o, by omega, by omega, by omega⟩

theorem nodup_blockPlaces (o n : Nat) : (blockPlaces o n).Nodup := by
  refine List.nodup_range.filterMap fun a b c ha hb => ?_
  simp only [Option.mem_def, Option.ite_none_right_eq_some, Option.some.injEq] at ha hb
  omega

theorem MxCmd.cols_le (m : MxCmd) : m.cols ≤ 64 := Nat.mod_lt _ (by decide)

/-- The accumulator element (i, j) of a slot (R338). -/
def elemOf (i j : Nat) (e : Table W64) : W64 := Table.get (0 : W64) e (64 * i + j)

/-- The elements of a slot once group `g` has gone into element (i, j). -/
def State.mmaElem (s : State) (r : CtxRef) (m : MxCmd) (w : MxRow) (dist : Bool) (g i : Nat) (e : Table W64) (j : Nat) : Table W64 :=
  Table.put e (64 * i + j) (BitVec.ofNat 64 (s.mxGroup r m w dist i j g (elemOf i j e).toNat))

section Step

variable (s : State) (r : CtxRef) (m : MxCmd) (w : MxRow) (dist : Bool)

theorem State.elemOf_mmaElem_self (g i j : Nat) (e : Table W64) :
    elemOf i j (s.mmaElem r m w dist g i e j) = BitVec.ofNat 64 (s.mxGroup r m w dist i j g (elemOf i j e).toNat) :=
  Table.get_put_self _ _ _ _

theorem State.elemOf_mmaElem_of_ne {g i j x y : Nat} (hj : j < 64) (hy : y < 64) (hne : x ≠ i ∨ y ≠ j) (e : Table W64) :
    elemOf i j (s.mmaElem r m w dist g x e y) = elemOf i j e :=
  Table.get_put_of_ne _ _ _ (by omega)

variable {m}

/-- A step of a command changes each element of its block once, from the value before. -/
theorem State.elemOf_mmaStep {t i j : Nat} (hslot : m.slot < 8) (hj : j < 64) :
    let acc := elemOf i j (s.slotOf r.site r.core m.slot).elems
    let nb := (m.cols + 7) / 8
    let b := t / m.groups
    elemOf i j ((s.mmaStep r m w dist t).slotOf r.site r.core m.slot).elems =
      if i ∈ blockPlaces (b / nb * 8) m.rows then
        if j ∈ blockPlaces (b % nb * 8) m.cols then BitVec.ofNat 64 (s.mxGroup r m w dist i j (t % m.groups) acc.toNat) else acc
      else acc := by
  intro acc nb b
  have hcols : ∀ y ∈ blockPlaces (b % nb * 8) m.cols, y < 64 := fun y hy => by
    have := m.cols_le
    have := mem_blockPlaces.mp hy
    omega
  rw [State.mmaStep, State.slotOf_modSlot _ _ _ hslot]
  refine foldl_view (elemOf i j) (change := fun v => if j ∈ blockPlaces (b % nb * 8) m.cols then
    BitVec.ofNat 64 (s.mxGroup r m w dist i j (t % m.groups) v.toNat) else v) (nodup_blockPlaces _ _) (fun x _ hx e => ?_) (fun e => ?_) _
  · exact foldl_keeps (elemOf i j) (fun y hy e => s.elemOf_mmaElem_of_ne r m w dist hj (hcols y hy) (.inl hx) e) e
  · exact foldl_view (elemOf i j) (change := fun v => BitVec.ofNat 64 (s.mxGroup r m w dist i j (t % m.groups) v.toNat))
      (nodup_blockPlaces _ _) (fun y hy hne e => s.elemOf_mmaElem_of_ne r m w dist hj (hcols y hy) (.inr hne) e)
      (fun e => s.elemOf_mmaElem_self r m w dist _ i j e) e

end Step

/-! ### The command at the queue's head (R97, R337) -/

/-- The command `m` stands at the head of a core's queue and has started. -/
def Heads (s : State) (site core : Nat) (m : MxCmd) (rest : List MxCmd) : Prop :=
  (s.core site core).mxq = m :: rest ∧ m.started = true ∧ m.hold = false

theorem State.engLoop_one (f : State → State × Bool) (s : State) : State.engLoop f 1 s = (f s).1 := by
  simp only [State.engLoop]
  split <;> simp_all

section Head

variable {s : State} {site core : Nat} {m : MxCmd} {rest : List MxCmd}

theorem Heads.mxRun (h : Heads s site core m rest) {opc : Nat} (hopc : m.opc = opc) (go : State → State × Bool) :
    s.mxRun site core opc 1 go = (go s).1 := by
  obtain ⟨hq, hstarted, hhold⟩ := h
  have hhead : s.mxHead site core opc = true := by simp [State.mxHead, hq, hopc]
  have hstart : s.mxStart site core = (s, some m) := by simp [State.mxStart, hq, hhold, hstarted]
  simp only [State.mxRun, hhead, hstart, State.engLoop_one]
  rfl

theorem Heads.exec_mma (h : Heads s site core m rest) (hopc : m.opc = 1) :
    exec (.mma site core (some 1)) s = .next (s.mmaGo site core).1 := congrArg _ (h.mxRun hopc _)

theorem Heads.exec_mdist (h : Heads s site core m rest) (hopc : m.opc = 2) :
    exec (.mdist site core (some 1)) s = .next (s.mmaGo site core).1 := congrArg _ (h.mxRun hopc _)

theorem Heads.exec_topk (h : Heads s site core m rest) (hopc : m.opc = 3) :
    exec (.topk site core (some 1)) s = .next (s.topkGo site core).1 := congrArg _ (h.mxRun hopc _)

theorem Heads.exec_epi (h : Heads s site core m rest) (hopc : m.opc = 6) :
    exec (.epi site core (some 1)) s = .next (s.epiGo site core).1 := congrArg _ (h.mxRun hopc _)

theorem Heads.exec_acz (h : Heads s site core m rest) (hopc : m.opc = 4) :
    exec (.acz site core) s =
      .next ((s.modSlot site core m.slot fun _ => claimSlot m.ctx (m.f 0 24 2) []).mxDone site core m none) := by
  refine congrArg _ ((h.mxRun hopc _).trans ?_)
  simp only [h.1]

theorem Heads.exec_acl (h : Heads s site core m rest) (hopc : m.opc = 5) (hout : s.engOut ⟨site, core, m.ctx⟩ false m.job = [])
    {u : State} {tb : Table W64}
    (hread : s.aclRead ⟨site, core, m.ctx⟩ m m.aclEs (List.range (m.rows * m.cols)) [] true = (u, .ok (some tb))) :
    exec (.acl site core) s =
      .next ((u.modSlot site core m.slot fun _ => claimSlot m.ctx (m.f 0 24 2) tb).mxDone site core m none) := by
  have hwaits : s.mxWaits ⟨site, core, m.ctx⟩ m = false := by simp [State.mxWaits, hout]
  refine congrArg _ ((h.mxRun hopc _).trans ?_)
  simp only [h.1, hwaits, hread]
  rfl

variable {w : MxRow}

theorem Heads.mmaGo_of_steps_le (h : Heads s site core m rest) (hrow : m.row = some w) (hsteps : m.steps ≤ m.next) :
    (s.mmaGo site core).1 = s.mxDone site core m none := by
  simp only [State.mmaGo, h.1, hrow, if_pos hsteps]

variable (hfaults : (m.spans.flatMap fun sp => s.spanFaults ⟨site, core, m.ctx⟩ sp) = [])
include hfaults

theorem Heads.mmaGo_of_lt (h : Heads s site core m rest) (hrow : m.row = some w) (hnext : m.next + 1 < m.steps) :
    (s.mmaGo site core).1 =
      ((s.powerSpans ⟨site, core, m.ctx⟩ m.spans).mmaStep ⟨site, core, m.ctx⟩ m w (m.opc = 2) m.next).mxMod site core
        fun m => { m with next := m.next + 1 } := by
  have hgoes : ¬ m.steps ≤ m.next := by omega
  have hmore : ¬ m.steps ≤ m.next + 1 := by omega
  simp only [State.mmaGo, h.1, hrow, if_neg hgoes, hfaults, lowest, List.foldl_nil, if_neg hmore]

/-- A step of a command changes its block of the slot and moves the command on. -/
theorem Heads.mmaGo_steps (h : Heads s site core m rest) (hrow : m.row = some w) (hnext : m.next + 1 < m.steps) (hslot : m.slot < 8)
    {i j : Nat} (hj : j < 64) :
    let t := (s.mmaGo site core).1
    let blocks := (m.cols + 7) / 8
    let b := m.next / m.groups
    let acc := elemOf i j (s.slotOf site core m.slot).elems
    Aside s t ∧ (t.core site core).mxq = { m with next := m.next + 1 } :: rest ∧
      (t.slotOf site core m.slot).state = (s.slotOf site core m.slot).state ∧
      elemOf i j (t.slotOf site core m.slot).elems =
        if b / blocks * 8 ≤ i ∧ i < min m.rows (b / blocks * 8 + 8) ∧ b % blocks * 8 ≤ j ∧ j < min m.cols (b % blocks * 8 + 8)
        then BitVec.ofNat 64 (s.mxGroup ⟨site, core, m.ctx⟩ m w (m.opc = 2) i j (m.next % m.groups) acc.toNat) else acc := by
  intro t blocks b acc
  have hpow := Powered.powerSpans s ⟨site, core, m.ctx⟩ m.spans
  have ht : t = _ := h.mmaGo_of_lt hfaults hrow hnext
  rw [ht]
  refine ⟨hpow.aside, ?_, ?_, ?_⟩
  · rw [State.mxq_mxMod]
    exact (State.mxq_modSlot _ _ _ _ _).trans ((hpow.mxq site core).trans h.1)
  · rw [State.slotOf_mxMod, State.mmaStep, State.slotOf_modSlot _ _ _ hslot, hpow.slotOf]
  · rw [State.slotOf_mxMod, State.elemOf_mmaStep _ _ _ _ hslot hj]
    simp only [hpow.mxGroup, hpow.slotOf, mem_blockPlaces, ← ite_and, and_assoc]
    rfl

/-! ### One row of `topk` (R339) -/

omit hfaults in
theorem length_topkRow (s : State) (r : CtxRef) (m : MxCmd) (w : MxRow) (i : Nat) : (s.topkRow r m w i).length = m.f 0 45 5 := by
  simp only [State.topkRow, List.length_map, List.length_range]

theorem Heads.topkGo_of_lt (h : Heads s site core m rest) (hrow : m.row = some w) {x o code : Nat}
    (hloc : s.engLoc ⟨site, core, m.ctx⟩ (m.d 4) = some (x, o, code)) (hnext : m.next + 1 < m.rows) :
    (s.topkGo site core).1 =
      ((s.powerSpans ⟨site, core, m.ctx⟩ m.spans).setBytes (lmemPa site x (o + m.next * m.f 3 40 20))
        ((s.topkRow ⟨site, core, m.ctx⟩ m w m.next).flatMap fun e => toBytes 8 (e.score + e.idx * 4294967296))).mxMod site core
      fun m => { m with next := m.next + 1 } := by
  have hmore : ¬ m.rows ≤ m.next + 1 := by omega
  simp only [State.topkGo, h.1, hrow, hloc, hfaults, lowest, List.foldl_nil, if_neg hmore]

end Head

/-- Bytes of one core's local memory go to places that differ. -/
theorem State.storedAt_setBytes_lmemPa (s : State) {site x off : Nat} {l : List Byte} (hsite : site < 64) (hx : x < 256)
    (hoff : off + l.length ≤ 524288) : StoredAt s (s.setBytes (lmemPa site x off) l) (lmemPa site x off) l := by
  have hplace : ∀ i, lmemPa site x off + i = lmemPa site x (off + i) := fun i => by simp only [lmemPa, mkPa]; omega
  refine ⟨fun i hi => s.byte_setBytes_of_inj (fun j k hj hk heq => ?_) hi, fun y hy => s.byte_setBytes_of_ne _ y l hy⟩
  rw [hplace, hplace, s.canon_lmemPa hsite hx (by omega), s.canon_lmemPa hsite hx (by omega), mkPa, mkPa] at heq
  omega

/-- A row of `topk` leaves its list in local memory and moves the command on. -/
theorem Heads.topkGo_row {s : State} {site core : Nat} {m : MxCmd} {rest : List MxCmd} {w : MxRow}
    (hfaults : (m.spans.flatMap fun sp => s.spanFaults ⟨site, core, m.ctx⟩ sp) = []) (h : Heads s site core m rest)
    (hrow : m.row = some w) {x o code : Nat} (hloc : s.engLoc ⟨site, core, m.ctx⟩ (m.d 4) = some (x, o, code))
    (hnext : m.next + 1 < m.rows) (hsite : site < 64)
    (hx : x < 256) (hoff : o + m.next * m.f 3 40 20 + 8 * m.f 0 45 5 ≤ 524288) :
    let t := (s.topkGo site core).1
    t.ctxs = s.ctxs ∧ (t.core site core).mxq = { m with next := m.next + 1 } :: rest ∧
      StoredAt s t (lmemPa site x (o + m.next * m.f 3 40 20))
        ((s.topkRow ⟨site, core, m.ctx⟩ m w m.next).flatMap fun e => toBytes 8 (e.score + e.idx * 4294967296)) := by
  intro t
  have ht : t = _ := h.topkGo_of_lt hfaults hrow hloc hnext
  rw [ht]
  have hpow := Powered.powerSpans s ⟨site, core, m.ctx⟩ m.spans
  generalize hbs : ((s.topkRow ⟨site, core, m.ctx⟩ m w m.next).flatMap fun e => toBytes 8 (e.score + e.idx * 4294967296)) = bs
  have hlen : bs.length = m.f 0 45 5 * 8 := by simp [← hbs, List.length_flatMap, length_toBytes, length_topkRow]
  have hstored := State.storedAt_setBytes_lmemPa (s.powerSpans ⟨site, core, m.ctx⟩ m.spans) hsite hx (l := bs)
    (off := o + m.next * m.f 3 40 20) (by omega)
  refine ⟨?_, ?_, (hpow.storedAt hstored).congr_right fun y => State.byte_congr rfl rfl rfl y⟩
  · exact (State.setBytes_ctxs _ _ _).trans hpow.aside.1
  · refine State.mxq_mxMod _ _ _ ?_ _
    rw [State.setBytes_eq]
    exact (hpow.mxq site core).trans h.1

/-! ### The first element of a plain epilogue (R342) -/

section Epilogue

variable {s : State} {site core : Nat} {m : MxCmd} {rest : List MxCmd}

/-- A command that neither scales, nor adds a bias, nor activates gives the accumulator's bits. -/
theorem State.epiAct_epiValue_of_plain (s : State) (r : CtxRef) {m : MxCmd} (type i j : Nat) (hscale : m.f 0 25 2 = 0)
    (hbias : m.f 0 27 1 = 0) (hact : m.f 0 28 4 = 0) :
    epiAct m type (s.epiValue r m type i j) = ⟨type = 1, (elemOf i j (s.slotOf r.site r.core m.slot).elems).toNat⟩ := by
  simp [epiAct, State.epiValue, hscale, hbias, hact, elemOf]

theorem MxCmd.spans_of_plain {m : MxCmd} (hopc : m.opc = 6) (hscale : m.f 0 25 2 = 0) (hbias : m.f 0 27 1 = 0) : m.spans = [] := by
  simp [MxCmd.spans, MxCmd.otherSpans, hopc, hscale, hbias]

theorem Core.obufPut_of_nil {k : Core} (h : k.obuf = []) (m : MxCmd) (va : W64) (bs : List Byte) :
    k.obufPut m va bs = some [⟨m.ctx, m.asid, putBits va 0 7 0, runAt (va.toNat % 128) bs, m.win, m.job, m.tag, false⟩] := by
  simp only [Core.obufPut, h, List.getLast?_nil]

theorem State.epiWin_of_local {s : State} {r : CtxRef} {va : W64} {x o code : Nat} (hloc : s.engLoc r va = some (x, o, code))
    (asid : BitVec 16) : s.epiWin r asid va = .ok (some code) := by
  simp only [State.epiWin, hloc]

theorem Heads.epiGo_of_plain (h : Heads s site core m rest) {x o : Nat} (hopc : m.opc = 6)
    (hloc : s.engLoc ⟨site, core, m.ctx⟩ (m.d 1) = some (x, o, 0)) (hfirst : m.next = 0) (hmore : 1 < m.rows * m.cols)
    (halign : (m.d 1).toNat % (if (s.slotOf site core m.slot).type = 2 then 8 else 4) = 0) (hobuf : (s.core site core).obuf = [])
    (hout : s.engOut ⟨site, core, m.ctx⟩ false m.job = []) (hscale : m.f 0 25 2 = 0) (hbias : m.f 0 27 1 = 0) (hact : m.f 0 28 4 = 0) :
    (s.epiGo site core).1 = (s.modCore site core fun k => { k with
        obuf := [⟨m.ctx, m.asid, putBits (m.d 1) 0 7 0, runAt ((m.d 1).toNat % 128)
          (toBytes (if (s.slotOf site core m.slot).type = 2 then 8 else 4) (elemOf 0 0 (s.slotOf site core m.slot).elems).toNat),
          0, m.job, m.tag, false⟩] }).mxMod site core fun m => { m with next := m.next + 1, win := 0 } := by
  have hwin := State.epiWin_of_local hloc m.asid
  have hlast : ¬ m.rows * m.cols ≤ 0 + 1 := by omega
  have hspans : m.spans = [] := MxCmd.spans_of_plain hopc hscale hbias
  have htag : ∀ n, ({ m with next := n, win := 0 } : MxCmd).tag = m.tag := fun _ => rfl
  simp [State.epiGo, h.1, hfirst, hwin, epiEs, halign, hspans, lowest, State.powerSpans, hout, meetsOut, Core.obufPut_of_nil hobuf,
    State.epiAct_epiValue_of_plain, hscale, hbias, hact, hlast, epiBytes, hloc, htag]

end Epilogue

/-! ### The output buffer, the count-down, the copy engine's registers (R343, R126, R329, R350) -/

theorem State.onlyCtx_modCtx (s : State) (r : CtxRef) (f : Ctx → Ctx) : OnlyCtx s (s.modCtx r f) r (f (s.ctx r)) :=
  ⟨rfl, s.ctx_modCtx_self r f, fun _ h => s.ctx_modCtx_of_ne f h⟩

theorem OnlyCtx.modCtx {s t : State} {r : CtxRef} {c : Ctx} (h : OnlyCtx s t r c) (f : Ctx → Ctx) : OnlyCtx s (t.modCtx r f) r (f c) := by
  obtain ⟨heq, hself, hother⟩ := h
  refine ⟨by rw [heq]; rfl, by rw [State.ctx_modCtx_self, hself], fun q hq => ?_⟩
  rw [t.ctx_modCtx_of_ne f hq, hother q hq]

section Registers

variable {s : State} {site core : Nat} {r : CtxRef}

theorem exec_outputBufferDrain_of_nil (h : (s.core site core).obuf = []) : exec (.outputBufferDrain site core) s = .next s := by
  simp only [exec, execOutputBufferDrain, h]

theorem exec_outputBufferDrain_of_cons {e : OutEntry} {l : List OutEntry} {u : State} (h : (s.core site core).obuf = e :: l)
    (hclosed : l ≠ [] ∨ ∀ x ∈ (s.core site core).mxq, x.job ≠ e.job)
    (hwrite : s.engWrite ⟨site, core, e.ctx⟩ e.asid e.va e.data e.win e.job .epilogue e.tag e.dead = some (u, none)) :
    exec (.outputBufferDrain site core) s = .next (u.modCore site core fun k => { k with obuf := l }) := by
  have hopen : (l.isEmpty && (s.core site core).mxq.any fun m => m.job = e.job) = false := by
    rcases hclosed with hl | hjob
    · simp [hl]
    · simp only [Bool.and_eq_false_iff, List.any_eq_false, decide_eq_true_eq]
      exact .inr hjob
  simp only [exec, execOutputBufferDrain, h, hopen, hwrite]
  rfl

theorem State.spill_of_not_preempted {s : State} {r : CtxRef} (hst : (s.ctx r).st ≠ .preempted) (hprior : (s.ctx r).prior ≠ .preempted)
    (regs : RegSet) : s.spill r regs = s := by
  simp only [State.spill, ne_eq, hst, hprior, not_false_eq_true, and_self, ↓reduceIte]

/-- A context that waits for no counter and for no request of the special-function unit does not wake. -/
theorem State.wake_of_other {s : State} {r : CtxRef} (hwaitc : ∀ l x y z, (s.ctx r).wait ≠ .waitc l x y z)
    (hsfu : (s.ctx r).wait ≠ .sfufence) : s.wake r = s := by
  unfold State.wake
  generalize (s.ctx r).wait = wait at *
  cases wait with
  | waitc l x y z => exact absurd rfl (hwaitc l x y z)
  | sfufence => exact absurd rfl hsfu
  | _ => rfl

theorem exec_engineCountDown_of_none (h : (s.core r.site r.core).jobs = []) : exec (.engineCountDown r) s = .next s := by
  simp only [exec, execEngineCountDown, h, List.find?_nil]

/-- What a finished job of an engine counts down. -/
def Ctx.countDown (c : Ctx) : JobKind → Ctx
  | .matrix => { c with oct := c.oct - 1 }
  | _ => { c with occ := c.occ - 1 }

@[simp] theorem Ctx.st_countDown (c : Ctx) (k : JobKind) : (c.countDown k).st = c.st := by cases k <;> rfl
@[simp] theorem Ctx.prior_countDown (c : Ctx) (k : JobKind) : (c.countDown k).prior = c.prior := by cases k <;> rfl
@[simp] theorem Ctx.wait_countDown (c : Ctx) (k : JobKind) : (c.countDown k).wait = c.wait := by cases k <;> rfl

theorem exec_engineCountDown_of_plain {job : Job}
    (hjob : (s.core r.site r.core).jobs.find? (fun x => x.ctx = r.ctx ∧ s.jobClear r x) = some job) (hslot : job.slot = none)
    (hrel : job.rel = none) (hst : (s.ctx r).st = .running) (hwaitc : ∀ l x y z, (s.ctx r).wait ≠ .waitc l x y z)
    (hsfu : (s.ctx r).wait ≠ .sfufence) (hprior : (s.ctx r).prior ≠ .preempted) (hkind : job.kind ≠ .sfu) :
    exec (.engineCountDown r) s =
      .next ((s.modCore r.site r.core fun k => { k with jobs := k.jobs.filter fun x => x.job ≠ job.job }).modCtx r
        fun c => c.countDown job.kind) := by
  obtain ⟨ctx, n, kind, rel, slot⟩ := job
  subst hslot hrel
  let u : State := (s.modCore r.site r.core fun k => { k with jobs := k.jobs.filter fun x => x.job ≠ n }).modCtx r
    fun c => c.countDown kind
  have hu : u.ctx r = (s.ctx r).countDown kind := State.ctx_modCtx_self _ r _
  have hspill : u.spill r RegSet.empty = u :=
    State.spill_of_not_preempted (by rw [hu, Ctx.st_countDown, hst]; decide) (by rwa [hu, Ctx.prior_countDown]) _
  have hwake : u.wake r = u := State.wake_of_other (by rwa [hu, Ctx.wait_countDown]) (by rwa [hu, Ctx.wait_countDown])
  refine Eq.trans (b := .next ((u.spill r RegSet.empty).wake r)) ?_ (by rw [hspill, hwake])
  simp only [exec, execEngineCountDown, hjob]
  cases kind with
  | matrix => rfl
  | copy => rfl
  | sfu => exact absurd rfl hkind

theorem bit_go (v : W64) : bit (v ||| 1) 0 = true := by simp [bit]

theorem State.cpctlOk_go (v : W64) :
    s.cpctlOk r (v ||| 1) = (!(s.ctx r).cpArmed && (s.startOk r && decide ((s.ctx r).occ < 255))) := by
  simp only [State.cpctlOk, bit_go, Bool.not_true, Bool.false_or]

/-- A write of CPCTL that may issue arms the shadow set; GO itself is not kept. -/
theorem State.onlyCtx_cpctlWrite_go (s : State) (r : CtxRef) (v : W64) : OnlyCtx s (s.cpctlWrite r (v ||| 1)) r
    { s.ctx r with cpctl := v &&& 0xFFFF1FFE, cpArmed := true, occ := (s.ctx r).occ + 1 } := by
  have hmask : (v ||| 1) &&& cpctlMask = v &&& 0xFFFF1FFE := by
    have hgo : (1 : W64) &&& cpctlMask = 0 := by decide
    rw [BitVec.and_or_distrib_right, hgo]
    exact BitVec.or_zero
  simp only [State.cpctlWrite, bit_go, if_true, hmask]
  exact (s.onlyCtx_modCtx r _).modCtx _

theorem exec_cpctlGo_of_ok (harmed : (s.ctx r).cpArmed = false) (hocc : (s.ctx r).occ < 255) (hstart : s.startOk r = true) (v : W64) :
    exec (.cpctlGo r v) s = .next (s.cpctlWrite r (v ||| 1)) := by
  simp only [exec, execCpctlGo, State.cpctlOk_go, harmed, hocc, hstart]
  rfl

theorem exec_cpctlGo_of_not_ok (hnot : (s.ctx r).cpArmed = true ∨ 255 ≤ (s.ctx r).occ ∨ s.startOk r = false) (v : W64) :
    exec (.cpctlGo r v) s = .next s := by
  have hok : s.cpctlOk r (v ||| 1) = false := by
    rw [State.cpctlOk_go]
    rcases hnot with harmed | hocc | hstart
    · simp [harmed]
    · simp [Nat.not_lt.mpr hocc]
    · simp [hstart]
  simp only [exec, execCpctlGo, hok]
  rfl

/-- A held copy does not begin. -/
theorem exec_shadowSwapIn_of_held {x : Nat} (hcp : (s.core site core).cp = none) (harmed : s.nextArmed site core = some x)
    (hheld : s.copyHeld ⟨site, core, x⟩ = true) : exec (.shadowSwapIn site core (some 0)) s = .next s := by
  simp only [exec, execShadowSwapIn, hcp, harmed, hheld]
  rfl

/-- The copy that a context's registers describe as it begins. -/
def State.shadowCopy (s : State) (r : CtxRef) : CopyRun :=
  let a := s.ctx r
  ⟨r.ctx, a.asid, s.nextId, a.cpsrc, a.cpdst, a.cplen, a.cpstride, a.cpctl, 0, 0⟩

/-- The state in which an armed shadow set has become the active copy. -/
def State.swapped (s : State) (r : CtxRef) : State :=
  (({ s with nextId := s.nextId + 1 } : State).modCtx r fun y => { y with cpArmed := false }).setCopy r.site r.core (s.shadowCopy r)

/-- A shadow set without ACQ and without a fault swaps in as it is. -/
theorem exec_shadowSwapIn_of_plain {x : Nat} (hcp : (s.core site core).cp = none) (harmed : s.nextArmed site core = some x)
    (hsaved : (s.ctx ⟨site, core, x⟩).savedCp = none)
    (hreasons : (s.swapped ⟨site, core, x⟩).copyReasons ⟨site, core, x⟩ (s.shadowCopy ⟨site, core, x⟩) = [])
    (hacq : bit (s.ctx ⟨site, core, x⟩).cpctl 1 = false) :
    exec (.shadowSwapIn site core (some 0)) s = .next (s.swapped ⟨site, core, x⟩) := by
  have hheld : s.copyHeld ⟨site, core, x⟩ = false := by simp [State.copyHeld, hacq]
  have hrun : (s.shadowCopy ⟨site, core, x⟩).acq = false := hacq
  have hswap : s.copySwap site core x = s.swapped ⟨site, core, x⟩ := by
    unfold State.swapped State.shadowCopy at hreasons
    unfold State.shadowCopy at hrun
    simp only [State.copySwap, hsaved, hreasons, hrun, lowest, List.foldl_nil]
    rfl
  simp only [exec, execShadowSwapIn, hcp, harmed, hheld, hswap]
  rfl

theorem State.swapped_swaps (s : State) (r : CtxRef) :
    ((s.swapped r).core r.site r.core).cp = some (s.shadowCopy r) ∧ (s.swapped r).ctx r = { s.ctx r with cpArmed := false } :=
  ⟨congrArg Core.cp (State.core_modCore_self _ _ _ _), 
    State.ctx_modCtx_self ({ s with nextId := s.nextId + 1 } : State) r fun y => { y with cpArmed := false }⟩

end Registers

/-- Settles O53: the operands of a command are as they were after its banks have powered up, and each event's premise leads down the one
branch that makes its change. -/
theorem engineEvents : Obligations.EngineEvents := by
  intro s site core i j m rest w r v k me goes fine slot acc blocks b here others ends steps c kr
  refine ⟨fun hfine hopc hslot _ hj hnext => ?mma, fun hfine hopc hslot _ hj hnext => ?mdist, fun hfine hopc hnext => ?mmaEnd,
    fun hfine hopc hnext => ?mdistEnd, fun x o code hfine hopc _ hloc hnext hsite hx hoff => ?topk, fun h hopc hslot => ?acz,
    fun u tb h hopc hslot hout hread hq => ?acl,
    fun x o h hopc hloc hfirst hmore halign hobuf hout hscale hbias hact => ?epi,
    fun e l u hobuf hclosed hwrite => ?drain, fun hobuf => exec_outputBufferDrain_of_nil hobuf,
    fun job hjob hslot hrel hst hwaitc hsfu hprior hkind => ?countDown, fun hjobs => exec_engineCountDown_of_none hjobs,
    fun harmed hocc hstart => runs_of_exec (exec_cpctlGo_of_ok harmed hocc hstart v) (s.onlyCtx_cpctlWrite_go r v),
    fun hnot => exec_cpctlGo_of_not_ok hnot v, fun x => ?swapIn,
    fun x hcp harmed hheld => exec_shadowSwapIn_of_held hcp harmed hheld, runs_of_exec rfl (s.onlyCtx_modCtx r _),
    runs_of_exec rfl (s.onlyCtx_modCtx r _)⟩
  case mma =>
    obtain ⟨h, hrow, hfaults⟩ := hfine
    have hstep := Heads.mmaGo_steps hfaults h hrow hnext hslot (i := i) hj
    rw [hopc] at hstep
    exact runs_of_exec (Heads.exec_mma h hopc) hstep
  case mdist =>
    obtain ⟨h, hrow, hfaults⟩ := hfine
    have hstep := Heads.mmaGo_steps hfaults h hrow hnext hslot (i := i) hj
    rw [hopc] at hstep
    exact runs_of_exec (Heads.exec_mdist h hopc) hstep
  case mmaEnd =>
    obtain ⟨h, hrow, -⟩ := hfine
    exact runs_of_exec (Heads.exec_mma h hopc) (Heads.mmaGo_of_steps_le h hrow hnext ▸ ⟨s.mxDone_ends site core h.1 none, rfl, rfl⟩)
  case mdistEnd =>
    obtain ⟨h, hrow, -⟩ := hfine
    exact runs_of_exec (Heads.exec_mdist h hopc) (Heads.mmaGo_of_steps_le h hrow hnext ▸ ⟨s.mxDone_ends site core h.1 none, rfl, rfl⟩)
  case topk =>
    obtain ⟨h, hrow, hfaults⟩ := hfine
    exact runs_of_exec (Heads.exec_topk h hopc) (Heads.topkGo_row hfaults h hrow hloc hnext hsite hx hoff)
  case acz =>
    refine runs_of_exec (Heads.exec_acz h hopc) ⟨?_, ?_, rfl, rfl⟩
    · exact (State.slotOf_mxDone _ _ _ _ _ _).trans (s.slotOf_modSlot site core hslot _)
    · have hends := (s.modSlot site core m.slot fun _ => claimSlot m.ctx (m.f 0 24 2) []).mxDone_ends site core
        ((s.mxq_modSlot site core _ _).trans h.1) none
      rwa [State.jobs_modSlot] at hends
  case acl =>
    refine runs_of_exec (Heads.exec_acl h hopc hout hread) ⟨?_, ?_⟩
    · exact (State.slotOf_mxDone _ _ _ _ _ _).trans (u.slotOf_modSlot site core hslot _)
    · exact (State.mxDone_ends _ site core ((u.mxq_modSlot site core _ _).trans (hq.trans h.1)) none).1
  case epi =>
    refine runs_of_exec (Heads.exec_epi h hopc) ?_
    rw [Heads.epiGo_of_plain h hopc hloc hfirst hmore halign hobuf hout hscale hbias hact]
    refine ⟨⟨rfl, rfl⟩, ?_, ?_⟩
    · rw [State.mxq_mxMod _ _ _ (by rw [State.core_modCore_self]; exact h.1), hfirst]
    · rw [State.mxMod, State.core_modCore_self, State.core_modCore_self]
      rfl
  case drain => exact runs_of_exec (exec_outputBufferDrain_of_cons hobuf hclosed hwrite) ⟨by rw [State.core_modCore_self], rfl, rfl⟩
  case countDown =>
    refine runs_of_exec (exec_engineCountDown_of_plain hjob hslot hrel hst hwaitc hsfu hprior hkind) ⟨?_, rfl, ?_⟩
    · exact congrArg Core.jobs (s.core_modCore_self r.site r.core fun k => { k with jobs := k.jobs.filter fun x => x.job ≠ job.job })
    · rw [State.ctx_modCtx_self]
      cases job.kind <;> rfl
  case swapIn =>
    intro a run hcp harmed hsaved hreasons hacq
    obtain ⟨hactive, hctx⟩ := s.swapped_swaps ⟨site, core, x⟩
    exact runs_of_exec (exec_shadowSwapIn_of_plain hcp harmed hsaved hreasons hacq) ⟨hactive, hctx, rfl, rfl⟩

end Sys2Proof.Machine

/-! # Atomics and reductions on the core's own local memory (O27)

What an atomic makes of the old value is said once by `atomNew`; at a bank it stores that, or leaves the word where a `cas` fails, and
answers the old value. -/

namespace Sys2Proof.Machine

/-! ### The values of R140 -/

theorem toBytes_ofBytes (l : List Byte) : toBytes l.length (ofBytes l) = l := by
  induction l with
  | nil => rfl
  | cons b l ih =>
    have hb := b.isLt
    have hlow : BitVec.ofNat 8 (ofBytes (b :: l)) = b := by
      refine BitVec.eq_of_toNat_eq ?_
      rw [BitVec.toNat_ofNat, ofBytes]
      omega
    have hrest : ofBytes (b :: l) / 256 = ofBytes l := by
      rw [ofBytes]
      omega
    rw [List.length_cons, toBytes, hlow, hrest, ih]

theorem State.toBytes_ofBytes_bytes (s : State) (pa n : Nat) : toBytes n (ofBytes (s.bytes pa n)) = s.bytes pa n := by
  have h := toBytes_ofBytes (s.bytes pa n)
  rwa [length_bytes] at h

theorem State.getD_bytes (s : State) (pa : Nat) {n i : Nat} (hi : i < n) : (s.bytes pa n).getD i 0 = s.byte (pa + i) := by
  induction n generalizing pa i with
  | zero => omega
  | succ n ih =>
    cases i with
    | zero => rfl
    | succ i =>
      rw [State.bytes, List.getD_cons_succ, ih _ (by omega), Nat.add_assoc, Nat.add_comm 1]

/-- Bits of an atomic's word. -/
abbrev atomBits (z : Bool) : Nat := if z then 64 else 32

theorem atomBits_eq (z : Bool) : atomBits z = 8 * atomSize z := by cases z <;> rfl

/-- The word of own local memory that an atomic acts on. -/
abbrev State.bankWord (s : State) (off : Nat) (z : Bool) : Nat := ofBytes (s.bytes (ownPa s off) (atomSize z))

theorem State.bankWord_lt (s : State) (off : Nat) (z : Bool) : s.bankWord off z < 2 ^ atomBits z := by
  have h := ofBytes_lt (s.bytes (ownPa s off) (atomSize z))
  rwa [length_bytes, show (256 : Nat) = 2 ^ 8 from rfl, ← pow_mul, ← atomBits_eq] at h

/-- The signed number that a code of `n` bits stands for. -/
theorem toInt_ofNat_eq_sub {n x : Nat} (hn : 0 < n) (hx : x < 2 ^ n) :
    (BitVec.ofNat n x).toInt = if 2 ^ (n - 1) ≤ x then (x : Int) - 2 ^ n else x := by
  have hhalf : 2 ^ n = 2 * 2 ^ (n - 1) := by rw [← pow_succ', Nat.sub_add_cancel hn]
  rw [BitVec.toInt_eq_toNat_cond, BitVec.toNat_ofNat, Nat.mod_eq_of_lt hx]
  by_cases hneg : 2 ^ (n - 1) ≤ x
  · rw [if_pos hneg, if_neg (by omega)]
    push_cast
    rfl
  · rw [if_neg hneg, if_pos (by omega)]

theorem toNat_ofInt_min {n : Nat} (x y : BitVec n) :
    (BitVec.ofInt n (min x.toInt y.toInt)).toNat = if y.toInt < x.toInt then y.toNat else x.toNat := by
  split
  case isTrue hlt => rw [min_eq_right hlt.le, BitVec.ofInt_toInt]
  case isFalse hge => rw [min_eq_left (not_lt.mp hge), BitVec.ofInt_toInt]

theorem toNat_ofInt_max {n : Nat} (x y : BitVec n) :
    (BitVec.ofInt n (max x.toInt y.toInt)).toNat = if x.toInt < y.toInt then y.toNat else x.toNat := by
  split
  case isTrue hlt => rw [max_eq_right hlt.le, BitVec.ofInt_toInt]
  case isFalse hge => rw [max_eq_left (not_lt.mp hge), BitVec.ofInt_toInt]

/-- An operation other than `cas` always stores, and stores what R140 says. -/
theorem atomNew_op (o : AmoOp) (z : Bool) {old : Nat} (h : old < 2 ^ atomBits z) (v : Nat) :
    atomNew (.op o) z old v = some (atomResult o z old v) := by
  have hpos : 0 < atomBits z := by cases z <;> decide
  have hv : v % 2 ^ atomBits z < 2 ^ atomBits z := Nat.mod_lt _ (Nat.two_pow_pos _)
  have hx : (BitVec.ofNat (atomBits z) old).toNat = old := Nat.mod_eq_of_lt h
  have hy : (BitVec.ofNat (atomBits z) v).toNat = v % 2 ^ atomBits z := BitVec.toNat_ofNat ..
  have hy' : BitVec.ofNat (atomBits z) v = BitVec.ofNat (atomBits z) (v % 2 ^ atomBits z) := BitVec.eq_of_toNat_eq (by simp)
  have hsx := toInt_ofNat_eq_sub hpos h
  have hsy := (congrArg BitVec.toInt hy').trans (toInt_ofNat_eq_sub hpos hv)
  cases o <;> simp only [atomNew, atomResult, Option.some.injEq]
  case swap => exact hy.symm
  case add => rw [BitVec.toNat_add, hx, hy]
  case and => rw [BitVec.toNat_and, hx, hy]; rfl
  case or => rw [BitVec.toNat_or, hx, hy]; rfl
  case xor => rw [BitVec.toNat_xor, hx, hy]; rfl
  case smin =>
    rw [toNat_ofInt_min, hx, hy]
    simp only [hsx, hsy]
  case smax =>
    rw [toNat_ofInt_max, hx, hy]
    simp only [hsx, hsy]
  case umin => rw [hx, hy]
  case umax => rw [hx, hy]
  case fadd => rw [hx, hy]; rfl
  case fmin => rw [hx, hy]
  case fmax => rw [hx, hy]

theorem atomNew_cas (c : W64) (z : Bool) (old v : Nat) :
    atomNew (.cas c) z old v = if old = c.toNat % 2 ^ atomBits z then some (v % 2 ^ atomBits z) else none := rfl

/-! ### An atomic at a bank -/

theorem paRegion_lmemPa {site core off : Nat} (hsite : site < 64) (hcore : core < 256) (hoff : off < 524288) :
    paRegion (lmemPa site core off) = 3 := by
  rw [paRegion, lmemPa, mkPa]
  omega

/-- A state in which the word at a place of own local memory has been stored, and nothing else done. -/
structure BankStore (s t : State) (pa : Nat) (l : List Byte) : Prop where
  stored : StoredAt s t pa l
  rest : ∃ mem watches, t = { s with mem := mem, watches := watches }

theorem BankStore.refl (s : State) (pa n : Nat) : BankStore s s pa (s.bytes pa n) :=
  ⟨⟨fun _ hi => (s.getD_bytes pa (length_bytes s pa n ▸ hi)).symm, fun _ _ => rfl⟩, s.mem, s.watches, rfl⟩

/-- An atomic that returns nothing and acquires nothing counts in ocs (R276). -/
theorem State.atomGo_of_full {s : State} {d : BitVec 5} {r : AmoOrd} (hcount : d = 0 ∧ AmoOrd.acquires r = none) (hfull : s.c.ocs = 255)
    (va : W64) (z : Bool) (o : AtomOp) (v : W64) (core off code : Nat) :
    s.atomGo d va r z o v (.loc core off code) = s.flow .stall := by
  obtain ⟨rfl, hacq⟩ := hcount
  simp [State.atomGo, hacq, hfull]

section Bank

variable {s : State} {va : W64} {off : Nat} {z : Bool} (h : OwnLocal s va off (atomSize z) 0 true)
include h

theorem OwnLocal.reach_atom (f : State → Target → State) :
    s.reach (Access.atom (atomSize z)) va f = f s (.loc s.cur.core off 0) := by
  have hn : atomSize z ∣ 128 := by cases z <;> decide
  simp only [State.reach, State.reachPast, State.reachAll, h.check hn (a := Access.atom (atomSize z)) rfl rfl rfl rfl (.inl rfl)]
  rfl

/-- The word becomes what the operation makes of it, or stays, and the old value is answered. -/
theorem OwnLocal.atomAt (asid : BitVec 16) (o : AtomOp) (v : Nat) :
    ∃ t, s.atomAt (ownPa s off) 0 asid o z v = (t, s.bankWord off z) ∧
      BankStore s t (ownPa s off) (toBytes (atomSize z) ((atomNew o z (s.bankWord off z) v).getD (s.bankWord off z))) := by
  have hreg : paRegion (ownPa s off) = 3 := by
    obtain ⟨hsite, hcore, hoff, -⟩ := h
    have hpos : 0 < atomSize z := by cases z <;> decide
    exact paRegion_lmemPa hsite hcore (by omega)
  simp only [State.atomAt]
  split
  case h_1 hnone => exact ⟨s, rfl, by rw [hnone, Option.getD_none, State.toBytes_ofBytes_bytes]; exact BankStore.refl ..⟩
  case h_2 x hx =>
    rw [if_pos hreg]
    refine ⟨_, rfl, ?_, _, _, s.setBytes_eq _ _⟩
    rw [hx, Option.getD_some]
    exact OwnLocal.storedAt (by rwa [length_toBytes])

/-- An atomic whose release part has nothing to wait for goes on at its bank. -/
theorem OwnLocal.atom {a : BitVec 5} (ha : s.g a = va) {r : AmoOrd} (hrel : ReleaseReady s va r) (d : BitVec 5) (o : AtomOp) (v : W64) :
    s.atom d a r z o v = s.atomGo d va r z o v (.loc s.cur.core off 0) := by
  simp only [State.atom, ha, h.reach_atom]
  cases hr : AmoOrd.releases r with
  | none => rfl
  | some e =>
    obtain ⟨hdrained, hslot⟩ := hrel.resolve_left (by simp [hr])
    by_cases hobj : va.toNat % 128 < 8
    · simp [objectOf, hobj, State.releasePart, hdrained, hslot hobj]
    · simp [objectOf, hobj, hdrained]

/-- An atomic with room in ocs, where it counts there, acts on the word at once. -/
theorem OwnLocal.atomGo_of_room {d : BitVec 5} {r : AmoOrd} (hroom : ¬ ((d = 0 ∧ AmoOrd.acquires r = none) ∧ s.c.ocs = 255))
    (o : AtomOp) (v : W64) :
    ∃ t, s.atomGo d va r z o v (.loc s.cur.core off 0) = t.gw d (BitVec.ofNat 64 (s.bankWord off z)) ∧
      BankStore s t (ownPa s off) (toBytes (atomSize z) ((atomNew o z (s.bankWord off z) v.toNat).getD (s.bankWord off z))) := by
  obtain ⟨t, hat, hstore⟩ := h.atomAt s.c.asid o v.toNat
  have hparks : ¬ ((!decide (d ≠ 0 ∨ (AmoOrd.acquires r).isSome = true)) = true ∧ s.c.ocs = 255) := by simpa [not_or] using hroom
  rw [ownPa] at hat
  refine ⟨t, ?_, hstore⟩
  simp only [State.atomGo, h.powerUp, hat, if_neg hparks, true_or, if_true]

end Bank

/-- The result that an atomic on own local memory gives in its register. -/
theorem BankStore.gives {s t : State} {pa : Nat} {l : List Byte} (h : BankStore s t pa l) {i : Instr} {d : BitVec 5} {v : W64}
    (hexec : exec i s = .next (t.gw d v)) : Runs i s fun t => StoredAt s t pa l ∧ KeptButMemory s t 0 ∧
      t.g d = (if d = 0 then 0 else v) ∧ OnlyG s t d := by
  obtain ⟨hstored, mem, watches, rfl⟩ := h
  exact runs_of_exec hexec ⟨hstored.congr_right (State.byte_gw _ d v), ⟨rfl, fun r hr => State.ctx_modC_of_ne _ _ hr⟩,
    State.gw_result rfl rfl d v⟩

theorem BankStore.stores {s t : State} {pa : Nat} {l : List Byte} (h : BankStore s t pa l) {i : Instr}
    (hexec : exec i s = .next t) : Stores i s pa l 0 := by
  obtain ⟨hstored, mem, watches, rfl⟩ := h
  exact runs_of_exec hexec ⟨hstored, rfl, rfl, fun _ _ => rfl⟩

theorem exec_amo (d a x : BitVec 5) (r : AmoOrd) (z : Bool) (o : AmoOp) (s : State) :
    exec (.amo d a x r z o) s = .next (s.atom d a r z (.op o) (s.g x)) := rfl

theorem exec_amoCas (d a : BitVec 5) (c : BitVec 4) (r : AmoOrd) (z : Bool) (s : State) :
    exec (.amoCas d a c r z) s = .next (s.atom d a r z (.cas (s.g (c ++ 0#1))) (s.g (c ++ 1#1))) := rfl

/-- A reduction at a bank stalls at a full ocs, or stores what the operation makes. -/
theorem OwnLocal.exec_red {s : State} {a : BitVec 5} {off : Nat} {z : Bool} (h : OwnLocal s (s.g a) off (atomSize z) 0 true)
    (x : BitVec 5) (o : AmoOp) :
    exec (.red a x z o) s = .next (if s.c.ocs = 255 then s.flow .stall
      else (s.atomAt (ownPa s off) 0 s.c.asid (.op o) z (s.g x).toNat).1) := by
  simp only [exec, execRed, h.reach_atom, h.powerUp]
  rfl

section Results

variable {s : State} {a : BitVec 5} {off : Nat} {z : Bool} (h : OwnLocal s (s.g a) off (atomSize z) 0 true) {d : BitVec 5} {r : AmoOrd}
include h

/-- An atomic whose release part has nothing to wait for stalls at a full ocs where it counts there. -/
theorem OwnLocal.givesF_atom_of_full {i : Instr} {o : AtomOp} {v : W64} (hexec : exec i s = .next (s.atom d a r z o v))
    (hrel : ReleaseReady s (s.g a) r) (hcount : d = 0 ∧ AmoOrd.acquires r = none) (hfull : s.c.ocs = 255) : GivesF i s s.c .stall :=
  givesF_stall_of_exec (hexec.trans (congrArg _ ((h.atom rfl hrel d o v).trans (State.atomGo_of_full hcount hfull ..))))

/-- Any other atomic on the word stores its value and returns the old one. -/
theorem OwnLocal.runs_atom {i : Instr} {o : AtomOp} {v : W64} (hexec : exec i s = .next (s.atom d a r z o v))
    (hrel : ReleaseReady s (s.g a) r) (hroom : ¬ ((d = 0 ∧ AmoOrd.acquires r = none) ∧ s.c.ocs = 255)) {new : Nat}
    (hnew : (atomNew o z (s.bankWord off z) v.toNat).getD (s.bankWord off z) = new) :
    Runs i s fun t => StoredAt s t (ownPa s off) (toBytes (atomSize z) new) ∧ KeptButMemory s t 0 ∧
      t.g d = (if d = 0 then 0 else BitVec.ofNat 64 (s.bankWord off z)) ∧ OnlyG s t d := by
  obtain ⟨t, hgo, hstore⟩ := h.atomGo_of_room hroom o v
  rw [hnew] at hstore
  exact hstore.gives (hexec.trans (congrArg _ ((h.atom rfl hrel d o v).trans hgo)))

end Results

/-- Settles O27: an access to own local memory goes on at its bank, where the operation's value is stored at once; of a `cas` that value
is the old one unless the comparand equals it. -/
theorem localAtomicResults : Obligations.LocalAtomicResults := by
  intro s d a x c r z o off n old cmp swap gives counted h
  have hlocal : OwnLocal s (s.g a) off (atomSize z) 0 true := h
  have hop : (atomNew (.op o) z old (s.g x).toNat).getD old = atomResult o z old (s.g x).toNat :=
    congrArg (Option.getD · old) (atomNew_op o z (s.bankWord_lt off z) (s.g x).toNat)
  have hcas : (atomNew (.cas (s.g (c ++ 0#1))) z old (s.g (c ++ 1#1)).toNat).getD old = if old = cmp then swap else old := by
    rw [atomNew_cas, atomBits_eq]
    exact apply_ite (Option.getD · old) _ _ _
  refine ⟨fun hrel hroom => ⟨?amo, ?amoCas⟩, fun hrel hcount hfull => ⟨?amoFull, ?amoCasFull⟩, fun hroom => ?red,
    fun hfull => ?redFull⟩
  case amo => exact hlocal.runs_atom (exec_amo d a x r z o s) hrel hroom hop
  case amoCas => exact hlocal.runs_atom (exec_amoCas d a c r z s) hrel hroom hcas
  case amoFull => exact hlocal.givesF_atom_of_full (exec_amo d a x r z o s) hrel hcount hfull
  case amoCasFull => exact hlocal.givesF_atom_of_full (exec_amoCas d a c r z s) hrel hcount hfull
  case red =>
    obtain ⟨t, hat, hstore⟩ := hlocal.atomAt s.c.asid (.op o) (s.g x).toNat
    exact BankStore.stores (hop ▸ hstore) (by rw [hlocal.exec_red x o, if_neg hroom, hat])
  case redFull => exact givesF_stall_of_exec (by rw [hlocal.exec_red x o, if_pos hfull])

end Sys2Proof.Machine

/-! # Pushes and pops as packets (O28)

A packet goes to the home that its address names after the line has left the die's caches: what leaves them is written home, and with it
undo records, which changes no register that the map of addresses reads. -/

namespace Sys2Proof.Machine

/-! ### The address map (R13, R17) -/

/-- What an address's home is read from: the sites, and the registers of every hub. -/
def State.addressMap (s : State) : List Nat × (Nat → Table W64) := (s.sites, fun h => (s.hub h).regs)

section AddressMap

variable {s t : State}

theorem State.addressMap_congr (hsites : t.sites = s.sites) (hhubs : t.hubs = s.hubs) : t.addressMap = s.addressMap := by
  simp only [State.addressMap, State.hub, hsites, hhubs]

variable (h : t.addressMap = s.addressMap)
include h

theorem State.sreg_of_addressMap (site off : Nat) : t.sreg site off = s.sreg site off := by
  obtain ⟨hsites, hregs⟩ := Prod.mk.inj h
  rw [State.sreg, State.sreg, State.phys, State.phys, hsites]
  exact State.hreg_congr (congrFun hregs _) off

theorem State.plain_of_addressMap (pa : Nat) : t.plain pa = s.plain pa := by
  have hsites : t.nSites = s.nSites := congrArg (fun m => m.1.length) h
  have hsize : t.iwSize = s.iwSize := by rw [State.iwSize, State.iwSize, State.sreg_of_addressMap h]
  simp only [State.plain, State.windowAlias, hsites, hsize]

theorem State.homeOf_of_addressMap (pa : Nat) (leaf : W64) : t.homeOf pa leaf = s.homeOf pa leaf := by
  simp only [State.homeOf, State.plain_of_addressMap h]

theorem State.peerWin_of_addressMap (pa : Nat) : t.peerWin pa = s.peerWin pa := by
  simp only [State.peerWin, State.sreg_of_addressMap h]

end AddressMap

section Keeps

variable (s : State)

theorem State.addressMap_modHub (h : Nat) {f : Hub → Hub} (hf : ∀ u, (f u).regs = u.regs) :
    (s.modHub h f).addressMap = s.addressMap :=
  congrArg (Prod.mk s.sites) (funext (s.regs_modHub h hf))

theorem State.addressMap_cacheReq (line : Nat) (own : Bool) : (s.cacheReq line own).addressMap = s.addressMap := by
  unfold State.cacheReq
  split <;> rfl

theorem State.addressMap_cacheBack (v : L2Line) : (s.cacheBack v).addressMap = s.addressMap := by
  unfold State.cacheBack
  split <;> rfl

theorem State.addressMap_predMove (site line : Nat) (up : Bool) : (s.predMove site line up).addressMap = s.addressMap := by
  unfold State.predMove
  extract_lets v v'
  split <;> rfl

theorem State.addressMap_recallLine (line : Nat) (who : Option CtxRef) : (s.recallLine line who).addressMap = s.addressMap := by
  unfold State.recallLine
  split
  · dsimp only
    split
    · exact State.addressMap_predMove ..
    · rfl
  · rfl

theorem State.addressMap_takeBack (line : Nat) : (s.takeBack line).addressMap = s.addressMap := by
  unfold State.takeBack
  extract_lets asked recalled back
  have hasked : asked.addressMap = s.addressMap := by
    simp only [asked]
    split <;> rfl
  exact (State.addressMap_recallLine asked line none).trans hasked

theorem State.addressMap_putUndo (h : Nat) (u : UndoRec) : (s.putUndo h u).addressMap = s.addressMap := by
  unfold State.putUndo
  extract_lets base lim place pas back logged
  have hback : back.addressMap = s.addressMap := by
    simp only [back]
    exact foldl_keeps State.addressMap (fun _ _ b => b.addressMap_takeBack _) s
  have hlogged : logged.addressMap = back.addressMap := by
    simp only [logged]
    refine foldl_keeps State.addressMap ?_ back
    exact fun _ _ _ => rfl
  refine (State.addressMap_modHub logged h ?_).trans (hlogged.trans hback)
  exact fun _ => rfl

theorem State.addressMap_logUndo (line home : Nat) (asid : BitVec 16) : (s.logUndo line home asid).addressMap = s.addressMap := by
  unfold State.logUndo
  extract_lets grp g reg h live u
  split_ifs
  · rfl
  · rfl
  · exact (State.addressMap_putUndo ..).trans (s.addressMap_modHub h fun _ => rfl)
  · rfl

theorem State.addressMap_homeWrite (line home : Nat) (asid : BitVec 16) (who : Option (Nat × Nat)) (bs : List (Nat × Byte)) :
    (s.homeWrite line home asid who bs).addressMap = s.addressMap := by
  unfold State.homeWrite
  extract_lets undone but dropped written owned stored
  have hwritten : written.addressMap = s.addressMap := by
    simp only [written]
    refine (foldl_keeps State.addressMap ?_ dropped).trans (s.addressMap_logUndo line home asid)
    exact fun _ _ _ => rfl
  have howned : owned.addressMap = written.addressMap := by
    simp only [owned]
    split
    · exact written.addressMap_cacheReq line true
    · rfl
  have hstored : stored.addressMap = s.addressMap := by
    simp only [stored]
    split
    · exact hwritten
    · exact howned.trans hwritten
  split
  · exact hstored
  · exact hstored

theorem State.addressMap_fillL2 (line home : Nat) : (s.fillL2 line home).addressMap = s.addressMap := by
  unfold State.fillL2
  dsimp only
  split
  · rfl
  split
  · exact s.addressMap_cacheReq line false
  split
  · rfl
  split
  · rfl
  · exact (State.addressMap_cacheReq _ line false).trans (State.addressMap_cacheBack _ _)

theorem State.addressMap_rdcFlush (site : Nat) (l : RdcLine) (asid : BitVec 16) : (s.rdcFlush site l asid).addressMap = s.addressMap := by
  unfold State.rdcFlush
  extract_lets mine
  split
  · split <;> rfl
  · next late bs s0 taken _ =>
    have htaken : taken.addressMap = s.addressMap := by
      simp only [taken]
      split <;> rfl
    split
    · exact htaken
    · exact (State.addressMap_homeWrite ..).trans ((State.addressMap_fillL2 ..).trans ((State.addressMap_recallLine ..).trans htaken))

theorem State.addressMap_rdcEvict (site : Nat) (which : RdcLine → Bool) : (s.rdcEvict site which).addressMap = s.addressMap := by
  unfold State.rdcEvict
  extract_lets d gone out
  have hout : out.addressMap = s.addressMap := by
    simp only [out]
    refine foldl_keeps State.addressMap ?_ s
    exact fun l _ b => b.addressMap_rdcFlush site l (d.lineAsid l)
  exact hout

theorem State.addressMap_fenceAct (site : Nat) (e : Scope) : (s.fenceAct site e).addressMap = s.addressMap := by
  unfold State.fenceAct
  split
  · exact s.addressMap_rdcEvict site _
  · rfl

end Keeps

/-! ### A packet made (R158) -/

theorem Traffic.fenceAct (s : State) (site : Nat) (e : Scope) : Traffic s (s.fenceAct site e) :=
  Traffic.ite (Traffic.rdcUnbound s site) (Traffic.refl s)

/-- A packet of a context stands at the switch of its site, on its way to a home. -/
def Departs (q : Req) (who : CtxRef) (pa home : Nat) (k : ReqKind) : Prop :=
  q.who = who ∧ q.pa = pa ∧ q.kind = k ∧ q.stage = .atSwitch 0 q.id ∧ q.home = home

/-- A new request is the last; beside it only its core's count of messages and the next number change. -/
theorem State.sendAs_eq (s : State) (r : CtxRef) (asid : BitVec 16) (va : W64) (pa : Nat) (leaf : W64) (k : ReqKind) (stage : ReqStage)
    (data : List Byte) : ∃ q cores, s.sendAs r asid va pa leaf k stage data =
      { s with cores := cores, reqs := s.reqs ++ [q], nextId := s.nextId + 1 } ∧
      q.id = s.nextId ∧ q.who = r ∧ q.pa = pa ∧ q.kind = k ∧ q.stage = stage := by
  unfold State.sendAs
  dsimp only
  split <;> exact ⟨_, _, rfl, rfl, rfl, rfl, rfl, rfl⟩

section Packet

variable {s : State} {pa : Nat} {leaf : W64}

theorem State.exchHome_of_no_peer (h : s.peerWin pa = none) : s.exchHome pa leaf = s.homeOf pa leaf := by
  simp only [State.exchHome, h]

/-- A packet that no peer window takes leaves for its line's home, and beside it moves only what the copies of the line move. -/
theorem State.exchSend_sends (h : s.peerWin pa = none) (va : W64) (page : Nat) (k : ReqKind) :
    ∃ t q, s.exchSend va pa page leaf k = (t, q.id) ∧ t.reqs.getLast? = some q ∧ Departs q s.cur pa (s.homeOf pa leaf) k ∧
      (t.c = s.c ∧ t.cur = s.cur ∧ t.issue = s.issue) ∧
      (s.rdcFind s.cur.site (s.lineOf pa) = none → ∀ y, t.byte y = s.byte y) := by
  have hdrop := Traffic.dropForAtomic s s.cur (s.lineOf pa)
  have hnone := State.dropForAtomic_of_none (s := s) (r := s.cur) (line := s.lineOf pa)
  generalize hu : s.dropForAtomic s.cur (s.lineOf pa) = u at hdrop hnone
  obtain ⟨q, cores, hsent, hid, hwho, hpa, hkind, hstage⟩ :=
    u.sendAs_eq u.cur (u.ctx u.cur).asid va pa leaf k (.atSwitch 0 u.nextId) []
  have hsend : s.exchSend va pa page leaf k = ((u.sendAs u.cur (u.ctx u.cur).asid va pa leaf k (.atSwitch 0 u.nextId) []).modReq u.nextId
      fun q => { q with home := s.homeOf pa leaf, page := page }, u.nextId) := by
    simp only [State.exchSend, State.exchHome_of_no_peer h, h, hu]
    rfl
  rw [hsent] at hsend
  refine ⟨_, { q with home := s.homeOf pa leaf, page := page }, hsend.trans (congrArg (Prod.mk _) hid.symm), ?_,
    ⟨hwho.trans hdrop.cur, hpa, hkind, hstage.trans (by rw [hid]), rfl⟩, ⟨hdrop.c, hdrop.cur, hdrop.issue⟩, fun hrdc y => ?_⟩
  · simp [State.modReq, hid]
  · obtain ⟨⟨hmem, hsites, hhubs⟩, -⟩ := hnone hrdc
    exact State.byte_congr hmem hsites hhubs y

theorem State.c_ocsUp (s : State) : (s.ocsUp s.cur).c = { s.c with ocs := s.c.ocs + 1 } := s.ctx_modCtx_self s.cur _

end Packet

/-! ### `push` and `pop` (R158, R159, R166) -/

section AddressOk

variable {s : State} {a : BitVec 5} {pa page : Nat} {leaf : W64} (h : AddressOk s Access.exchange (s.g a) pa leaf page)
  (hpeer : s.peerWin pa = none)
include h hpeer

/-- A push or pop to an object of this module waits for its line and for its injection queue. -/
theorem AddressOk.exchReach (e : Scope) (f : State → Nat → W64 → Nat → State) : s.exchReach (s.g a) e f =
    if s.exchBusy s.cur (s.lineOf pa) = true ∨ s.injFull s.cur (s.homeOf pa leaf) = true then s.flow .stall else f s pa leaf page := by
  simp only [State.exchReach, h.reach, hpeer, State.exchHome_of_no_peer hpeer]
  rfl

variable (d x p : BitVec 5) (w : BitVec 2) (e : Scope)

theorem AddressOk.exec_push_of_held (hheld : s.exchBusy s.cur (s.lineOf pa) = true ∨ s.injFull s.cur (s.homeOf pa leaf) = true) :
    exec (.push d a x w e) s = .next (s.flow .stall) := by
  simp only [exec, execPush, h.exchReach hpeer, if_pos hheld]

theorem AddressOk.exec_pop_of_held (hheld : s.exchBusy s.cur (s.lineOf pa) = true ∨ s.injFull s.cur (s.homeOf pa leaf) = true) :
    exec (.pop d a p w e) s = .next (s.flow .stall) := by
  simp only [exec, execPop, h.exchReach hpeer, if_pos hheld]

variable (hbusy : s.exchBusy s.cur (s.lineOf pa) = false) (hinj : s.injFull s.cur (s.homeOf pa leaf) = false)
include hbusy hinj

theorem AddressOk.exec_push_of_not_drained (hnot : s.drained s.cur = false ∨ s.c.ocs = 255) :
    exec (.push d a x w e) s = .next (s.flow .stall) := by
  have hstall : ((!s.drained s.cur) = true ∨ s.c.ocs = 255) := by simpa using hnot
  simp only [exec, execPush, h.exchReach hpeer, hbusy, hinj, if_pos hstall]
  rfl

theorem AddressOk.exec_push_of_drained (hdrained : s.drained s.cur = true) (hocs : s.c.ocs ≠ 255) :
    exec (.push d a x w e) s = .next (((((s.fenceAct s.cur.site e).exchSend (s.g a) pa page leaf
      (.push (s.g x) w.toNat d e)).1).ocsUp s.cur).modC fun c => { c with pend := c.pend.add (rG [d]) }) := by
  have hgo : ¬ ((!s.drained s.cur) = true ∨ s.c.ocs = 255) := by simp [hdrained, hocs]
  simp only [exec, execPush, h.exchReach hpeer, hbusy, hinj, if_neg hgo]
  rfl

theorem AddressOk.exec_pop_of_free : exec (.pop d a p w e) s =
    .next (((s.exchSend (s.g a) pa page leaf (.pop w.toNat d (p.setWidth 3) e)).1).parkOn
      [(s.exchSend (s.g a) pa page leaf (.pop w.toNat d (p.setWidth 3) e)).2] ((rG [d]).union (rP [p.setWidth 3]))) := by
  simp only [exec, execPop, h.exchReach hpeer, hbusy, hinj]
  rfl

/-- A push leaves after its fence, and is counted. -/
theorem AddressOk.push_departs (hdrained : s.drained s.cur = true) (hocs : s.c.ocs ≠ 255) :
    Runs (.push d a x w e) s fun t =>
      (∃ q, t.reqs.getLast? = some q ∧ Departs q s.cur pa (s.homeOf pa leaf) (.push (s.g x) w.toNat d e)) ∧
        t.c = { s.c with ocs := s.c.ocs + 1, pend := s.c.pend.add (rG [d]) } ∧ t.issue = s.issue := by
  have hexec := h.exec_push_of_drained hpeer d x w e hbusy hinj hdrained hocs
  have hmap := s.addressMap_fenceAct s.cur.site e
  have hfence := Traffic.fenceAct s s.cur.site e
  generalize s.fenceAct s.cur.site e = u at hexec hmap hfence
  obtain ⟨t, q, hsend, hlast, hdeparts, ⟨hc, hcur, hissue⟩, -⟩ := State.exchSend_sends (leaf := leaf)
    ((State.peerWin_of_addressMap hmap pa).trans hpeer) (s.g a) page (.push (s.g x) w.toNat d e)
  rw [State.homeOf_of_addressMap hmap, hfence.cur] at hdeparts
  rw [hsend, ← hfence.cur, ← hcur] at hexec
  refine runs_of_exec hexec ⟨⟨q, hlast, hdeparts⟩, ?_, hissue.trans hfence.issue⟩
  rw [State.c_modC, State.c_ocsUp, hc, hfence.c]

/-- A pop leaves, and its context parks. -/
theorem AddressOk.pop_departs : Runs (.pop d a p w e) s fun t =>
    (∃ q, ParksFor s t q ((rG [d]).union (rP [p.setWidth 3])) ∧
      Departs q s.cur pa (s.homeOf pa leaf) (.pop w.toNat d (p.setWidth 3) e)) ∧
      (s.rdcFind s.cur.site (s.lineOf pa) = none → ∀ y, t.byte y = s.byte y) := by
  have hexec := h.exec_pop_of_free hpeer d p w e hbusy hinj
  obtain ⟨t, q, hsend, hlast, hdeparts, ⟨hc, -, -⟩, hkept⟩ := State.exchSend_sends (leaf := leaf) hpeer (s.g a) page
    (.pop w.toNat d (p.setWidth 3) e)
  rw [hsend] at hexec
  obtain ⟨hreqs, hpark, hflow, hbyte⟩ := t.parkOn_parks [q.id] ((rG [d]).union (rP [p.setWidth 3]))
  rw [hc] at hpark
  exact runs_of_exec hexec ⟨⟨q, ⟨(congrArg List.getLast? hreqs).trans hlast, hdeparts.1, hpark, hflow⟩, hdeparts⟩,
    fun hrdc y => (hbyte y).trans (hkept hrdc y)⟩

end AddressOk

/-- Settles O28: an address that passes its checks is waited for or its packet departs, and neither the fence of a push nor the copies
that leave the die's caches change the home that it departs for. -/
theorem pushAndPopSendPackets : Obligations.PushAndPopSendPackets := by
  intro s d a x p w e pa page leaf h hpeer
  refine ⟨fun hheld => ⟨?_, ?_⟩, fun hbusy hinj => ⟨fun hdrained hocs => ?_, fun hnot => ?_, ?_⟩⟩
  · exact givesF_stall_of_exec (h.exec_push_of_held hpeer d x w e hheld)
  · exact givesF_stall_of_exec (h.exec_pop_of_held hpeer d p w e hheld)
  · exact h.push_departs hpeer d x w e hbusy hinj hdrained hocs
  · exact givesF_stall_of_exec (h.exec_push_of_not_drained hpeer d x w e hbusy hinj hnot)
  · obtain ⟨t, hexec, ⟨q, hparks, -, hpa, hkind, hstage, hhome⟩, hbyte⟩ := h.pop_departs hpeer d p w e hbusy hinj
    exact runs_of_exec hexec ⟨⟨q, hparks, hpa, hkind, hstage, hhome⟩, hbyte⟩

end Sys2Proof.Machine

/-! # Exchange packets at switches and at home (O33)

At a switch a packet meets the oldest of its opposites, waits or goes on; each of the three changes requests alone. At its home every line
comes back at once, as the host holds none, and what is applied there is one or two doublewords written and an answer. -/

namespace Sys2Proof.Machine

/-! ### Requests by number -/

theorem State.id_of_req {s : State} {id : Nat} {q : Req} (h : s.req id = some q) : q.id = id := by
  simpa using List.find?_some h

/-- A change of requests that keeps their numbers changes what a number names. -/
theorem State.req_mapReqs (s : State) {f : Req → Req} (hf : ∀ q, (f q).id = q.id) (id : Nat) :
    State.req { s with reqs := s.reqs.map f } id = (s.req id).map f := by
  simp only [State.req, List.find?_map, Function.comp_def, hf]

theorem State.req_modReq_self {s : State} {id : Nat} {q : Req} (h : s.req id = some q) {f : Req → Req} (hf : ∀ q, (f q).id = q.id) :
    (s.modReq id f).req id = some (f q) := by
  rw [State.modReq, State.req_mapReqs s (fun q => by split <;> simp [hf]), h, Option.map_some, if_pos (State.id_of_req h)]

theorem State.req_modReq_of_ne {s : State} {id k : Nat} (hne : k ≠ id) {f : Req → Req} (hf : ∀ q, (f q).id = q.id) :
    (s.modReq id f).req k = s.req k := by
  rw [State.modReq, State.req_mapReqs s (fun q => by split <;> simp [hf])]
  cases h : s.req k with
  | none => rfl
  | some q => rw [Option.map_some, if_neg (State.id_of_req h ▸ hne)]

/-- A request has its answer. -/
def Answered (s : State) (id status : Nat) (v : W64) : Prop :=
  ∃ x, s.req id = some x ∧ x.stage = .done ∧ x.status = status ∧ x.value = v

section Answers

variable {s : State} {q : Req}

theorem State.exchDone_of_own (h : q.ext = none) (status : Nat) (v : W64) :
    s.exchDone q status v = s.modReq q.id fun x => { x with stage := .done, status := status, value := v } := by
  simp only [State.exchDone, h]

theorem State.answered_exchDone (h : q.ext = none) (hreq : s.req q.id ≠ none) (status : Nat) (v : W64) :
    Answered (s.exchDone q status v) q.id status v := by
  obtain ⟨x, hx⟩ := Option.ne_none_iff_exists'.mp hreq
  rw [State.exchDone_of_own h]
  exact ⟨_, State.req_modReq_self hx fun _ => rfl, rfl, rfl, rfl⟩

theorem State.req_exchDone_of_ne (h : q.ext = none) {id : Nat} (hne : id ≠ q.id) (status : Nat) (v : W64) :
    (s.exchDone q status v).req id = s.req id := by
  rw [State.exchDone_of_own h]
  exact State.req_modReq_of_ne hne fun _ => rfl

/-- Two packets that met have both their answers. -/
theorem State.answered_both {w : Req} (hq : q.ext = none) (hw : w.ext = none) (hne : w.id ≠ q.id) (hreq : s.req q.id ≠ none)
    (hreqw : s.req w.id ≠ none) (v v' : W64) :
    Answered ((s.exchDone q 0 v).exchDone w 0 v') q.id 0 v ∧ Answered ((s.exchDone q 0 v).exchDone w 0 v') w.id 0 v' := by
  have hfirst := State.answered_exchDone hq hreq 0 v
  refine ⟨?_, State.answered_exchDone hw (by rwa [State.req_exchDone_of_ne hq hne]) 0 v'⟩
  rwa [Answered, State.req_exchDone_of_ne hw hne.symm]

theorem State.aside_exchDone (h : q.ext = none) (status : Nat) (v : W64) : Aside s (s.exchDone q status v) := by
  rw [State.exchDone_of_own h]
  exact ⟨rfl, rfl⟩

theorem State.byte_exchDone (h : q.ext = none) (status : Nat) (v : W64) (x : Nat) : (s.exchDone q status v).byte x = s.byte x := by
  rw [State.exchDone_of_own h]
  exact State.byte_congr rfl rfl rfl x

end Answers

/-! ### A packet that reaches a switch (R162 to R164) -/

/-- The packets of the buckles of a switch that are the opposite of one. -/
def State.mates (s : State) (q : Req) (hub : Nat) : List (Req × Bool × Nat) :=
  (s.buckled hub).filter fun w => w.1.kind.isPush != q.kind.isPush && s.exchObj w.1 == s.exchObj q

/-- The older of the packet found so far and the next. -/
def older (b : Option (Req × Bool × Nat)) (w : Req × Bool × Nat) : Option (Req × Bool × Nat) :=
  match b with
  | none => some w
  | some x => if w.2.2 < x.2.2 then some w else some x

theorem foldl_older_some {l : List (Req × Bool × Nat)} {w x : Req × Bool × Nat} (hw : w = x ∨ w ∈ l)
    (hfirst : ∀ y, y = x ∨ y ∈ l → y ≠ w → w.2.2 < y.2.2) : l.foldl older (some x) = some w := by
  induction l generalizing x with
  | nil => rw [hw.resolve_right List.not_mem_nil]; rfl
  | cons y l ih =>
    have hstep : ∃ z, older (some x) y = some z ∧ (z = x ∨ z = y) ∧ (w = x ∨ w = y → w = z) := by
      simp only [older]
      split
      case isTrue hlt =>
        refine ⟨y, rfl, .inr rfl, fun h => h.elim (fun hx => ?_) id⟩
        by_contra hne
        have := hfirst y (.inr List.mem_cons_self) (Ne.symm hne)
        rw [hx] at this
        omega
      case isFalse hge =>
        refine ⟨x, rfl, .inl rfl, fun h => h.elim id fun hy => ?_⟩
        by_contra hne
        exact hge (hy ▸ hfirst x (.inl rfl) (Ne.symm hne))
    obtain ⟨z, hz, hmem, hwz⟩ := hstep
    rw [List.foldl_cons, hz]
    refine ih ?_ fun v hv => hfirst v ?_
    · rcases hw with hx | hw
      · exact .inl (hwz (.inl hx))
      · exact (List.mem_cons.mp hw).imp (fun hy => hwz (.inr hy)) id
    · rcases hv with rfl | hv
      · exact hmem.imp id fun hy => List.mem_cons.mpr (.inl hy)
      · exact .inr (List.mem_cons_of_mem y hv)

/-- The packet that entered before every other is found. -/
theorem foldl_older {l : List (Req × Bool × Nat)} {w : Req × Bool × Nat} (hw : w ∈ l)
    (hfirst : ∀ y ∈ l, y ≠ w → w.2.2 < y.2.2) : l.foldl older none = some w := by
  cases l with
  | nil => exact absurd hw List.not_mem_nil
  | cons x l => exact foldl_older_some (List.mem_cons.mp hw) fun y hy => hfirst y (List.mem_cons.mpr hy)

/-- A packet at the first switch has overtaken the older requests of its core. -/
def State.arrived (s : State) (q : Req) (step : Nat) : State := if step = 0 then s.overtake q else s

section Arrival

variable (s : State) (q : Req) (step : Nat)

theorem State.arrived_eq : s.arrived q step = { s with reqs := (s.arrived q step).reqs } := by
  unfold State.arrived
  split <;> rfl

theorem State.aside_arrived : Aside s (s.arrived q step) := by
  rw [State.arrived_eq]
  exact ⟨rfl, rfl⟩

/-- No request in a buckle is overtaken. -/
theorem State.buckled_overtake (hub : Nat) : (s.overtake q).buckled hub = s.buckled hub := by
  rw [State.buckled, State.buckled, State.overtake, List.filterMap_map]
  refine List.filterMap_congr fun x _ => ?_
  rw [Function.comp_apply]
  split_ifs with hover
  · have hunsent : x.unsent = true := (Bool.and_eq_true_iff.mp hover).2
    dsimp only
    cases hst : x.stage with
    | inBuckle k age => simp [Req.unsent, hst] at hunsent
    | _ => rfl
  · rfl

theorem State.buckled_arrived (hub : Nat) : (s.arrived q step).buckled hub = s.buckled hub := by
  unfold State.arrived
  split
  · exact s.buckled_overtake q hub
  · rfl

theorem State.exchAt_arrived (x : Req) (k : Nat) : (s.arrived q step).exchAt x k = s.exchAt x k := by rw [State.arrived_eq]; rfl

theorem State.peerWin_arrived (pa : Nat) : (s.arrived q step).peerWin pa = s.peerWin pa := by rw [State.arrived_eq]; rfl

theorem State.mates_arrived (hub : Nat) : (s.arrived q step).mates q hub = s.mates q hub := by
  have hobj (x : Req) : (s.arrived q step).exchObj x = s.exchObj x := by rw [State.arrived_eq]; rfl
  simp only [State.mates, State.buckled_arrived, hobj]

theorem State.req_arrived_ne_none {id : Nat} {x : Req} (h : s.req id = some x) : (s.arrived q step).req id ≠ none := by
  unfold State.arrived
  split
  · rw [State.overtake, State.req_mapReqs s (fun x => by split <;> rfl), h]
    simp
  · simp [h]

end Arrival

/-- A packet to an object of this module goes on to the next switch of its route. -/
theorem State.depart_goesOn {s : State} {q : Req} (hpeer : s.peerWin q.pa = none) (hreq : s.req q.id ≠ none) (step : Nat) :
    let t := s.depart q step
    Aside s t ∧ ∃ x, t.req q.id = some x ∧ x.stage = .atSwitch (step + 1) s.nextId := by
  obtain ⟨x, hx⟩ := Option.ne_none_iff_exists'.mp hreq
  have hdepart : s.depart q step =
      { s.modReq q.id fun x => { x with stage := .atSwitch (step + 1) s.nextId } with nextId := s.nextId + 1 } := by
    simp only [State.depart, hpeer]
  rw [hdepart]
  exact ⟨⟨rfl, rfl⟩, _,
    State.req_modReq_self hx (f := fun x => { x with stage := .atSwitch (step + 1) s.nextId }) fun _ => rfl, rfl⟩

theorem exec_windowExpiry_of_waits {s : State} {id step age : Nat} {q : Req} (hreq : s.req id = some q)
    (hst : q.stage = .inBuckle step age) : exec (.windowExpiry id) s = .next (s.depart q step) := by
  simp only [exec, execWindowExpiry, hreq, hst]

section Switch

variable {s : State} {id step age hub : Nat} {net : Bool} {q : Req}

/-- A packet that may go on to a switch of its route, at which it arrives. -/
structure Arrives (s : State) (id : Nat) (q : Req) (step age hub : Nat) (net : Bool) : Prop where
  named : s.req id = some q
  stands : q.exchStep = some (step, age)
  free : if step = 0 then s.mayLeave q = true else s.exchBehind q step age = false
  onRoute : s.exchAt q step = some (hub, net)

variable (h : Arrives s id q step age hub net)
include h

/-- With its opposite in the buckle, the two are answered; the push's value goes to the pop. -/
theorem Arrives.exec_of_mate {w : Req × Bool × Nat} (hw : w ∈ s.mates q hub)
    (hfirst : ∀ x ∈ s.mates q hub, x ≠ w → w.2.2 < x.2.2) :
    exec (.buckleArrival id) s = .next (if q.kind.isPush then ((s.arrived q step).exchDone w.1 0 q.kind.offer).exchDone q 0 0
      else ((s.arrived q step).exchDone q 0 w.1.kind.offer).exchDone w.1 0 0) := by
  obtain ⟨hreq, hstep, hfree, hplace⟩ := h
  have hgo : ¬ ((if step = 0 then !s.mayLeave q else s.exchBehind q step age) = true) := by
    split at hfree <;> simp_all
  have hoff : (s.arrived q step).exchAt q step = some (hub, net) := (s.exchAt_arrived q step q step).trans hplace
  have hold : ((s.arrived q step).mates q hub).foldl older none = some w := by rw [State.mates_arrived]; exact foldl_older hw hfirst
  unfold State.arrived at hoff hold
  simp only [exec, execBuckleArrival, hreq, hstep, if_neg hgo, hoff]
  split
  case h_1 x n k hfound =>
    obtain rfl := Option.some.inj (hold.symm.trans hfound)
    cases q.kind.isPush <;> rfl
  case h_2 hfound => exact nomatch hold.symm.trans hfound

/-- With none, it waits where its window is open and the buckle has room, and goes on otherwise. -/
theorem Arrives.exec_of_no_mate (hnone : s.mates q hub = []) :
    exec (.buckleArrival id) s = .next (if q.kind.window ≠ 0 ∧ ((s.buckled hub).filter fun w => w.2.1 = net).length < 32 then
      { (s.arrived q step).modReq id fun x => { x with stage := .inBuckle step s.nextId } with nextId := s.nextId + 1 }
      else (s.arrived q step).depart q step) := by
  obtain ⟨hreq, hstep, hfree, hplace⟩ := h
  have hgo : ¬ ((if step = 0 then !s.mayLeave q else s.exchBehind q step age) = true) := by
    split at hfree <;> simp_all
  have hoff : (s.arrived q step).exchAt q step = some (hub, net) := (s.exchAt_arrived q step q step).trans hplace
  have hmates : (s.arrived q step).mates q hub = [] := (s.mates_arrived q step hub).trans hnone
  have hid : (s.arrived q step).nextId = s.nextId := by rw [State.arrived_eq]
  rw [← s.buckled_arrived q step hub, ← hid]
  unfold State.arrived at hoff hmates ⊢
  simp only [State.mates] at hmates
  simp only [exec, execBuckleArrival, hreq, hstep, if_neg hgo, hoff, hmates, List.foldl_nil]
  split_ifs <;> rfl

/-- The packet waits in the buckle. -/
theorem Arrives.waits (hnone : s.mates q hub = []) (hwin : q.kind.window ≠ 0)
    (hroom : ((s.buckled hub).filter fun w => w.2.1 = net).length < 32) :
    Runs (.buckleArrival id) s fun t => Aside s t ∧ ∃ x, t.req id = some x ∧ x.stage = .inBuckle step s.nextId := by
  have hexec := h.exec_of_no_mate hnone
  rw [if_pos ⟨hwin, hroom⟩] at hexec
  obtain ⟨x, hx⟩ := Option.ne_none_iff_exists'.mp (s.req_arrived_ne_none q step h.named)
  exact runs_of_exec hexec ⟨s.aside_arrived q step, _,
    State.req_modReq_self hx (f := fun x => { x with stage := .inBuckle step s.nextId }) fun _ => rfl, rfl⟩

/-- The packet goes on. -/
theorem Arrives.goesOn (hnone : s.mates q hub = []) (hpeer : s.peerWin q.pa = none)
    (hnot : q.kind.window = 0 ∨ ¬ ((s.buckled hub).filter fun w => w.2.1 = net).length < 32) :
    Runs (.buckleArrival id) s fun t => Aside s t ∧ ∃ x, t.req id = some x ∧ x.stage = .atSwitch (step + 1) s.nextId := by
  have hexec := h.exec_of_no_mate hnone
  rw [if_neg fun hboth => hnot.elim hboth.1 fun hfull => hfull hboth.2] at hexec
  obtain rfl := State.id_of_req h.named
  obtain ⟨⟨hctxs, hmem⟩, x, hx, hst⟩ := State.depart_goesOn ((s.peerWin_arrived q step q.pa).trans hpeer)
    (s.req_arrived_ne_none q step h.named) step
  obtain ⟨hctxs', hmem'⟩ := s.aside_arrived q step
  exact runs_of_exec hexec ⟨⟨hctxs.trans hctxs', hmem.trans hmem'⟩, x, hx, hst.trans (by rw [State.arrived_eq])⟩

/-- The packet and the mate that waited longest are both answered. -/
theorem Arrives.meets {w : Req × Bool × Nat} (hw : w ∈ s.mates q hub) (hfirst : ∀ x ∈ s.mates q hub, x ≠ w → w.2.2 < x.2.2)
    (hext : q.ext = none) (hnamed : s.req w.1.id = some w.1) (hextw : w.1.ext = none) (hne : w.1.id ≠ id) :
    Runs (.buckleArrival id) s fun t => Aside s t ∧
      (q.kind.isPush = true → Answered t w.1.id 0 q.kind.offer ∧ Answered t id 0 0) ∧
      (q.kind.isPush = false → Answered t id 0 w.1.kind.offer ∧ Answered t w.1.id 0 0) := by
  have hexec := h.exec_of_mate hw hfirst
  obtain rfl := State.id_of_req h.named
  have hreq := s.req_arrived_ne_none q step h.named
  have hreqw := s.req_arrived_ne_none q step hnamed
  have haside (a b : Req) (ha : a.ext = none) (hb : b.ext = none) (v v' : W64) :
      Aside s (((s.arrived q step).exchDone a 0 v).exchDone b 0 v') := by
    obtain ⟨hctxs, hmem⟩ := s.aside_arrived q step
    obtain ⟨hctxs', hmem'⟩ := State.aside_exchDone (s := s.arrived q step) ha 0 v
    obtain ⟨hctxs'', hmem''⟩ := State.aside_exchDone (s := (s.arrived q step).exchDone a 0 v) hb 0 v'
    exact ⟨hctxs''.trans (hctxs'.trans hctxs), hmem''.trans (hmem'.trans hmem)⟩
  cases hpush : q.kind.isPush with
  | true =>
    rw [hpush, if_pos rfl] at hexec
    obtain ⟨hmate, hown⟩ := State.answered_both hextw hext hne.symm hreqw hreq q.kind.offer 0
    exact runs_of_exec hexec ⟨haside w.1 q hextw hext _ _, fun _ => ⟨hmate, hown⟩, nofun⟩
  | false =>
    rw [hpush, if_neg nofun] at hexec
    obtain ⟨hown, hmate⟩ := State.answered_both hext hextw hne hreq hreqw w.1.kind.offer 0
    exact runs_of_exec hexec ⟨haside q w.1 hext hextw _ _, nofun, fun _ => ⟨hown, hmate⟩⟩

end Switch

/-! ### Descriptors (R156, R157) -/

namespace ExchDesc

variable {d : ExchDesc} {pa page : Nat} {push : Bool}

theorem bad_iff : d.bad (pa % page) page = true ↔ d.kind = 0 ∨ d.kind = 3 ∨ d.cap = 0 ∨ bits d.d0 2 6 ≠ 0 ∨
    bits d.d0 40 24 ≠ 0 ∨ d.cap ≤ d.head ∨ (d.kind = 2 ∧ d.head ≠ 0) ∨ d.cap < d.count ∨ page < pa % page + 128 + 8 * d.cap := by
  simp [bad, or_assoc]

theorem elem_of_bad (h : d.bad (pa % page) page = true) : d.elem pa page push = none := if_pos h

variable (h : d.bad (pa % page) page = false)
include h

theorem elem_of_full (hfull : d.count = d.cap) : d.elem pa page true = none := by simp [elem, h, hfull]

theorem elem_of_empty (hempty : d.count = 0) : d.elem pa page false = none := by simp [elem, h, hempty]

theorem elem_of_push (hroom : d.count < d.cap) : d.elem pa page true = some (pa + 128 + 8 * d.pushAt) := by
  simp [elem, h, hroom.ne]

theorem elem_of_pop (hsome : 0 < d.count) : d.elem pa page false = some (pa + 128 + 8 * d.popAt.1) := by
  simp [elem, h, hsome.ne']

end ExchDesc

theorem ExchDesc.upd_d1 (d : ExchDesc) (count head : Nat) : (d.upd count head).d1 = BitVec.ofNat 64 (count + 2 ^ 32 * head) := by
  rw [Nat.mul_comm]; rfl

theorem ExchDesc.popAt_fst (d : ExchDesc) : d.popAt.1 = if d.kind = 1 then d.head else d.count - 1 := by
  unfold ExchDesc.popAt
  split <;> rfl

theorem ExchDesc.popAt_snd (d : ExchDesc) : d.popAt.2 = if d.kind = 1 then (d.head + 1) % d.cap else d.head := by
  unfold ExchDesc.popAt
  split <;> rfl

/-! ### What an application leaves alone -/

/-- The contexts, where addresses lead and the groups are as before, and a number that named a request names one. -/
structure KeepsPlaces (s t : State) : Prop where
  ctxs : t.ctxs = s.ctxs
  sites : t.sites = s.sites
  hubs : t.hubs = s.hubs
  groups : t.groups = s.groups
  req : ∀ id, s.req id ≠ none → t.req id ≠ none

namespace KeepsPlaces

variable {s t u : State}

theorem trans (h : KeepsPlaces s t) (h' : KeepsPlaces t u) : KeepsPlaces s u :=
  ⟨h'.ctxs.trans h.ctxs, h'.sites.trans h.sites, h'.hubs.trans h.hubs, h'.groups.trans h.groups, fun id hid => h'.req id (h.req id hid)⟩

theorem unlogged (h : KeepsPlaces s t) (hlog : s.Unlogged) : t.Unlogged := by rwa [State.Unlogged, h.groups]

theorem canon (h : KeepsPlaces s t) (x : Nat) : t.canon x = s.canon x := State.canon_congr h.sites h.hubs x

theorem plain (h : KeepsPlaces s t) (x : Nat) : t.plain x = s.plain x :=
  State.plain_of_addressMap (State.addressMap_congr h.sites h.hubs) x

theorem homeWrite (hlog : s.Unlogged) (line home : Nat) (asid : BitVec 16) (who : Option (Nat × Nat)) (bs : List (Nat × Byte)) :
    KeepsPlaces s (s.homeWrite line home asid who bs) := by
  unfold State.homeWrite
  extract_lets undone but dropped written owned stored
  have hundone : undone = s := State.logUndo_of_unlogged hlog line home asid
  have hdropped : KeepsPlaces s dropped := by
    simp only [dropped, hundone, State.staleFills]
    refine ⟨rfl, rfl, rfl, rfl, fun id hid => ?_⟩
    have hid' : (s.l1Drop home line but).req id ≠ none := hid
    rw [State.req_mapReqs (s.l1Drop home line but) fun q => by grind]
    simpa using hid'
  have hwritten : (written.ctxs, written.sites, written.hubs, written.groups, written.reqs) =
      (dropped.ctxs, dropped.sites, dropped.hubs, dropped.groups, dropped.reqs) := by
    simp only [written]
    refine foldl_keeps (fun t : State => (t.ctxs, t.sites, t.hubs, t.groups, t.reqs)) ?_ dropped
    exact fun _ _ _ => rfl
  simp only [Prod.mk.injEq] at hwritten
  obtain ⟨hctxs, hsites, hhubs, hgroups, hreqs⟩ := hwritten
  have hkept : KeepsPlaces dropped written := ⟨hctxs, hsites, hhubs, hgroups, fun id hid => by rwa [State.req, hreqs]⟩
  have howned : KeepsPlaces written owned := by
    simp only [owned, State.cacheReq]
    split_ifs <;> exact ⟨rfl, rfl, rfl, rfl, fun _ => id⟩
  have hstored : KeepsPlaces written stored := by
    simp only [stored]
    split
    · exact ⟨rfl, rfl, rfl, rfl, fun _ => id⟩
    · exact howned.trans ⟨rfl, rfl, rfl, rfl, fun _ => id⟩
  have hall := (hdropped.trans hkept).trans hstored
  split
  · exact hall.trans ⟨rfl, rfl, rfl, rfl, fun _ => id⟩
  · exact hall

theorem homeDword (hlog : s.Unlogged) (asid : BitVec 16) (pa : Nat) (v : W64) : KeepsPlaces s (s.homeDword asid pa v) :=
  homeWrite hlog ..

end KeepsPlaces

/-! ### Doublewords written at a home -/

/-- The eight bytes from a place on are those of a doubleword. -/
def HoldsDword (s : State) (a : Nat) (v : W64) : Prop := ∀ i, i < 8 → s.byte (a + i) = (toBytes 8 v.toNat).getD i 0

/-- Every byte that belongs to none of the doublewords at some places reads as before. -/
def SameBut (s t : State) (places : List Nat) : Prop :=
  ∀ x, (∀ a ∈ places, ∀ i, i < 8 → s.canon x ≠ s.canon (a + i)) → t.byte x = s.byte x

theorem SameBut.trans {s t u : State} {l m : List Nat} (h : SameBut s t l) (h' : SameBut t u m) (hcanon : ∀ x, t.canon x = s.canon x) :
    SameBut s u (l ++ m) := fun x hx => by
  refine (h' x fun a ha i hi => ?_).trans (h x fun a ha => hx a (List.mem_append_left m ha))
  rw [hcanon, hcanon]
  exact hx a (List.mem_append_right l ha) i hi

theorem SameBut.holdsDword {s t : State} {a b : Nat} {v : W64} (h : SameBut s t [b]) (hold : HoldsDword s a v)
    (hapart : ∀ i j, i < 8 → j < 8 → s.canon (a + i) ≠ s.canon (b + j)) : HoldsDword t a v := fun i hi =>
  (h (a + i) (by simpa using fun j hj => hapart i j hi hj)).trans (hold i hi)

theorem HoldsDword.congr {s t : State} {a : Nat} {v : W64} (h : HoldsDword s a v) (hbyte : ∀ x, t.byte x = s.byte x) :
    HoldsDword t a v := fun i hi => (hbyte _).trans (h i hi)

theorem SameBut.congr {s t u : State} {places : List Nat} (h : SameBut s t places) (hbyte : ∀ x, u.byte x = t.byte x) :
    SameBut s u places := fun x hx => (hbyte x).trans (h x hx)

/-- A doubleword written at its home is read back there, and no other byte changes. -/
theorem State.homeDword_writes {s : State} (hlog : s.Unlogged) (asid : BitVec 16) (pa : Nat) (v : W64) :
    HoldsDword (s.homeDword asid pa v) (s.plain pa) v ∧ SameBut s (s.homeDword asid pa v) [s.plain pa] := by
  have h := State.storedAt_homeWrite hlog (s.plain pa) (paSite (s.plain pa)) asid none (l := toBytes 8 v.toNat) (by simp [length_toBytes])
  rw [s.plain_mod] at h
  obtain ⟨hin, hout⟩ := h
  rw [length_toBytes] at hin hout
  exact ⟨hin, fun x hx => hout x (by simpa using hx)⟩

theorem State.windowAlias_add (s : State) {pa i : Nat} (h : pa % 128 + i < 128) :
    s.windowAlias (pa + i) = (s.windowAlias pa).map (· + i) := by
  have hline : (pa + i) / 128 = pa / 128 := by omega
  have hplace : (pa + i) % 128 = pa % 128 + i := by omega
  have hend : s.nSites * s.iwSize ≤ pa + i ↔ s.nSites * s.iwSize ≤ pa := by
    have hgib : 128 ∣ s.iwSize := by
      rw [State.iwSize]
      exact Dvd.dvd.mul_left (by decide) _
    obtain ⟨k, hk⟩ := hgib.mul_left s.nSites
    omega
  simp only [State.windowAlias, hline, hplace, hend]
  split
  · rw [Option.map_none]
  · simp only [Option.map_some, mkPa, Nat.add_assoc]

/-- The places of a line follow one another under both of its names (R13). -/
theorem State.plain_add (s : State) {pa i : Nat} (h : pa % 128 + i < 128) : s.plain (pa + i) = s.plain pa + i := by
  have hreg : paRegion (pa + i) = paRegion pa := by simp only [paRegion]; omega
  have hoff : (pa + i) % 281474976710656 = pa % 281474976710656 + i := by omega
  simp only [State.plain, hreg, hoff, s.windowAlias_add (pa := pa % 281474976710656) (i := i) (by omega)]
  split
  · cases s.windowAlias (pa % 281474976710656) <;> simp
  · simp

/-! ### Lines back at their home (R139, R146) -/

/-- Recalls change cores and dies alone. -/
def Recalled (s t : State) : Prop := t = { s with cores := t.cores, dies := t.dies }

theorem Recalled.trans {s t u : State} (h : Recalled s t) (h' : Recalled t u) : Recalled s u := by
  rw [Recalled] at h h' ⊢
  conv_lhs => rw [h', h]

theorem State.recalled_recallLine (s : State) (line : Nat) (who : Option CtxRef) : Recalled s (s.recallLine line who) := by
  unfold State.recallLine State.predMove
  split
  · dsimp only
    split_ifs <;> rfl
  · rfl

/-- Where the host holds nothing, lines come back to their homes at once. -/
theorem State.claimLines_of_hostFree {s : State} (h : HostFree s) (who : Option CtxRef) (lines : List Nat) :
    ∃ t, s.claimLines who lines = (t, true) ∧ Recalled s t := by
  induction lines generalizing s with
  | nil => exact ⟨s, rfl, rfl⟩
  | cons x l ih =>
    have hhost : s.hostHolds x = false := by
      simp only [State.hostHolds, List.any_eq_false]
      intro e he
      simp [h e he]
    have hback := s.recalled_recallLine x who
    obtain ⟨t, ht, hrest⟩ := ih (s := s.recallLine x who) (by rw [HostFree, hback]; exact h)
    refine ⟨t, ?_, hback.trans hrest⟩
    simp only [State.claimLines, State.claimLine, hhost]
    exact ht

section Recalled

variable {s t : State} (h : Recalled s t)
include h

theorem Recalled.keepsPlaces : KeepsPlaces s t := by
  rw [Recalled] at h
  rw [h]
  exact ⟨rfl, rfl, rfl, rfl, fun _ => id⟩

theorem Recalled.byte (x : Nat) : t.byte x = s.byte x := by
  rw [Recalled] at h
  rw [h]
  exact State.byte_congr rfl rfl rfl x

theorem Recalled.aside : Aside s t := by
  rw [Recalled] at h
  rw [h]
  exact ⟨rfl, rfl⟩

theorem Recalled.poison : t.poison = s.poison := by
  rw [Recalled] at h
  rw [h]

theorem Recalled.exchDesc (q : Req) : t.exchDesc q = s.exchDesc q := by
  simp only [State.exchDesc, State.dword_congr h.byte]

theorem Recalled.sameBut {u : State} {places : List Nat} (hsame : SameBut t u places) : SameBut s u places := fun x hx =>
  (hsame x (by simpa only [h.keepsPlaces.canon] using hx)).trans (h.byte x)

end Recalled

/-! ### The home's application (R161) -/

section Apply

variable {s : State} {q : Req} (hpoison : s.poison = [])
include hpoison

theorem State.exchApply_of_none (h : (s.exchDesc q).elem q.pa q.page q.kind.isPush = none) :
    s.exchApply q = s.exchDone q (if (s.exchDesc q).bad (q.pa % q.page) q.page then 2 else 1) 0 := by
  simp [State.exchApply, hpoison, h]

theorem State.exchApply_of_push {a : Nat} (hpush : q.kind.isPush = true) (h : (s.exchDesc q).elem q.pa q.page true = some a) :
    s.exchApply q = ((s.homeDword q.asid a q.kind.offer).homeDword q.asid (q.pa + 8)
      (BitVec.ofNat 64 ((s.exchDesc q).count + 1 + 2 ^ 32 * (s.exchDesc q).head))).exchDone q 0 0 := by
  simp only [State.exchApply, hpoison, hpush, h, ExchDesc.upd_d1]
  rfl

theorem State.exchApply_of_pop {a : Nat} (hpop : q.kind.isPush = false) (h : (s.exchDesc q).elem q.pa q.page false = some a) :
    s.exchApply q = (s.homeDword q.asid (q.pa + 8)
      (BitVec.ofNat 64 ((s.exchDesc q).count - 1 + 2 ^ 32 * (s.exchDesc q).popAt.2))).exchDone q 0 (s.dword a) := by
  simp only [State.exchApply, hpoison, hpop, h, ExchDesc.upd_d1]
  rfl

variable (hext : q.ext = none) (hreq : s.req q.id ≠ none)
include hext hreq

/-- A packet for which there is no element gets a status and changes nothing. -/
theorem State.exchApply_refuses (h : (s.exchDesc q).elem q.pa q.page q.kind.isPush = none) :
    let t := s.exchApply q
    Aside s t ∧ Answered t q.id (if (s.exchDesc q).bad (q.pa % q.page) q.page then 2 else 1) 0 := by
  rw [State.exchApply_of_none hpoison h]
  exact ⟨State.aside_exchDone hext _ 0, State.answered_exchDone hext hreq _ 0⟩

variable (hlog : s.Unlogged) (halign : q.pa % 128 = 0)
include hlog halign

/-- A push writes its value to its element, and then the descriptor's second doubleword. -/
theorem State.exchApply_push {a : Nat} (hpush : q.kind.isPush = true) (h : (s.exchDesc q).elem q.pa q.page true = some a)
    (hapart : ∀ i j, i < 8 → j < 8 → s.canon (s.plain a + i) ≠ s.canon (s.plain q.pa + 8 + j)) :
    let t := s.exchApply q
    t.ctxs = s.ctxs ∧ Answered t q.id 0 0 ∧ HoldsDword t (s.plain a) q.kind.offer ∧
      HoldsDword t (s.plain q.pa + 8) (BitVec.ofNat 64 ((s.exchDesc q).count + 1 + 2 ^ 32 * (s.exchDesc q).head)) ∧
      SameBut s t [s.plain a, s.plain q.pa + 8] := by
  have hplace : s.plain (q.pa + 8) = s.plain q.pa + 8 := s.plain_add (by omega)
  rw [State.exchApply_of_push hpoison hpush h, ← hplace]
  rw [← hplace] at hapart
  generalize BitVec.ofNat 64 ((s.exchDesc q).count + 1 + 2 ^ 32 * (s.exchDesc q).head) = v
  have hkeeps := KeepsPlaces.homeDword hlog q.asid a q.kind.offer
  obtain ⟨hvalue, hsame⟩ := State.homeDword_writes hlog q.asid a q.kind.offer
  generalize s.homeDword q.asid a q.kind.offer = u at hkeeps hvalue hsame
  have hkeeps' := hkeeps.trans (KeepsPlaces.homeDword (hkeeps.unlogged hlog) q.asid (q.pa + 8) v)
  obtain ⟨hdesc, hsame'⟩ := State.homeDword_writes (hkeeps.unlogged hlog) q.asid (q.pa + 8) v
  rw [hkeeps.plain] at hdesc hsame'
  have hvalue' := hsame'.holdsDword hvalue (by simpa only [hkeeps.canon] using hapart)
  obtain ⟨hctxs, -⟩ := State.aside_exchDone (s := u.homeDword q.asid (q.pa + 8) v) hext 0 0
  have hbyte := State.byte_exchDone (s := u.homeDword q.asid (q.pa + 8) v) hext 0 0
  exact ⟨hctxs.trans hkeeps'.ctxs, State.answered_exchDone hext (hkeeps'.req _ hreq) 0 0, hvalue'.congr hbyte, hdesc.congr hbyte,
    (hsame.trans hsame' hkeeps.canon).congr hbyte⟩

/-- A pop reads its element, and writes the descriptor's second doubleword. -/
theorem State.exchApply_pop {a : Nat} (hpop : q.kind.isPush = false) (h : (s.exchDesc q).elem q.pa q.page false = some a) :
    let t := s.exchApply q
    t.ctxs = s.ctxs ∧ Answered t q.id 0 (s.dword a) ∧
      HoldsDword t (s.plain q.pa + 8) (BitVec.ofNat 64 ((s.exchDesc q).count - 1 + 2 ^ 32 * (s.exchDesc q).popAt.2)) ∧
      SameBut s t [s.plain q.pa + 8] := by
  have hplace : s.plain (q.pa + 8) = s.plain q.pa + 8 := s.plain_add (by omega)
  rw [State.exchApply_of_pop hpoison hpop h, ← hplace]
  generalize BitVec.ofNat 64 ((s.exchDesc q).count - 1 + 2 ^ 32 * (s.exchDesc q).popAt.2) = v
  have hkeeps := KeepsPlaces.homeDword hlog q.asid (q.pa + 8) v
  obtain ⟨hdesc, hsame⟩ := State.homeDword_writes hlog q.asid (q.pa + 8) v
  obtain ⟨hctxs, -⟩ := State.aside_exchDone (s := s.homeDword q.asid (q.pa + 8) v) hext 0 (s.dword a)
  have hbyte := State.byte_exchDone (s := s.homeDword q.asid (q.pa + 8) v) hext 0 (s.dword a)
  exact ⟨hctxs.trans hkeeps.ctxs, State.answered_exchDone hext (hkeeps.req _ hreq) 0 _, hdesc.congr hbyte, hsame.congr hbyte⟩

end Apply

/-- A packet stands at its home with its line present, first of its object, or has been taken from the slice's queue. -/
def AtHomeSlice (s : State) (id : Nat) (q : Req) (step age : Nat) : Prop :=
  (q.stage = .atSwitch step age ∧ s.exchHere q step age = true ∧ (s.slice q.home (s.sliceOfReq q)).full q = false ∧
      s.inL2 (s.lineOf q.pa) = true) ∨
    (q.stage = .queued ∧ id ∉ (s.slice q.home (s.sliceOfReq q)).queue)

theorem exec_exchangeApply_of_here {s : State} {id step age : Nat} {q : Req} (hreq : s.req id = some q) (hexch : q.kind.exch = true)
    (hhere : AtHomeSlice s id q step age) : exec (.exchangeApply id) s = .next (s.exchNow q) := by
  rcases hhere with ⟨hst, hfirst, hroom, hline⟩ | ⟨hst, hout⟩
  · simp only [exec, execExchangeApply, hreq, hst, hfirst, hroom, hline]
    rfl
  · have hqueue : (s.slice q.home (s.sliceOfReq q)).queue.contains id = false := by simpa using hout
    simp only [exec, execExchangeApply, hreq, hst, hexch, hqueue]
    rfl

/-- A packet of this module is applied by a state in which the lines that it touches are back, none is poisoned, and no write is logged. -/
structure Applies (s u : State) (q : Req) : Prop where
  exec : exec (.exchangeApply q.id) s = .next (u.exchApply q)
  recalled : Recalled s u
  poison : u.poison = []
  own : q.ext = none
  named : u.req q.id ≠ none
  unlogged : u.Unlogged

theorem exists_applies {s : State} {q : Req} {step age : Nat} (hreq : s.req q.id = some q) (hext : q.ext = none)
    (hexch : q.kind.exch = true) (hhere : AtHomeSlice s q.id q step age) (hpoison : s.poison = []) (hhost : HostFree s)
    (hlog : s.Unlogged) : ∃ u, Applies s u q := by
  obtain ⟨u, hclaim, hback⟩ := State.claimLines_of_hostFree hhost q.agent (s.exchLines q)
  have hnow : s.exchNow q = u.exchApply q := by simp only [State.exchNow, hclaim]
  exact ⟨u, (exec_exchangeApply_of_here hreq hexch hhere).trans (congrArg _ hnow), hback, hback.poison.trans hpoison, hext,
    hback.keepsPlaces.req _ (by simp [hreq]), hback.keepsPlaces.unlogged hlog⟩

section Applies

variable {s u : State} {q : Req} (h : Applies s u q)
include h

/-- With no element the packet gets status 2 for a malformed object and 1 for a full or empty one. -/
theorem Applies.refuses (hnone : (s.exchDesc q).elem q.pa q.page q.kind.isPush = none) :
    Runs (.exchangeApply q.id) s fun t =>
      Aside s t ∧ Answered t q.id (if (s.exchDesc q).bad (q.pa % q.page) q.page then 2 else 1) 0 := by
  obtain ⟨hexec, hback, hpoison, hext, hreq, -⟩ := h
  rw [← hback.exchDesc] at hnone ⊢
  obtain ⟨⟨hctxs, hmem⟩, hanswer⟩ := State.exchApply_refuses hpoison hext hreq hnone
  obtain ⟨hctxs', hmem'⟩ := hback.aside
  exact runs_of_exec hexec ⟨⟨hctxs.trans hctxs', hmem.trans hmem'⟩, hanswer⟩

variable (halign : q.pa % 128 = 0) {a : Nat}
include halign

theorem Applies.push (hpush : q.kind.isPush = true) (helem : (s.exchDesc q).elem q.pa q.page true = some a)
    (hapart : ∀ i j, i < 8 → j < 8 → s.canon (s.plain a + i) ≠ s.canon (s.plain q.pa + 8 + j)) :
    Runs (.exchangeApply q.id) s fun t => t.ctxs = s.ctxs ∧ Answered t q.id 0 0 ∧ HoldsDword t (s.plain a) q.kind.offer ∧
      HoldsDword t (s.plain q.pa + 8) (BitVec.ofNat 64 ((s.exchDesc q).count + 1 + 2 ^ 32 * (s.exchDesc q).head)) ∧
      SameBut s t [s.plain a, s.plain q.pa + 8] := by
  obtain ⟨hexec, hback, hpoison, hext, hreq, hlog⟩ := h
  have hplaces := hback.keepsPlaces
  have hpushed := State.exchApply_push hpoison hext hreq hlog halign hpush (by rwa [hback.exchDesc])
    (by simpa only [hplaces.canon, hplaces.plain] using hapart)
  simp only [hplaces.plain, hback.exchDesc] at hpushed
  obtain ⟨hctxs, hanswer, hvalue, hcount, hsame⟩ := hpushed
  exact runs_of_exec hexec ⟨hctxs.trans hplaces.ctxs, hanswer, hvalue, hcount, hback.sameBut hsame⟩

theorem Applies.pop (hpop : q.kind.isPush = false) (helem : (s.exchDesc q).elem q.pa q.page false = some a) :
    Runs (.exchangeApply q.id) s fun t => t.ctxs = s.ctxs ∧ Answered t q.id 0 (s.dword a) ∧
      HoldsDword t (s.plain q.pa + 8) (BitVec.ofNat 64 ((s.exchDesc q).count - 1 + 2 ^ 32 * (s.exchDesc q).popAt.2)) ∧
      SameBut s t [s.plain q.pa + 8] := by
  obtain ⟨hexec, hback, hpoison, hext, hreq, hlog⟩ := h
  have hplaces := hback.keepsPlaces
  have hpopped := State.exchApply_pop hpoison hext hreq hlog halign hpop (by rwa [hback.exchDesc])
  simp only [hplaces.plain, hback.exchDesc, State.dword_congr hback.byte] at hpopped
  obtain ⟨hctxs, hanswer, hcount, hsame⟩ := hpopped
  exact runs_of_exec hexec ⟨hctxs.trans hplaces.ctxs, hanswer, hcount, hback.sameBut hsame⟩

end Applies

/-- Settles O33: at a switch the packet's mates, its window and the buckle's room decide; at the home its lines come back, which changes
nothing that the application reads, and the descriptor decides. -/
theorem exchangePacketEvents : Obligations.ExchangePacketEvents := by
  intro s id step age hub net q hreq hext hpeer at_ here mates room kept done goesOn
  obtain rfl := State.id_of_req hreq
  have harrives : at_ → Arrives s q.id q step age hub net :=
    fun ⟨hstands, hfree, honRoute⟩ => ⟨hreq, hstands, hfree, honRoute⟩
  refine ⟨fun hat hnone hwin hroom => (harrives hat).waits hnone hwin hroom,
    fun hat hnone hnot => (harrives hat).goesOn hnone hpeer hnot,
    fun w hat hw hfirst hreqw hextw hne => (harrives hat).meets hw hfirst hext hreqw hextw hne,
    fun hst => runs_of_exec (exec_windowExpiry_of_waits hreq hst) (State.depart_goesOn hpeer (by simp [hreq]) step), ?_⟩
  rintro _ _ _ _ rfl rfl rfl rfl hhere hexch hpoison hhost hlog
  intro wrong at_ stores others apart put take desc
  obtain ⟨u, happlies⟩ := exists_applies hreq hext hexch hhere hpoison hhost hlog
  have hbad : (s.exchDesc q).bad (q.pa % q.page) q.page = true ↔ wrong := ExchDesc.bad_iff
  have hsound (h : ¬ wrong) : (s.exchDesc q).bad (q.pa % q.page) q.page = false := Bool.eq_false_iff.mpr (mt hbad.mp h)
  refine ⟨fun hwrong => ?wrong, fun hgood halign => ⟨fun hpush hfull => ?full, fun hpop hempty => ?empty,
    fun hpush hroom hapart => ?push, fun hpop hsome => ?pop⟩⟩
  case wrong =>
    have hrefused := happlies.refuses (ExchDesc.elem_of_bad (hbad.mpr hwrong))
    rwa [if_pos (hbad.mpr hwrong)] at hrefused
  case full =>
    have hrefused := happlies.refuses (hpush ▸ ExchDesc.elem_of_full (hsound hgood) hfull)
    rwa [if_neg (mt hbad.mp hgood)] at hrefused
  case empty =>
    have hrefused := happlies.refuses (hpop ▸ ExchDesc.elem_of_empty (hsound hgood) hempty)
    rwa [if_neg (mt hbad.mp hgood)] at hrefused
  case push => exact happlies.push halign hpush (ExchDesc.elem_of_push (hsound hgood) hroom) hapart
  case pop =>
    have hpopped := happlies.pop halign hpop (ExchDesc.elem_of_pop (hsound hgood) hsome)
    rwa [ExchDesc.popAt_fst, ExchDesc.popAt_snd] at hpopped

end Sys2Proof.Machine

/-! # Where a vector instruction traps before it runs (O20) -/

namespace Sys2Proof.Machine

/-- A floating vector instruction's lanes stand behind one guard, whatever the element type. -/
theorem State.vfp_eq_vguard (s : State) (y : VTy) (v : BitVec 4) (x b c : List W32) (g k : BitVec 2)
    (f : Fmt → Nat → Nat → Nat → Nat) : ∃ t, s.vfp y v x b c g k f = s.vguard g t := by
  cases y <;> exact ⟨_, rfl⟩

/-- A vector instruction that does not pass its checks stands behind the guard of its gang offset: `vins` alone looks at its
lane number first, and only with a claim (R314). -/
theorem exec_eq_vguard {i : Instr} {s : State} {g : BitVec 2} (h : vectorOffset i = some g) (hfail : s.vcheck g ≠ none) :
    ∃ t, exec i s = s.vguard g t := by
  cases i <;> cases h
  case vfadd | vfsub | vfmul | vfmin | vfmax | vfma | vfms =>
    dsimp only [exec]
    exact State.vfp_eq_vguard ..
  case vfcmp y _ => cases y <;> exact ⟨_, rfl⟩
  case vins =>
    have hclaim : s.c.claim = 0 := by
      by_contra hne
      exact hfail (by simp [State.vcheck, hne])
    exact ⟨_, if_neg fun hlane => hlane.1 hclaim⟩
  all_goals exact ⟨_, rfl⟩

section

variable {i : Instr} {s : State} {g : BitVec 2} (hi : vectorOffset i = some g) (hmay : MayTrap s)
include hi hmay

/-- The claim's checks end in cause 0x0D. -/
theorem MayTrap.vector_traps (h : s.vcheck g = some 0x0D) : Traps i s 0x0D 0 := by
  obtain ⟨t, ht⟩ := exec_eq_vguard hi (by rw [h]; nofun)
  exact hmay.traps_of_exec (by decide) (ht.trans (by simp [State.vguard, h]))

/-- The gang's check makes the word illegal, with the word itself in TVAL outside a dictionary bundle. -/
theorem MayTrap.vector_illegal (h : s.vcheck g = some 0x02) (hdict : s.issue.dict = none) :
    Traps i s 0x02 (BitVec.ofNat 64 s.issue.word.toNat) := by
  obtain ⟨t, ht⟩ := exec_eq_vguard hi (by rw [h]; nofun)
  exact hmay.traps_of_exec (by decide) (ht.trans (by simp [State.vguard, h, State.illegal, hdict, BitVec.ofNat_toNat]))

end

/-- Settles O20: the checks of `State.vcheck` come in the order gang, claim, member, and the first that fails decides. -/
theorem vectorChecksTrap : Obligations.VectorChecksTrap := by
  intro s i g hi hmay hdict
  refine ⟨fun hg hgang => ?gang, fun hg hclaim => ?claim, fun hg hgang hmember => ?member⟩
  case gang => exact hmay.vector_illegal hi (by rw [State.vcheck, if_pos ⟨hg, by simp [hgang]⟩]) hdict
  case claim =>
    have hin : ¬ (g ≠ 0 ∧ (!s.c.gang) = true) := fun ⟨hne, hout⟩ => by
      rcases hg with rfl | hgang
      · exact hne rfl
      · simp [hgang] at hout
    exact hmay.vector_traps hi (by rw [State.vcheck, if_neg hin, if_pos hclaim])
  case member =>
    have hin : ¬ (g ≠ 0 ∧ (!s.c.gang) = true) := by simp [hgang]
    exact hmay.vector_traps hi (by rw [State.vcheck, if_neg hin, if_pos (c := g ≠ 0 ∧ _) ⟨hg, hmember⟩, ite_self])

end Sys2Proof.Machine

/-! # Arrivals at and waits for girth barriers (O32)

An arrival sets a bit of the die's arrivals and records the phase in the context; the reports that become due touch neither. -/

namespace Sys2Proof.Machine

/-! ### Reports of a die (R298) -/

/-- What a die's reports leave alone: the contexts, the bundle in issue, every byte of memory, and the arrivals of each die. -/
structure KeepsArrivals (s t : State) : Prop where
  ctxs : t.ctxs = s.ctxs
  cur : t.cur = s.cur
  issue : t.issue = s.issue
  byte : ∀ x, t.byte x = s.byte x
  arrivals : ∀ site, (t.die site).girthArr = (s.die site).girthArr

namespace KeepsArrivals

variable {s t u : State}

theorem refl (s : State) : KeepsArrivals s s := ⟨rfl, rfl, rfl, fun _ => rfl, fun _ => rfl⟩

theorem trans (h : KeepsArrivals s t) (h' : KeepsArrivals t u) : KeepsArrivals s u :=
  ⟨h'.ctxs.trans h.ctxs, h'.cur.trans h.cur, h'.issue.trans h.issue, fun x => (h'.byte x).trans (h.byte x),
    fun i => (h'.arrivals i).trans (h.arrivals i)⟩

theorem ite {p : Prop} [Decidable p] (h : KeepsArrivals s t) (h' : KeepsArrivals s u) : KeepsArrivals s (if p then t else u) := by
  split
  · exact h
  · exact h'

theorem foldl {α : Type} {f : State → α → State} (hf : ∀ s x, KeepsArrivals s (f s x)) (l : List α) (s : State) :
    KeepsArrivals s (l.foldl f s) := by
  induction l generalizing s with
  | nil => exact refl s
  | cons x l ih => exact (hf s x).trans (ih _)

theorem modDie (s : State) (site : Nat) {f : Die → Die} (hf : ∀ d, (f d).girthArr = d.girthArr) : KeepsArrivals s (s.modDie site f) := by
  refine ⟨rfl, rfl, rfl, State.byte_congr rfl rfl rfl, fun i => ?_⟩
  by_cases h : i = site
  · rw [h, State.die_modDie_self, hf]
  · rw [State.die_modDie_of_ne _ f h]

theorem emit (s : State) (o : Out) : KeepsArrivals s (s.emit o) := ⟨rfl, rfl, rfl, State.byte_congr rfl rfl rfl, fun _ => rfl⟩

theorem addMcasts (s : State) (l : List Mcast) (n : Nat) : KeepsArrivals s { s with mcasts := l, nextId := n } :=
  ⟨rfl, rfl, rfl, State.byte_congr rfl rfl rfl, fun _ => rfl⟩

theorem mcastSend (s : State) (site : Nat) (msg : McastMsg) (dests : List Nat) : KeepsArrivals s (s.mcastSend site msg dests) :=
  (ite (refl s) (addMcasts s _ _)).trans (foldl (fun u _ => addMcasts u _ _) _ _)

theorem greport (s : State) (site g : Nat) : KeepsArrivals s (s.greport site g) := by
  have hmark (u : State) (x : Nat) : KeepsArrivals u (u.modDie site fun d => { d with barrier := d.barrier ++ [(g, x)] }) :=
    modDie u site fun _ => rfl
  have hdies := ite (p := (s.gspans site g && (s.die site).gfull g && !(s.die site).reported g site) = true)
    ((hmark s site).trans (mcastSend _ site (.barrier g site) ((s.gdies site g).filter (· != site)))) (refl s)
  refine hdies.trans (ite (foldl (fun u m => ite (refl u) (ite ?_ ?_)) _ _) (refl _))
  · exact (emit u _).trans (hmark _ _)
  · exact (hmark u _).trans (hmark _ _)

theorem c (h : KeepsArrivals s t) : t.c = s.c := by rw [State.c, State.c, State.ctx, State.ctx, h.ctxs, h.cur]

end KeepsArrivals

/-! ### Arrivals (R193, R194) -/

/-- The context has arrived in the open phase of group `n`: it holds the phase bit, and the phase has not flipped since. -/
def Ctx.arrived (c : Ctx) (d : Die) (n : Nat) : Ctx :=
  let m : BitVec 8 := 1#8 <<< n
  { c with girthRec := (c.girthRec &&& ~~~m) ||| (d.girthPhase &&& m), girthFlip := c.girthFlip &&& ~~~m }

/-- The core of the context in issue has arrived in group `n`, and nothing else that a program sees has changed. -/
def HasArrived (s t : State) (n : Nat) : Prop :=
  (t.die s.cur.site).garrived n s.cur.core = true ∧ t.c = s.c.arrived (s.die s.cur.site) n ∧ t.issue = s.issue ∧
    (∀ r, CtxRef.key r ≠ CtxRef.key s.cur → t.ctx r = s.ctx r) ∧ ∀ x, t.byte x = s.byte x

/-- The die with a core's arrival in group `n`. -/
def Die.arrive (d : Die) (n core : Nat) : Die :=
  { d with girthArr := Table.put d.girthArr (4 * n + core / 64) (d.garr n (core / 64) ||| (1#64 <<< (core % 64))) }

theorem Die.garrived_arrive (d : Die) (n core : Nat) : (d.arrive n core).garrived n core = true := by
  simp [Die.garrived, Die.arrive, Die.garr, bit, Nat.mod_lt core (show 0 < 64 by decide)]

theorem State.arriveGo_of_arrived {s : State} {g : BitVec 3} (h : (s.die s.cur.site).garrived g.toNat s.cur.core = true) :
    s.arriveGo g = s.await (.arrive g) := if_pos h

theorem State.arriveGo_hasArrived {s : State} {g : BitVec 3} (h : (s.die s.cur.site).garrived g.toNat s.cur.core = false) :
    HasArrived s (s.arriveGo g) g.toNat := by
  let n := g.toNat
  let u := s.modDie s.cur.site fun d => d.arrive n s.cur.core
  let v := u.modC fun c => c.arrived (s.die s.cur.site) n
  have hgo : s.arriveGo g = v.greport s.cur.site n := if_neg (by simp [h])
  have hkeeps : KeepsArrivals v (s.arriveGo g) := hgo ▸ KeepsArrivals.greport v s.cur.site n
  refine ⟨?_, hkeeps.c.trans (u.c_modC _), hkeeps.issue, fun r hr => ?_, fun x => (hkeeps.byte x).trans (State.byte_congr rfl rfl rfl x)⟩
  · have hdie : v.die s.cur.site = (s.die s.cur.site).arrive n s.cur.core :=
      s.die_modDie_self s.cur.site fun d => d.arrive n s.cur.core
    rw [Die.garrived, Die.garr, hkeeps.arrivals, hdie]
    exact Die.garrived_arrive _ n s.cur.core
  · have hctx : (s.arriveGo g).ctx r = v.ctx r := by rw [State.ctx, State.ctx, hkeeps.ctxs]
    exact hctx.trans (u.ctx_modC_of_ne _ hr)

/-- With no UNBOUND line in the die's cache, the fence that a spanning group's arrival is leaves the arrival as it is. -/
theorem State.arriveGo_rdcUnbound_hasArrived {s : State} {g : BitVec 3} (hnone : NoUnbound s)
    (h : (s.die s.cur.site).garrived g.toNat s.cur.core = false) :
    HasArrived s ((s.rdcUnbound s.cur.site).arriveGo g) g.toNat := by
  let u := s.rdcUnbound s.cur.site
  have htraffic : Traffic s u := Traffic.rdcUnbound s s.cur.site
  have hgone : ∀ l ∈ (s.die s.cur.site).rdc, decide (l.tag = none) = false := fun l hl => by simpa using hnone l hl
  have hu : u.dies = (s.modDie s.cur.site fun d => { d with rdc := d.rdc.filter fun l => !decide (l.tag = none) }).dies := by
    simp only [u, State.rdcUnbound, State.rdcEvict_of_none hgone]
    rfl
  have hdie : u.die s.cur.site = { s.die s.cur.site with rdc := (s.die s.cur.site).rdc.filter fun l => !decide (l.tag = none) } := by
    rw [State.die, hu]
    exact s.die_modDie_self _ _
  have harr : (u.die u.cur.site).garrived g.toNat u.cur.core = false := by
    rw [htraffic.cur, hdie]
    exact h
  obtain ⟨hin, hc, hissue, hctx, hbyte⟩ := State.arriveGo_hasArrived harr
  rw [htraffic.cur] at hin hc hctx
  refine ⟨hin, hc.trans ?_, hissue.trans htraffic.issue, fun r hr => (hctx r hr).trans ?_,
    fun x => (hbyte x).trans (State.byte_rdcUnbound hnone x)⟩
  · rw [htraffic.c, hdie]
    rfl
  · rw [State.ctx, State.ctx, htraffic.ctxs]

/-! ### The instructions -/

/-- The context in issue waits, and its bundle executes again. -/
theorem State.await_waitsFor (s : State) (w : Wait) : WaitsFor s (s.await w) w := by
  let u := s.modC fun c => { c with wait := w }
  have hu : u.c = { s.c with wait := w } := s.c_modC _
  have hl := u.leave_leaves s.cur .waiting
  have hc : (s.await w).c = { u.c with st := .waiting } := (congrArg _ hl.cur).trans hl.ctx
  exact ⟨by rw [hc, hu], rfl, fun x => (State.byte_flow _ _ x).trans ((hl.byte x).trans (State.byte_congr rfl rfl rfl x))⟩

theorem State.girth_of_member {s : State} {g : BitVec 3} (h : (s.die s.cur.site).gmember g.toNat s.cur.core = true) (f : State) :
    s.girth g f = .next f := if_pos h

theorem MayTrap.girth_traps {s : State} (hmay : MayTrap s) {i : Instr} {g : BitVec 3} {f : State}
    (h : ¬ (s.die s.cur.site).gmember g.toNat s.cur.core = true) (hexec : exec i s = s.girth g f) :
    Traps i s 0x09 (BitVec.ofNat 64 g.toNat) := by
  have hv : g.setWidth 64 = BitVec.ofNat 64 g.toNat := by simp [BitVec.ofNat_toNat]
  exact hmay.traps_of_exec (by decide) (hexec.trans (hv ▸ if_neg h))

/-- The group has members on no other die and on no peer module. -/
def State.girthAlone (s : State) (n : Nat) : Prop := s.gspans s.cur.site n = false ∧ s.gmods s.cur.site n = []

/-- The context's writes are performed, for a spanning group all that it has issued (R195). -/
def State.arrivalClear (s : State) (n : Nat) : Prop :=
  s.c.ocs = 0 ∧ s.c.occ = 0 ∧ s.parked s.cur = [] ∧ (s.girthAlone n ∨ s.awaiting s.cur = false)

theorem State.girthAlone_iff {s : State} {n : Nat} :
    s.girthAlone n ↔ (s.gspans s.cur.site n || !(s.gmods s.cur.site n).isEmpty) = false := by
  simp [State.girthAlone]

theorem exec_arriveSs (s : State) (g : BitVec 3) :
    exec (.arriveSs g) s = s.girth g (if s.c.ocs ≠ 0 ∨ s.c.occ ≠ 0 ∨ !(s.parked s.cur).isEmpty ∨
        ((s.gspans s.cur.site g.toNat || !(s.gmods s.cur.site g.toNat).isEmpty) && s.awaiting s.cur) then s.flow .stall
      else if s.gspans s.cur.site g.toNat || !(s.gmods s.cur.site g.toNat).isEmpty then (s.rdcUnbound s.cur.site).arriveGo g
      else s.arriveGo g) := rfl

theorem State.arrivalClear_iff {s : State} {n : Nat} :
    s.arrivalClear n ↔ ¬ (s.c.ocs ≠ 0 ∨ s.c.occ ≠ 0 ∨ !(s.parked s.cur).isEmpty ∨
      ((s.gspans s.cur.site n || !(s.gmods s.cur.site n).isEmpty) && s.awaiting s.cur)) := by
  rw [State.arrivalClear, State.girthAlone_iff]
  cases (s.gspans s.cur.site n || !(s.gmods s.cur.site n).isEmpty) <;> simp

/-- What a `waitb` does once its wait is over, or that of its phase. -/
abbrev State.waitbPassed (s : State) (g : BitVec 3) : State :=
  if s.gspans s.cur.site g.toNat ∨ s.gmods s.cur.site g.toNat ≠ [] then s.unfire.rdcUnbound s.cur.site else s.unfire

theorem exec_waitb_of_not_fired {s : State} (g : BitVec 3) (h : s.c.fired = none) :
    exec (.waitb g) s = s.girth g (if s.c.girthFlip.getLsbD g.toNat then s.waitbPassed g else s.await (.waitb g)) :=
  if_neg (by simp [h])

theorem exec_waitb_of_alone {s : State} {g : BitVec 3} (h : s.girthAlone g.toNat) :
    exec (.waitb g) s = if s.c.fired.isSome then .next s.unfire
      else s.girth g (if s.c.girthFlip.getLsbD g.toNat then s.unfire else s.await (.waitb g)) := by
  obtain ⟨hspans, hmods⟩ := h
  have hpassed : s.waitbPassed g = s.unfire := if_neg (by simp [hspans, hmods])
  conv_rhs => rw [← hpassed]
  rfl

/-- Settles O32: `State.girth` makes the membership check, `State.arriveGo` arrives or waits, and `arrive.ss` and `waitb` stall or go
on before it. -/
theorem barrierInstructionResults : Obligations.BarrierInstructionResults := by
  intro s g n die member m here alone arrives clear
  have harrives {i : Instr} {t : State} (h : exec i s = .next t) (ht : HasArrived s t n) : arrives i := runs_of_exec h ht
  refine ⟨fun hmem hout => harrives (State.girth_of_member hmem _) (State.arriveGo_hasArrived hout), fun hmem hin => ?again,
    fun hmem hout hclear hrdc => ?arriveSs, fun hmem hbusy => ?stall, fun halone hover => ?waitbOver, fun hmem hfired hflip => ?waitb,
    fun hmem hmay => ?outsider⟩
  case again =>
    exact runs_of_exec ((State.girth_of_member hmem _).trans (congrArg _ (State.arriveGo_of_arrived hin))) (s.await_waitsFor _)
  case arriveSs =>
    have hexec := (exec_arriveSs s g).trans ((State.girth_of_member hmem _).trans
      (congrArg _ (if_neg (State.arrivalClear_iff.mp hclear))))
    by_cases halone : alone
    · rw [State.girthAlone_iff.mp halone] at hexec
      exact harrives hexec (State.arriveGo_hasArrived hout)
    · have hspans := eq_true_of_ne_false (mt State.girthAlone_iff.mpr halone)
      rw [hspans] at hexec
      exact harrives hexec (State.arriveGo_rdcUnbound_hasArrived (hrdc.resolve_left halone) hout)
  case stall =>
    exact givesF_stall_of_exec ((exec_arriveSs s g).trans ((State.girth_of_member hmem _).trans
      (congrArg _ (if_pos (not_not.mp (mt State.arrivalClear_iff.mpr hbusy))))))
  case waitbOver =>
    have hexec : exec (.waitb g) s = .next s.unfire := by
      rw [exec_waitb_of_alone halone]
      rcases hover with hfired | ⟨hmem, hflip⟩
      · rw [if_pos (Option.isSome_iff_ne_none.mpr hfired)]
      · rw [State.girth_of_member hmem, if_pos hflip, ite_self]
    exact runs_of_exec hexec ⟨s.c_modC _, rfl, fun r hr => s.ctx_modC_of_ne _ hr, s.byte_modC _⟩
  case waitb =>
    exact runs_of_exec ((exec_waitb_of_not_fired g hfired).trans ((State.girth_of_member hmem _).trans
      (congrArg _ (if_neg (by simp [n, hflip]))))) (s.await_waitsFor _)
  case outsider =>
    exact ⟨hmay.girth_traps hmem rfl, hmay.girth_traps hmem (exec_arriveSs s g),
      fun hfired => hmay.girth_traps hmem (exec_waitb_of_not_fired g hfired)⟩

end Sys2Proof.Machine

/-! # Results of the special-function unit for a PREEMPTED context (O36)

The statement has a scalar result write the destination register and no byte of memory. A context that is PREEMPTED has its registers in its
save area (R375), where a result is spilled as well: one comes for such a context when its recorded requests went back to the queue, as it is
to move to another core (R326, R386; log entry 70). -/

namespace Sys2Proof.Machine

/-- A started request for the reciprocal of 2.0 into g1. -/
def startedReciprocal : SfuReq where
  who := ⟨0, 0, 0⟩
  fn := .rcp
  a := 0x40000000
  b := 0
  d := 1
  rel := none
  acq := false
  scope := .core
  started := true
  next := 0
  job := 0
  drop := false

/-- The reset state, but for context 0 of core 0, which is PREEMPTED, and its request at the head of its octet's queue. -/
def statePreemptedWithRequest : State := { State.reset with
  ctxs := [(0, { Ctx.reset with st := .preempted })]
  octets := [(0, { Octet.reset with sfuq := [startedReciprocal] })] }

/-- Where the save area holds the predicates (R376). -/
abbrev savedFlags : Nat := savePa ⟨0, 0, 0⟩ 0x170

theorem byte_statePreemptedWithRequest : statePreemptedWithRequest.byte savedFlags = 0 := by decide

/-- The spill of the result writes the predicates too, of which p0 is 1. -/
theorem runs_sfuResult_statePreemptedWithRequest :
    Runs (.sfuResult 0 0) statePreemptedWithRequest fun t => t.byte savedFlags = 1 :=
  ⟨statePreemptedWithRequest.sfuDone 0 0 startedReciprocal (BitVec.ofNat 64 (sfuFp32 .rcp 0x40000000)), rfl, by decide +kernel⟩

/-- Refutes O36: in `statePreemptedWithRequest` the model spills the result into the save area, and the statement has every byte of memory
stay as it was. -/
theorem not_laneClaimAndSfuResults : ¬ Obligations.LaneClaimAndSfuResults := by
  rintro ⟨-, h⟩
  obtain ⟨-, -, -, hresult⟩ := h statePreemptedWithRequest 0 0 0 .core false false .rcp 0 0
  obtain ⟨hscalar, -⟩ := hresult startedReciprocal [] rfl rfl
  obtain ⟨t, hexec, -, hbyte⟩ := hscalar (by decide)
  obtain ⟨u, hexec', hspilled⟩ := runs_sfuResult_statePreemptedWithRequest
  obtain rfl : t = u := Host.Outcome.next.inj (hexec.symm.trans hexec')
  have hkept := hbyte savedFlags
  rw [hspilled, byte_statePreemptedWithRequest] at hkept
  exact absurd hkept (by decide)

end Sys2Proof.Machine

/-! # Halts beside a gang that is about to form (O43)

The statement has a `halt` leave everything of its context but the fields that it names. What a `halt` does to the quad reaches further:
a partner whose `gang` is complete takes cause 0x22 (R184), and a cause that becomes pending in a member of a gang abandons the waits of
all its members, which ends their dictionary bundles (R181; log entry 76). Where that partner is marked as in a gang already, the context
that halts is one of the members. -/

namespace Sys2Proof.Machine

/-- The reset state, but for three contexts of a quad: context 0 of core 0 runs, between two slots of a dictionary bundle; that of core 1 is
in a gang, and waits for the others' `gang` to complete; that of core 2 waits. -/
def stateWithGangDonePartner : State := { State.reset with
  ctxs := [(0, { Ctx.reset with st := .running, mid := true }),
    (4, { Ctx.reset with st := .waiting, gang := true, wait := .gangDone }),
    (8, { Ctx.reset with st := .waiting })] }

theorem mid_stateWithGangDonePartner : stateWithGangDonePartner.c.mid = true := by decide

theorem runs_halt_stateWithGangDonePartner : Runs .halt stateWithGangDonePartner fun t => t.c.mid = false :=
  ⟨stateWithGangDonePartner.halt none, rfl, by decide +kernel⟩

/-- Refutes O43: in `stateWithGangDonePartner` the model's `halt` ends the dictionary bundle of its context as well, and the statement has
`mid` stay as it was. -/
theorem not_schedulingInstructionResults : ¬ Obligations.SchedulingInstructionResults := by
  intro h
  obtain ⟨-, -, ⟨t, hexec, hc, -⟩, -⟩ := h stateWithGangDonePartner 0 0
  obtain ⟨u, hexec', hended⟩ := runs_halt_stateWithGangDonePartner
  obtain rfl : t = u := Host.Outcome.next.inj (hexec.symm.trans hexec')
  have hkept : t.c.mid = stateWithGangDonePartner.c.mid := by rw [hc]
  rw [hended, mid_stateWithGangDonePartner] at hkept
  exact Bool.false_ne_true hkept

end Sys2Proof.Machine

/-! # The events of a context (O46)

What happens to a context at an event is read off the one operation that the event ends in; what that operation does to other contexts, to
cores and to octets is said by frames. -/

namespace Sys2Proof.Machine

/-! ### Contexts that go on (R178, R179, R181) -/

theorem State.ctx_of_key {s : State} {q r : CtxRef} (h : CtxRef.key q = CtxRef.key r) : s.ctx q = s.ctx r := by
  rw [State.ctx, State.ctx, h]

/-- Of the machine only contexts, cores and octets have changed. -/
def Reschedules (s t : State) : Prop := t = { s with ctxs := t.ctxs, cores := t.cores, octets := t.octets }

namespace Reschedules

variable {s t u : State}

theorem refl (s : State) : Reschedules s s := rfl

theorem trans (h : Reschedules s t) (h' : Reschedules t u) : Reschedules s u := by
  rw [Reschedules] at h h' ⊢
  conv_lhs => rw [h', h]

theorem ite {p : Prop} [Decidable p] (h : Reschedules s t) (h' : Reschedules s u) : Reschedules s (if p then t else u) := by
  split
  · exact h
  · exact h'

theorem foldl {α : Type} {f : State → α → State} (hf : ∀ s x, Reschedules s (f s x)) (l : List α) (s : State) :
    Reschedules s (l.foldl f s) := by
  induction l generalizing s with
  | nil => exact refl s
  | cons x l ih => exact (hf s x).trans (ih _)

theorem modCtx (s : State) (r : CtxRef) (f : Ctx → Ctx) : Reschedules s (s.modCtx r f) := rfl

theorem modCore (s : State) (site core : Nat) (f : Core → Core) : Reschedules s (s.modCore site core f) := rfl

theorem modOctet (s : State) (site oct : Nat) (f : Octet → Octet) : Reschedules s (s.modOctet site oct f) := rfl

theorem modSlot (s : State) (site core i : Nat) (f : AccSlot → AccSlot) : Reschedules s (s.modSlot site core i f) := rfl

theorem mem (h : Reschedules s t) : t.mem = s.mem := by rw [h]

theorem sites (h : Reschedules s t) : t.sites = s.sites := by rw [h]

theorem hubs (h : Reschedules s t) : t.hubs = s.hubs := by rw [h]

theorem dies (h : Reschedules s t) : t.dies = s.dies := by rw [h]

theorem launches (h : Reschedules s t) : t.launches = s.launches := by rw [h]

theorem makeReady (s : State) (r : CtxRef) : Reschedules s (s.makeReady r) := by
  unfold State.makeReady
  dsimp only
  split <;> rfl

theorem passOwner (s : State) (site core c : Nat) : Reschedules s (s.passOwner site core c) := by
  unfold State.passOwner
  split <;> rfl

theorem leave (s : State) (r : CtxRef) (st : CtxState) : Reschedules s (s.leave r st) := by
  unfold State.leave
  extract_lets left parked
  have hparked : Reschedules s parked := ite rfl rfl
  exact ite (hparked.trans (passOwner ..)) hparked

theorem unpark (s : State) (r : CtxRef) : Reschedules s (s.unpark r) :=
  ite (refl s) (foldl (fun u m => ite (makeReady u m) (refl u)) _ s)

theorem rouse (s : State) (r : CtxRef) : Reschedules s (s.rouse r) :=
  ite (refl s) (ite ((modCtx s r _).trans (unpark _ r)) (makeReady s r))

theorem fire (s : State) (r : CtxRef) (v : Nat) : Reschedules s (s.fire r v) := (modCtx s r _).trans (rouse _ r)

theorem abandon (s : State) (ms : List CtxRef) : Reschedules s (s.abandon ms) :=
  ite (refl s) ((foldl (fun u m => modCtx u m _) ms s).trans (foldl rouse ms _))

theorem pendCause (s : State) (r : CtxRef) (code : Nat) (v : W64) : Reschedules s (s.pendCause r code v) :=
  ite (refl s) (ite (modCtx s r _) ((modCtx s r _).trans (abandon _ _)))

theorem waitOver (s : State) (r : CtxRef) : Reschedules s (s.waitOver r) := ite (modCtx s r _) (makeReady s r)

theorem gangLost (s : State) (r : CtxRef) : Reschedules s (s.gangLost r) :=
  foldl (fun u o => by
    dsimp only
    split
    · exact ite (fire u o 1) (refl u)
    · exact (waitOver u o).trans (pendCause _ o 0x22 1)
    · exact refl u) _ s

theorem reserve (s : State) (site oct : Nat) : Reschedules s (s.reserve site oct) :=
  foldl (fun u _ => ite (refl u) (modOctet u site oct _)) _ s

theorem reserveSlots (s : State) (r : CtxRef) : Reschedules s (s.reserveSlots r) :=
  ite (foldl (fun u (x : Nat × Nat) => modSlot u r.site r.core x.1 _) _ s) (refl s)

theorem settleRow (s : State) (site row : Nat) : Reschedules s (s.settleRow site row) :=
  foldl (fun u _ => ite (refl u) (modCore u site _ _)) _ s

theorem settleQuad (s : State) (site core : Nat) : Reschedules s (s.settleQuad site core) :=
  foldl (fun u row => settleRow u site row) _ s

end Reschedules

theorem State.ctx_makeReady_of_ne (s : State) {q r : CtxRef} (h : CtxRef.key q ≠ CtxRef.key r) : (s.makeReady r).ctx q = s.ctx q := by
  have hready := s.ctx_modCtx_of_ne (fun x => { x with st := .ready, wait := .none }) h
  unfold State.makeReady
  dsimp only
  split
  · exact hready
  · exact (State.ctx_modCtx_of_ne (State.modCtx s r _) (fun x => { x with st := .running }) h).trans hready

/-- A context that becomes READY takes its core where that has no owner. -/
theorem State.ctx_makeReady_self (s : State) (r : CtxRef) :
    (s.makeReady r).ctx r =
      { s.ctx r with st := if (s.core r.site r.core).owner = none then .running else .ready, wait := .none } := by
  have hready := s.ctx_modCtx_self r fun x => { x with st := .ready, wait := .none }
  unfold State.makeReady
  dsimp only
  split
  · next o ho =>
    have hcore : (s.core r.site r.core).owner = some o := ho
    rw [hready, hcore, if_neg nofun]
  · next ho =>
    have hcore : (s.core r.site r.core).owner = none := ho
    rw [hcore, if_pos rfl]
    exact (State.ctx_modCtx_self (State.modCtx s r _) r fun x => { x with st := .running }).trans (by rw [hready])

/-- The context can issue. -/
def Ctx.awake (c : Ctx) : Prop := c.st = .ready ∨ c.st = .running

theorem State.awake_makeReady (s : State) (r : CtxRef) : ((s.makeReady r).ctx r).awake := by
  rw [State.ctx_makeReady_self, Ctx.awake]
  dsimp only
  split
  · exact .inr rfl
  · exact .inl rfl

/-- Outside a gang the end of a wait makes its context READY. -/
theorem State.rouse_of_waiting {s : State} {r : CtxRef} (hgang : (s.ctx r).gang = false) (hst : (s.ctx r).st = .waiting)
    (hwait : (s.ctx r).wait ≠ .gangDone) : s.rouse r = s.makeReady r := by
  simp [State.rouse, hgang, hst, hwait]

/-- Outside a gang a wait that ends with a result leaves it in its context, which can issue. -/
theorem State.fire_of_waiting {s : State} {r : CtxRef} (hgang : (s.ctx r).gang = false) (hst : (s.ctx r).st = .waiting)
    (hwait : (s.ctx r).wait ≠ .gangDone) (v : Nat) :
    let t := s.fire r v
    (t.ctx r).fired = some v ∧ (t.ctx r).awake ∧ t.mem = s.mem := by
  let u := s.modCtx r fun c => { c with fired := some v }
  have hu : u.ctx r = { s.ctx r with fired := some v } := s.ctx_modCtx_self r _
  have hfire : s.fire r v = u.makeReady r :=
    State.rouse_of_waiting (by rw [hu]; exact hgang) (by rw [hu]; exact hst) (by rw [hu]; exact hwait)
  rw [hfire]
  exact ⟨by rw [State.ctx_makeReady_self, hu], u.awake_makeReady r, (Reschedules.makeReady u r).mem⟩

/-! ### Waits that end (R184, R291) -/

theorem exec_waitaTimeout_of_waiting {s : State} {r : CtxRef} {k : BitVec 3} (hst : (s.ctx r).st = .waiting)
    (hwait : (s.ctx r).wait = .waita k) (hk : k ≠ 0) : exec (.waitaTimeout r) s = .next (s.fire r 4) := by
  simp only [exec, execWaitaTimeout, hwait]
  rw [if_pos ⟨hk, hst⟩]

theorem exec_waitaTimeout_of_zero {s : State} {r : CtxRef} (hwait : (s.ctx r).wait = .waita 0) :
    exec (.waitaTimeout r) s = .next s := by
  simp [exec, execWaitaTimeout, hwait]

theorem Ctx.inWaita_of {c : Ctx} {k : BitVec 3} (hst : c.st = .waiting) (hwait : c.wait = .waita k) : c.inWaita = true := by
  simp [Ctx.inWaita, hst, hwait]

theorem exec_watchNotify_of_seen {s : State} {r : CtxRef} {i : Nat} (hin : (s.ctx r).inWaita = true)
    (hseen : s.firstWatch r (fun w => w.held && w.seen) = some i) : exec (.watchNotify r) s = .next (s.fire r i) := by
  simp [exec, execWatchNotify, hseen, hin]

theorem exec_watchPoll_of_differs {s : State} {r : CtxRef} {i : Nat} (hin : (s.ctx r).inWaita = true)
    (hready : s.watchReady r ((s.watches.filter fun w => w.who == r && !w.held).map (·.pa)) = (s, true))
    (hdiffers : s.firstWatch r (fun w => !w.held && s.watchValue w.pa != w.expect) = some i) :
    exec (.watchPoll r) s = .next (s.fire r i) := by
  simp [exec, execWatchPoll, hready, hdiffers, hin]

/-! ### Trap entry (R371, R372) -/

theorem State.ageEntries_of_noneParked {s : State} {r : CtxRef} (h : NoneParked s r) : s.ageEntries r = s := by
  refine if_neg ?_
  simp only [List.any_eq_true, Bool.and_eq_true, beq_iff_eq, not_exists, not_and, Bool.not_eq_true]
  exact h

/-- What R372 writes, outside a handler, with the context's own place as resume point. -/
theorem Ctx.enterTrap_of_not_inTrap {c : Ctx} (h : c.inTrap = false) (async : Bool) (code : Nat) (v : W64) :
    c.enterTrap async code v c.pc c.slot = { c with
      trappc := putBits c.pc 0 3 c.slot.toNat, tstat := (if c.sys then 3#64 else 2#64),
      tcause := BitVec.ofNat 64 (code % 64 + if async then 64 else 0), tval := v, sys := true, pc := putBits c.tvec 0 3 0, slot := 0,
      mid := false, walkFault := none, fired := none, handler := true, redo := false, ahead := none } := by
  cases hsys : c.sys <;> simp [Ctx.enterTrap, h, hsys]

section TakeTrap

variable {s : State} {r : CtxRef} (hin : (s.ctx r).inTrap = false) (hhidden : bits (s.die r.site).tqctl 0 3 = 0)
include hin hhidden

/-- Outside a handler a trap that the hub does not log enters the handler and ages the context's parked stores. -/
theorem State.takeTrap_eq (async store : Bool) (code : Nat) (v addr : W64) (slot : BitVec 2) :
    s.takeTrap r async store code v addr slot =
      (s.setCtx r ((s.ctx r).enterTrap async code v addr slot)).ageEntries r := by
  have hbit (i : Nat) (hi : i < 3) : bit (s.die r.site).tqctl i = false :=
    bit_eq_false_of_bits_eq_zero hhidden (Nat.zero_le i) (by omega)
  have hage (u : State) : (u.ageEntries r).dies = u.dies := by
    unfold State.ageEntries
    split <;> rfl
  have hlog (u : State) (pc : W64) (hu : u.die r.site = s.die r.site) : u.logTrap r store code v pc = u := by
    refine if_neg ?_
    simp [hu, hbit 0 (by omega), hbit 1 (by omega), hbit 2 (by omega)]
  simp only [State.takeTrap]
  rw [if_neg (by simp [hin]), hlog _ _ (by rw [State.die, hage]; rfl)]

end TakeTrap

theorem lowestCause_mem {l : List (Nat × W64)} {x : Nat × W64} (h : lowestCause l = some x) : x ∈ l := by
  induction l generalizing x with
  | nil => cases h
  | cons y l ih =>
    rw [lowestCause] at h
    split at h
    · next z hz =>
      split at h
      · exact List.mem_cons_of_mem y (ih (hz.trans h))
      · exact Option.some.inj h ▸ List.mem_cons_self
    · exact Option.some.inj h ▸ List.mem_cons_self

/-- A first cause that no later one undercuts is the lowest. -/
theorem lowestCause_cons {x : Nat × W64} {l : List (Nat × W64)} (h : ∀ y ∈ l, x.1 ≤ y.1) : lowestCause (x :: l) = some x := by
  rw [lowestCause]
  split
  · next y hy => exact if_neg (Nat.not_lt.mpr (h y (lowestCause_mem hy)))
  · rfl

/-- A pending cause with a code below all others is the lowest. -/
theorem lowestCause_of_lowest {x : Nat × W64} {l : List (Nat × W64)} (hx : x ∈ l) (h : ∀ y ∈ l, y = x ∨ x.1 < y.1) :
    lowestCause l = some x := by
  induction l with
  | nil => cases hx
  | cons y l ih =>
    have htail : ∀ z ∈ l, z = x ∨ x.1 < z.1 := fun z hz => h z (List.mem_cons_of_mem y hz)
    rcases h y List.mem_cons_self with rfl | hlt
    · exact lowestCause_cons fun z hz => (htail z hz).elim (fun he => he ▸ Nat.le_refl _) Nat.le_of_lt
    · have hne : x ≠ y := fun he => Nat.lt_irrefl _ (he ▸ hlt)
      rw [lowestCause, ih ((List.mem_cons.mp hx).resolve_left hne) htail]
      exact if_pos hlt

/-- A context at a bundle boundary (R371). -/
def Ctx.bounded (c : Ctx) : Prop := (c.st = .running ∨ c.st = .ready) ∧ c.mid = false ∧ c.redo = false ∧ c.fired = none

theorem Ctx.bounded.atBoundary {c : Ctx} (h : c.bounded) : c.atBoundary = true := by
  obtain ⟨hst, hmid, hredo, hfired⟩ := h
  simp [Ctx.atBoundary, hst, hmid, hredo, hfired]

theorem Ctx.bounded.not_free {c : Ctx} (h : c.bounded) : c.st ≠ .free := by
  obtain ⟨hst, -⟩ := h
  rcases hst with hst | hst <;> simp [hst]

section TakePending

variable {s : State} {r : CtxRef} (hgang : (s.ctx r).gang = false)
include hgang

theorem State.gangCause_of_no_gang : s.gangCause r = s.boundaryCause r := by
  rw [State.gangCause, s.members_of_no_gang hgang, List.findSome?_cons, List.findSome?_nil]
  cases s.boundaryCause r <;> rfl

theorem State.accepted_of_no_gang : s.accepted r =
    if ((s.ctx r).preReq || (s.ctx r).testReq) ∧ s.mayPreempt r then
      some (s.preemptOne r ((s.ctx r).preReq && (s.ctx r).preHold) (s.ctx r).testReq)
    else none := by
  simp [State.accepted, s.members_of_no_gang hgang]

theorem State.accepted_of_unasked (h : (s.ctx r).preReq = false ∧ (s.ctx r).testReq = false) : s.accepted r = none := by
  rw [State.accepted_of_no_gang hgang, if_neg (by simp [h])]

theorem State.takeAll_of_no_gang (hlive : (s.ctx r).st ≠ .free) (raised : Bool × Nat × W64) :
    s.takeAll r raised = s.takeBoundary r raised := by
  simp [State.takeAll, s.members_of_no_gang hgang, hgang, hlive]

theorem State.takePending_of_no_gang (hbound : (s.ctx r).bounded) {cause : Option (Bool × Nat × W64)} (hcause : s.boundaryCause r = cause) :
    s.takePending r = cause.elim (s.accepted r) fun x =>
      some (if x.1 then (s.accepted r).getD (s.takeAll r (true, x.2)) else s.takeAll r (false, x.2)) := by
  have hall : ((s.members r).all fun m => (s.ctx m).atBoundary) = true := by simp [s.members_of_no_gang hgang, hbound.atBoundary]
  rw [State.takePending, if_pos hall, State.gangCause_of_no_gang hgang, hcause]
  rcases cause with _ | ⟨_ | _, x⟩ <;> rfl

end TakePending

/-- Of the machine only context `r` has changed. -/
def OnlyCtxOf (s t : State) (r : CtxRef) : Prop := t = { s with ctxs := t.ctxs } ∧ ∀ q, CtxRef.key q ≠ CtxRef.key r → t.ctx q = s.ctx q

/-- The registers are those after trap entry outside a handler: all but the pending causes, the state and the wait are given (R372). -/
def Ctx.Entered (c c' : Ctx) (cause : Nat) (w : W64) : Prop :=
  c' = { c with
    pendAsync := c'.pendAsync, pendStore := c'.pendStore, st := c'.st, wait := c'.wait,
    trappc := putBits c.pc 0 3 c.slot.toNat, tstat := (if c.sys then 3#64 else 2#64), tcause := BitVec.ofNat 64 cause,
    tval := w, sys := true, pc := putBits c.tvec 0 3 0, slot := 0, mid := false, walkFault := none, fired := none,
    handler := true, redo := false, ahead := none }

/-- The state and the wait are not among the registers that R372 writes. -/
theorem Ctx.Entered.woken {c c' : Ctx} {cause : Nat} {w : W64} (h : c.Entered c' cause w) (st : CtxState) (wait : Wait) :
    c.Entered { c' with st := st, wait := wait } cause w := by
  rw [Ctx.Entered] at h ⊢
  conv_lhs => rw [h]

theorem Ctx.entered_enterTrap {c : Ctx} (h : c.inTrap = false) (async : Bool) (code : Nat) (v : W64) :
    c.Entered (c.enterTrap async code v c.pc c.slot) (code % 64 + if async then 64 else 0) v := by
  rw [Ctx.enterTrap_of_not_inTrap h]
  rfl

theorem Ctx.entered_tookCause {c : Ctx} (h : c.inTrap = false) (async : Bool) (code : Nat) (v : W64) :
    c.Entered ((c.tookCause async code v).enterTrap async code v c.pc c.slot) (code % 64 + if async then 64 else 0) v := by
  cases async
  · exact (Ctx.enterTrap_of_not_inTrap (c := c.tookCause false code v) h false code v).trans rfl
  · exact (Ctx.enterTrap_of_not_inTrap (c := c.tookCause true code v) h true code v).trans rfl

/-- The cause of a bundle boundary, taken outside a handler with no entry parked in one. -/
theorem State.takeBoundary_enters {s : State} {r : CtxRef} {async : Bool} {code : Nat} {v : W64}
    (hcause : s.boundaryCause r = some (async, code, v)) (hin : (s.ctx r).inTrap = false)
    (hhidden : bits (s.die r.site).tqctl 0 3 = 0) (hparked : NoneParked s r) (raised : Bool × Nat × W64) :
    let t := s.takeBoundary r raised
    t.ctx r = ((s.ctx r).tookCause async code v).enterTrap async code v (s.ctx r).pc (s.ctx r).slot ∧ OnlyCtxOf s t r := by
  let u := s.modCtx r fun c => c.tookCause async code v
  have hu : u.ctx r = (s.ctx r).tookCause async code v := s.ctx_modCtx_self r _
  have htook : (u.ctx r).inTrap = false := by
    rw [hu]
    cases async <;> exact hin
  have htake : s.takeBoundary r raised =
      u.setCtx r (((s.ctx r).tookCause async code v).enterTrap async code v (s.ctx r).pc (s.ctx r).slot) := by
    have hparked' (c : Ctx) : NoneParked (u.setCtx r c) r := hparked
    have htrap : s.takeBoundary r raised = u.takeTrap r async (!async) code v (s.ctx r).pc (s.ctx r).slot := by
      simp only [State.takeBoundary, hcause, Option.getD_some]
      rfl
    rw [htrap, State.takeTrap_eq htook hhidden, State.ageEntries_of_noneParked (hparked' _), hu]
  intro t
  rw [show t = _ from htake]
  exact ⟨u.ctx_setCtx_self r _, rfl, fun q hq => (u.ctx_setCtx_of_ne _ hq).trans (s.ctx_modCtx_of_ne _ hq)⟩

section BoundaryCause

variable {s : State} {r : CtxRef} (hin : (s.ctx r).inTrap = false)
include hin

theorem State.boundaryCause_of_store {x : Nat × W64} (h : lowestCause (s.ctx r).pendStore = some x) :
    s.boundaryCause r = some (false, x) := by
  simp [State.boundaryCause, hin, h]

theorem State.boundaryCause_of_async {x : Nat × W64} (hstore : (s.ctx r).pendStore = [])
    (h : lowestCause (s.ctx r).pendAsync = some x) : s.boundaryCause r = some (true, x) := by
  simp [State.boundaryCause, hin, hstore, h, lowestCause]

end BoundaryCause

/-- With no store's cause pending, what is pending is asynchronous. -/
theorem State.boundaryCause_of_no_store {s : State} {r : CtxRef} (h : (s.ctx r).pendStore = []) :
    s.boundaryCause r = none ∨ ∃ x, s.boundaryCause r = some (true, x) := by
  simp only [State.boundaryCause, h, List.filter_nil, ite_self, lowestCause]
  cases if (s.ctx r).inTrap then none else lowestCause (s.ctx r).pendAsync with
  | none => exact .inl rfl
  | some x => exact .inr ⟨x, rfl⟩

theorem State.boundaryCause_of_nothing {s : State} {r : CtxRef} (hstore : (s.ctx r).pendStore = []) (hasync : (s.ctx r).pendAsync = []) :
    s.boundaryCause r = none := by
  simp [State.boundaryCause, hstore, hasync, lowestCause]

theorem exec_trapEntry (r : CtxRef) (s : State) : exec (.trapEntry r) s = .next ((s.takePending r).getD s) := rfl

section TrapEntry

variable {s : State} {r : CtxRef} (hgang : (s.ctx r).gang = false)
include hgang

theorem exec_trapEntry_of_nothing (hunasked : (s.ctx r).preReq = false ∧ (s.ctx r).testReq = false)
    (hstore : (s.ctx r).pendStore = []) (hasync : (s.ctx r).pendAsync = []) : exec (.trapEntry r) s = .next s := by
  have hnone : s.takePending r = none := by
    by_cases hb : ((s.members r).all fun m => (s.ctx m).atBoundary) = true
    · rw [State.takePending, if_pos hb, State.gangCause_of_no_gang hgang, State.boundaryCause_of_nothing hstore hasync]
      exact State.accepted_of_unasked hgang hunasked
    · rw [State.takePending, if_neg hb]
  rw [exec_trapEntry, hnone]
  rfl

variable (hbound : (s.ctx r).bounded)
include hbound

theorem exec_trapEntry_of_async (hunasked : (s.ctx r).preReq = false ∧ (s.ctx r).testReq = false) {x : Nat × W64}
    (hcause : s.boundaryCause r = some (true, x)) : exec (.trapEntry r) s = .next (s.takeBoundary r (true, x)) := by
  rw [exec_trapEntry, State.takePending_of_no_gang hgang hbound hcause]
  simp [State.accepted_of_unasked hgang hunasked, State.takeAll_of_no_gang hgang hbound.not_free]

theorem exec_trapEntry_of_store {x : Nat × W64} (hcause : s.boundaryCause r = some (false, x)) :
    exec (.trapEntry r) s = .next (s.takeBoundary r (false, x)) := by
  rw [exec_trapEntry, State.takePending_of_no_gang hgang hbound hcause]
  simp [State.takeAll_of_no_gang hgang hbound.not_free]

theorem exec_trapEntry_of_accepted {t : State} (hstore : (s.ctx r).pendStore = []) (h : s.accepted r = some t) :
    exec (.trapEntry r) s = .next t := by
  rcases State.boundaryCause_of_no_store hstore with hcause | ⟨x, hcause⟩ <;>
    simp [exec_trapEntry, State.takePending_of_no_gang hgang hbound hcause, h]

end TrapEntry

/-! ### The timeout of a `waitb` (R196) -/

theorem exec_girthTimeout_of_waiting {s : State} {r : CtxRef} {g : BitVec 3} (hst : (s.ctx r).st = .waiting)
    (hwait : (s.ctx r).wait = .waitb g) (hto : bits ((s.die r.site).girthTo.toList.getD g.toNat 0) 0 32 ≠ 0) :
    exec (.girthTimeout r) s = .next (s.trapAll r 0x10 (s.gmissing r.site g.toNat)) := by
  simp only [exec, execGirthTimeout, hwait]
  rw [if_pos ⟨hst, hto⟩]

/-- Outside a gang and a handler a context that waits takes the cause of its wait and can issue. -/
theorem State.trapAll_of_waiting {s : State} {r : CtxRef} {g : BitVec 3} (hgang : (s.ctx r).gang = false)
    (hin : (s.ctx r).inTrap = false) (hhidden : bits (s.die r.site).tqctl 0 3 = 0) (hst : (s.ctx r).st = .waiting)
    (hwait : (s.ctx r).wait = .waitb g) {code : Nat} (hcode : code < 64) (v : W64) :
    let t := s.trapAll r code v
    (s.ctx r).Entered (t.ctx r) code v ∧ (t.ctx r).awake ∧ t.mem = s.mem := by
  let c := (s.ctx r).enterTrap false code v (s.ctx r).pc (s.ctx r).slot
  let u := (s.setCtx r c).ageEntries r
  have hage : Reschedules (s.setCtx r c) u := Reschedules.ite rfl rfl
  have hctx : u.ctx r = c := by
    have hctxs : u.ctxs = (s.setCtx r c).ctxs := by
      simp only [u, State.ageEntries]
      split <;> rfl
    rw [State.ctx, hctxs]
    exact s.ctx_setCtx_self r c
  have htake : s.takeTrap r false false code v (s.ctx r).pc (s.ctx r).slot = u := State.takeTrap_eq hin hhidden ..
  have hgo : s.trapAll r code v = u.makeReady r := by
    have hrouse : u.rouse r = u.makeReady r :=
      State.rouse_of_waiting (by rw [hctx]; exact hgang) (by rw [hctx]; exact hst) (by rw [hctx]; simp [c, Ctx.enterTrap, hwait])
    have hlive : (u.ctx r).st ≠ .free := by rw [hctx]; simp [c, Ctx.enterTrap, hst]
    simp [State.trapAll, s.members_of_no_gang hgang, htake, hrouse, hlive]
  intro t
  rw [show t = _ from hgo]
  refine ⟨?_, u.awake_makeReady r, (Reschedules.makeReady u r).mem.trans hage.mem⟩
  have hentered := Ctx.entered_enterTrap hin false code v
  rw [Nat.mod_eq_of_lt hcode] at hentered
  rw [State.ctx_makeReady_self, hctx]
  exact hentered.woken _ _

end Sys2Proof.Machine

namespace Sys2Proof.Machine

/-! ### The record of a fatal cause (R381 to R383) -/

section Record

variable (s : State)

theorem State.addressMap_snoop (line : Nat) : (s.snoop line).addressMap = s.addressMap := by
  unfold State.snoop
  split <;> rfl

theorem State.addressMap_claimLine (line : Nat) (who : Option CtxRef) : (s.claimLine line who).1.addressMap = s.addressMap := by
  unfold State.claimLine
  split
  · exact s.addressMap_snoop line
  · exact s.addressMap_recallLine line who

theorem State.addressMap_claimLines (who : Option CtxRef) (l : List Nat) : (s.claimLines who l).1.addressMap = s.addressMap := by
  induction l generalizing s with
  | nil => rfl
  | cons x l ih =>
    have hx := s.addressMap_claimLine x who
    unfold State.claimLines
    split
    · next u hu => exact (ih u).trans ((congrArg (fun p => State.addressMap p.1) hu).symm.trans hx)
    · next u hu => exact (congrArg (fun p => State.addressMap p.1) hu).symm.trans hx

/-- What the writing of trap records leaves alone: the contexts, and where addresses lead. -/
def Records (s t : State) : Prop := t.ctxs = s.ctxs ∧ t.addressMap = s.addressMap

theorem Records.trans {s t u : State} (h : Records s t) (h' : Records t u) : Records s u := ⟨h'.1.trans h.1, h'.2.trans h.2⟩

theorem State.putTrapRec_records (site : Nat) (t : TrapRec) (fatal : Bool) : Records s (s.putTrapRec site t fatal) := by
  unfold State.putTrapRec
  extract_lets d a t' s1
  have hwrite (line home : Nat) (bs : List (Nat × Byte)) : Records s (s.homeWrite line home 0 none bs) :=
    ⟨(Traffic.homeWrite s line home 0 none bs).ctxs, s.addressMap_homeWrite line home 0 none bs⟩
  have hmod (u : State) (f : Die → Die) : Records u (u.modDie site f) := ⟨rfl, rfl⟩
  have hs1 : Records s s1 := (hwrite _ _ _).trans (hmod _ _)
  clear_value s1
  split
  · exact hs1
  · exact hs1

theorem State.tqWrite_records (site : Nat) (l : List (TrapRec × Bool)) : Records s (s.tqWrite site l) := by
  induction l generalizing s with
  | nil => exact ⟨rfl, rfl⟩
  | cons e l ih =>
    obtain ⟨t, fatal⟩ := e
    have hlines : Records s (s.claimLines none (s.tqLines site t)).1 := ⟨(Traffic.claimLines none _ s).ctxs, s.addressMap_claimLines ..⟩
    unfold State.tqWrite
    split
    · next u hu =>
      rw [hu] at hlines
      exact hlines.trans ((u.putTrapRec_records site t fatal).trans (ih _))
    · next u hu =>
      rw [hu] at hlines
      exact hlines

theorem State.trapRecord_records (site : Nat) (t : TrapRec) : Records s (s.trapRecord site t true) := by
  unfold State.trapRecord
  extract_lets d
  rw [if_pos rfl]
  split
  · exact s.tqWrite_records site _
  · exact ⟨rfl, rfl⟩

end Record

/-! ### The place of the next record (R381) -/

/-- Of every die the place in the ring of trap records that comes next. -/
def State.rings (s : State) : Nat → W32 := fun site => (s.die site).tqprod

section Rings

variable (s : State)

theorem State.rings_congr {s t : State} (h : t.dies = s.dies) : t.rings = s.rings := by
  unfold State.rings State.die
  rw [h]

theorem State.rings_modDie (site : Nat) {f : Die → Die} (hf : ∀ d, (f d).tqprod = d.tqprod) : (s.modDie site f).rings = s.rings := by
  funext i
  by_cases h : i = site
  · rw [State.rings, h, State.die_modDie_self, hf]
    rfl
  · rw [State.rings, State.die_modDie_of_ne _ f h]
    rfl

theorem State.rings_predMove (site line : Nat) (up : Bool) : (s.predMove site line up).rings = s.rings := by
  unfold State.predMove
  extract_lets v v'
  split
  · rfl
  · exact s.rings_modDie site fun _ => rfl

theorem State.rings_recallLine (line : Nat) (who : Option CtxRef) : (s.recallLine line who).rings = s.rings := by
  unfold State.recallLine
  split
  · dsimp only
    split
    · exact State.rings_predMove ..
    · rfl
  · rfl

theorem State.rings_takeBack (line : Nat) : (s.takeBack line).rings = s.rings := by
  unfold State.takeBack
  extract_lets asked recalled back
  have hasked : asked.rings = s.rings := by
    simp only [asked]
    split <;> rfl
  exact (State.rings_recallLine asked line none).trans hasked

theorem State.rings_putUndo (h : Nat) (u : UndoRec) : (s.putUndo h u).rings = s.rings := by
  unfold State.putUndo
  extract_lets base lim place pas back logged
  have hback : back.rings = s.rings := by
    simp only [back]
    exact foldl_keeps State.rings (fun _ _ b => b.rings_takeBack _) s
  have hlogged : logged.rings = back.rings := by
    simp only [logged]
    refine foldl_keeps State.rings ?_ back
    exact fun _ _ _ => rfl
  exact hlogged.trans hback

theorem State.rings_logUndo (line home : Nat) (asid : BitVec 16) : (s.logUndo line home asid).rings = s.rings := by
  unfold State.logUndo
  extract_lets grp g reg h live u
  split_ifs
  · rfl
  · rfl
  · exact State.rings_putUndo ..
  · rfl

theorem State.rings_homeWrite (line home : Nat) (asid : BitVec 16) (who : Option (Nat × Nat)) (bs : List (Nat × Byte)) :
    (s.homeWrite line home asid who bs).rings = s.rings := by
  unfold State.homeWrite
  extract_lets undone but dropped written owned stored
  have hwritten : written.rings = s.rings := by
    simp only [written]
    refine (foldl_keeps State.rings ?_ dropped).trans (s.rings_logUndo line home asid)
    exact fun _ _ _ => rfl
  have howned : owned.rings = written.rings := by
    simp only [owned, State.cacheReq]
    split_ifs <;> rfl
  have hstored : stored.rings = s.rings := by
    simp only [stored]
    split
    · exact hwritten
    · exact howned.trans hwritten
  split
  · exact hstored
  · exact hstored

theorem State.rings_claimLines (who : Option CtxRef) (l : List Nat) : (s.claimLines who l).1.rings = s.rings := by
  induction l generalizing s with
  | nil => rfl
  | cons x l ih =>
    have hx : (s.claimLine x who).1.rings = s.rings := by
      unfold State.claimLine State.snoop
      split
      · split <;> rfl
      · exact s.rings_recallLine x who
    unfold State.claimLines
    split
    · next u hu => exact (ih u).trans ((congrArg (fun p => State.rings p.1) hu).symm.trans hx)
    · next u hu => exact (congrArg (fun p => State.rings p.1) hu).symm.trans hx

theorem State.putTrapRec_tqprod (site : Nat) (t : TrapRec) (fatal : Bool) :
    ((s.putTrapRec site t fatal).die site).tqprod = (s.die site).tqprod + 1 := by
  unfold State.putTrapRec
  extract_lets d a t' s1
  have hs1 : (s1.die site).tqprod = (s.die site).tqprod + 1 := by
    simp only [s1, State.die_modDie_self]
    exact congrArg (· + 1) (congrFun (s.rings_homeWrite _ _ _ _ _) site)
  clear_value s1
  split
  · exact hs1
  · exact hs1

/-- Where the host holds nothing, no record is under way, and the ring has room, a fatal record takes its place at once. -/
theorem State.trapRecord_tqprod {s : State} {site : Nat} (hroom : (s.die site).tqUse < 64) (hnone : (s.die site).tqwait = [])
    (hhost : HostFree s) (t : TrapRec) : ((s.trapRecord site t true).die site).tqprod = (s.die site).tqprod + 1 := by
  obtain ⟨u, hu, -⟩ := State.claimLines_of_hostFree hhost none (s.tqLines site t)
  have hrings : u.rings = s.rings := by
    have h := s.rings_claimLines none (s.tqLines site t)
    rwa [hu] at h
  have hrecord : s.trapRecord site t true = (u.putTrapRec site t true).modDie site fun d => { d with tqwait := [] } := by
    simp only [State.trapRecord, State.tqPut, if_true, if_pos hroom, hnone, List.nil_append, State.tqWrite, hu]
  rw [hrecord, State.die_modDie_self]
  exact (u.putTrapRec_tqprod site t true).trans (congrArg (· + 1) (congrFun hrings site))

end Rings

/-! ### A context that is gone (R383) -/

theorem key_ne_of_mem_quadOthers {o r : CtxRef} (h : o ∈ quadOthers r) : CtxRef.key o ≠ CtxRef.key r := by
  obtain ⟨hmem, hne⟩ := List.mem_filter.mp h
  obtain ⟨i, -, rfl⟩ := List.mem_map.mp hmem
  intro hkey
  have hcore : quadBase r.core + i = r.core := by
    simp only [CtxRef.key] at hkey
    omega
  simp [hcore] at hne

section Gone

variable {s : State} {q r : CtxRef} (hgone : s.ctx q = Ctx.reset)
include hgone

theorem State.ctx_makeReady_of_gone (hne : CtxRef.key q ≠ CtxRef.key r) : (s.makeReady r).ctx q = Ctx.reset :=
  (s.ctx_makeReady_of_ne hne).trans hgone

/-- A context in another state than FREE is another one. -/
theorem State.key_ne_of_gone (h : (s.ctx r).st ≠ .free) : CtxRef.key q ≠ CtxRef.key r := fun hkey =>
  h (by rw [← State.ctx_of_key hkey, hgone]; rfl)

theorem State.ctx_unpark_of_gone : (s.unpark r).ctx q = Ctx.reset := by
  unfold State.unpark
  dsimp only
  split
  · exact hgone
  · refine List.foldlRecOn (motive := fun u : State => u.ctx q = Ctx.reset) _ _ hgone fun u hu m _ => ?_
    split
    · next hparked => exact State.ctx_makeReady_of_gone hu (State.key_ne_of_gone hu (by rw [hparked]; nofun))
    · exact hu

theorem State.ctx_rouse_of_gone : (s.rouse r).ctx q = Ctx.reset := by
  unfold State.rouse
  split
  · exact hgone
  · next hwait =>
    have hne : CtxRef.key q ≠ CtxRef.key r := State.key_ne_of_gone hgone fun hst => hwait (.inl (by rw [hst]; nofun))
    split
    · exact State.ctx_unpark_of_gone ((s.ctx_modCtx_of_ne _ hne).trans hgone)
    · exact State.ctx_makeReady_of_gone hgone hne

theorem State.ctx_fire_of_gone (hne : CtxRef.key q ≠ CtxRef.key r) (v : Nat) : (s.fire r v).ctx q = Ctx.reset :=
  State.ctx_rouse_of_gone ((s.ctx_modCtx_of_ne _ hne).trans hgone)

theorem State.ctx_waitOver_of_gone (hne : CtxRef.key q ≠ CtxRef.key r) : (s.waitOver r).ctx q = Ctx.reset := by
  unfold State.waitOver
  split
  · exact (s.ctx_modCtx_of_ne _ hne).trans hgone
  · exact State.ctx_makeReady_of_gone hgone hne

theorem State.ctx_abandon_of_gone (ms : List CtxRef) : (s.abandon ms).ctx q = Ctx.reset := by
  unfold State.abandon
  split
  · exact hgone
  · refine List.foldlRecOn (motive := fun u : State => u.ctx q = Ctx.reset) ms _ ?_ fun u hu m _ => State.ctx_rouse_of_gone hu
    refine List.foldlRecOn (motive := fun u : State => u.ctx q = Ctx.reset) ms _ hgone fun u hu m _ => ?_
    by_cases hkey : CtxRef.key q = CtxRef.key m
    · rw [State.ctx_of_key hkey, State.ctx_modCtx_self, ← State.ctx_of_key hkey, hu]
      rfl
    · exact (u.ctx_modCtx_of_ne _ hkey).trans hu

theorem State.ctx_pendCause_of_gone (code : Nat) (v : W64) : (s.pendCause r code v).ctx q = Ctx.reset := by
  unfold State.pendCause
  dsimp only
  split
  · exact hgone
  · next hlive =>
    have hne : CtxRef.key q ≠ CtxRef.key r := State.key_ne_of_gone hgone fun hst => hlive (.inl hst)
    have hpend := (s.ctx_modCtx_of_ne (fun x => { x with pendAsync := addCause x.pendAsync code v }) hne).trans hgone
    split
    · exact hpend
    · exact State.ctx_abandon_of_gone hpend _

/-- What the loss of a context does to its quad leaves the context gone. -/
theorem State.ctx_gangLost_of_gone : (s.gangLost q).ctx q = Ctx.reset := by
  refine List.foldlRecOn (motive := fun u : State => u.ctx q = Ctx.reset) _ _ hgone fun u hu o ho => ?_
  have hne : CtxRef.key q ≠ CtxRef.key o := (key_ne_of_mem_quadOthers ho).symm
  dsimp only
  split
  · split
    · exact State.ctx_fire_of_gone hu hne 1
    · exact hu
  · exact State.ctx_pendCause_of_gone (State.ctx_waitOver_of_gone hu hne) 0x22 1
  · exact hu

end Gone

section FreeCtx

variable (s : State)

theorem State.ctxs_reserve (site oct : Nat) : (s.reserve site oct).ctxs = s.ctxs := by
  refine foldl_keeps State.ctxs (fun x _ u => ?_) s
  dsimp only
  split <;> rfl

theorem State.ctxs_settleRow (site row : Nat) : (s.settleRow site row).ctxs = s.ctxs := by
  refine foldl_keeps State.ctxs (fun x _ u => ?_) s
  dsimp only
  split <;> rfl

theorem State.ctxs_settleQuad (site core : Nat) : (s.settleQuad site core).ctxs = s.ctxs :=
  foldl_keeps State.ctxs (fun row _ u => u.ctxs_settleRow site row) s

theorem State.ctxs_congr {s t : State} (h : t.ctxs = s.ctxs) (r : CtxRef) : t.ctx r = s.ctx r := by rw [State.ctx, State.ctx, h]

/-- A context slot given up is as after reset. -/
theorem State.ctx_freeCtx (r : CtxRef) : (s.freeCtx r).ctx r = Ctx.reset := by
  let u := (((s.leave r .free).setCtx r Ctx.reset).reserve r.site (octetOf r.core)).settleQuad r.site r.core
  have hu : u.ctx r = Ctx.reset := by
    rw [State.ctxs_congr ((State.ctxs_settleQuad _ _ _).trans (State.ctxs_reserve _ _ _))]
    exact State.ctx_setCtx_self _ r _
  unfold State.freeCtx
  dsimp only
  split
  · exact hu
  · exact hu

end FreeCtx

/-! ### The end of a context (R380, R383) -/

/-- Of the machine only contexts, cores, octets, requests and launches have changed. -/
def Discards (s t : State) : Prop :=
  t = { s with ctxs := t.ctxs, cores := t.cores, octets := t.octets, reqs := t.reqs, launches := t.launches }

theorem Discards.trans {s t u : State} (h : Discards s t) (h' : Discards t u) : Discards s u := by
  rw [Discards] at h h' ⊢
  conv_lhs => rw [h', h]

theorem Reschedules.discards {s t : State} (h : Reschedules s t) : Discards s t := by
  rw [Reschedules] at h
  have hreqs : t.reqs = s.reqs := by rw [h]
  have hlaunches : t.launches = s.launches := by rw [h]
  rw [Discards, hreqs, hlaunches]
  exact h

/-- A context slot is given up by changes of contexts, cores and octets; the count of the launch follows. -/
theorem Reschedules.freed (s : State) (r : CtxRef) :
    Reschedules s ((((s.leave r .free).setCtx r Ctx.reset).reserve r.site (octetOf r.core)).settleQuad r.site r.core) :=
  (leave s r .free).trans ((trans (t := (s.leave r .free).setCtx r Ctx.reset) rfl (reserve _ _ _)).trans (settleQuad _ _ _))

theorem State.freeCtx_discards (s : State) (r : CtxRef) : Discards s (s.freeCtx r) := by
  have hfree := Reschedules.freed s r
  unfold State.freeCtx
  dsimp only
  split
  · exact hfree.discards.trans rfl
  · exact hfree.discards

/-- Every launch of a serial number has failed, with a code that R361 gives. -/
def State.LaunchFailed (s : State) (ser : Nat) : Prop := ∀ x ∈ s.launches, x.lser = ser → x.code ≠ 0 ∧ x.code ≤ 6

theorem lowerCode_six (old : Nat) : lowerCode old 6 ≠ 0 ∧ lowerCode old 6 ≤ 6 := by
  unfold lowerCode
  split <;> omega

theorem State.launchFailed_failLaunch (s : State) (ser : Nat) : (s.failLaunch ser 6).LaunchFailed ser := by
  intro x hx hser
  obtain ⟨l, -, rfl⟩ := List.mem_map.mp hx
  split at hser
  · next h =>
    rw [if_pos h]
    exact lowerCode_six l.code
  · next h => exact absurd hser h

theorem State.LaunchFailed.modLaunch {s : State} {ser : Nat} (h : s.LaunchFailed ser) (n : Nat) {f : Launch → Launch}
    (hf : ∀ l, (f l).lser = l.lser ∧ (f l).code = l.code) : (s.modLaunch n f).LaunchFailed ser := by
  intro x hx hser
  obtain ⟨l, hl, rfl⟩ := List.mem_map.mp hx
  split at hser
  · next hn =>
    obtain ⟨hlser, hcode⟩ := hf l
    rw [if_pos hn, hcode]
    exact h l hl (hlser ▸ hser)
  · next hn =>
    rw [if_neg hn]
    exact h l hl hser

theorem State.LaunchFailed.congr {s t : State} {ser : Nat} (h : s.LaunchFailed ser) (ht : t.launches = s.launches) : t.LaunchFailed ser := by
  rwa [State.LaunchFailed, ht]

theorem State.LaunchFailed.freeCtx {s : State} {ser : Nat} (h : s.LaunchFailed ser) (r : CtxRef) : (s.freeCtx r).LaunchFailed ser := by
  have hfree := Reschedules.freed s r
  unfold State.freeCtx
  dsimp only
  split
  · exact (h.congr hfree.launches).modLaunch _ fun _ => ⟨rfl, rfl⟩
  · exact h.congr hfree.launches

theorem State.gangOthers_of_no_gang {s : State} {r : CtxRef} (h : (s.ctx r).gang = false) : s.gangOthers r = [] := by
  simp [State.gangOthers, h]

/-- A context outside a gang that ends is given up after its record, and then its quad learns of the loss. -/
theorem State.endCore_ends {s : State} {r : CtxRef} (hgang : (s.ctx r).gang = false) (code : Nat) (v : W64) :
    ∃ gone, s.endCore r code v = gone.gangLost r ∧ gone.ctx r = Ctx.reset ∧
      Discards (s.trapRecord r.site (s.recOf r code v (putBits (s.ctx r).pc 0 3 (s.ctx r).slot.toNat)) true) gone ∧
      ∀ tk, (s.ctx r).task = some tk → gone.LaunchFailed tk.lser := by
  unfold State.endCore
  extract_lets c pc recorded others discarded freed released failed gone parted
  have hothers : others = [] := State.gangOthers_of_no_gang (by
    rw [State.ctxs_congr (s.trapRecord_records r.site _).1]
    exact hgang)
  have hparted : parted = gone := by simp only [parted, hothers, List.foldl_nil]
  have hfreed : Discards discarded freed := by
    simp only [freed]
    split <;> rfl
  have hfailed : Discards released failed := by
    simp only [failed]
    split <;> rfl
  have hdiscards : Discards recorded gone :=
    (Discards.trans (t := discarded) rfl hfreed).trans
      ((Discards.trans (t := released) rfl hfailed).trans (failed.freeCtx_discards r))
  rw [hparted, hothers, List.foldl_nil]
  refine ⟨gone, rfl, failed.ctx_freeCtx r, hdiscards, fun tk htk => ?_⟩
  have htask : failed = released.failLaunch tk.lser 6 := by simp only [failed, c, htk]
  exact State.LaunchFailed.freeCtx (htask ▸ released.launchFailed_failLaunch tk.lser) r

end Sys2Proof.Machine

namespace Sys2Proof.Machine

theorem Discards.addressMap {s t : State} (h : Discards s t) : t.addressMap = s.addressMap := by
  rw [Discards] at h
  rw [h]
  rfl

theorem Discards.dies {s t : State} (h : Discards s t) : t.dies = s.dies := by
  rw [Discards] at h
  rw [h]

/-- What the end of a context leaves of it: its slot, its record and its launch (R380, R383). -/
def EndOf (s t : State) (r : CtxRef) : Prop :=
  t.ctx r = Ctx.reset ∧
    ((s.die r.site).tqUse < 64 → (s.die r.site).tqwait = [] → HostFree s → (t.die r.site).tqprod = (s.die r.site).tqprod + 1) ∧
    ∀ tk, (s.ctx r).task = some tk → t.LaunchFailed tk.lser

/-- A context outside gangs and logged groups, on a die that does not stop at fatal causes. -/
def QuietEnd (s : State) (r : CtxRef) : Prop :=
  (s.ctx r).gang = false ∧ s.cgroup (s.ctx r).asid.toNat = 0 ∧ bit (s.hreg (s.phys r.site) 0x3608) 3 = false

theorem State.endContext_endOf {s : State} {r : CtxRef} (h : QuietEnd s r) (code : Nat) (v : W64) : EndOf s (s.endContext r code v) r := by
  obtain ⟨hgang, hgroup, hfatal⟩ := h
  obtain ⟨gone, hcore, hreset, hdiscards, htask⟩ := State.endCore_ends hgang code v
  let rec_ := s.recOf r code v (putBits (s.ctx r).pc 0 3 (s.ctx r).slot.toNat)
  have hlost := Reschedules.gangLost gone r
  have hmap : (gone.gangLost r).addressMap = s.addressMap :=
    (hdiscards.trans hlost.discards).addressMap.trans (s.trapRecord_records r.site rec_).2
  have hend : s.endContext r code v = gone.gangLost r := by
    have hbit : bit ((gone.gangLost r).hreg ((gone.gangLost r).phys r.site) 0x3608) 3 = false := by
      have hreg : (gone.gangLost r).sreg r.site 0x3608 = s.sreg r.site 0x3608 := State.sreg_of_addressMap hmap ..
      exact (congrArg (bit · 3) hreg).trans hfatal
    simp only [State.endContext, hgroup, ne_eq, not_true_eq_false, if_false, hcore, hbit, Bool.false_eq_true]
  rw [hend]
  refine ⟨State.ctx_gangLost_of_gone hreset, fun hroom hnone hhost => ?_, fun tk htk => (htask tk htk).congr hlost.launches⟩
  have hdies := (hdiscards.trans hlost.discards).dies
  exact (congrFun (State.rings_congr hdies) r.site).trans (State.trapRecord_tqprod hroom hnone hhost rec_)

theorem exec_endContext_of_fatal {s : State} {r : CtxRef} {code : Nat} {v : W64} (h : (s.ctx r).fatal = some (code, v))
    (hlive : (s.ctx r).st ≠ .free) : exec (.endContext r) s = .next (s.endContext r code v) := by
  simp [exec, execEndContext, h, hlive]

theorem exec_endContext_of_no_fatal {s : State} {r : CtxRef} (h : (s.ctx r).fatal = none) : exec (.endContext r) s = .next s := by
  simp [exec, execEndContext, h]

/-- The longest section that a die lets its contexts run without pre-emption (R380). -/
def Die.npLimit (d : Die) : Nat := if bits d.nplim 0 32 = 0 then 65536 else bits d.nplim 0 32

theorem State.npOver_iff (s : State) (r : CtxRef) :
    s.npOver r = true ↔ (s.ctx r).npsec = true ∧ (s.die r.site).npLimit ≤ (s.ctx r).npcount.toNat := by
  simp [State.npOver, Die.npLimit]

theorem exec_npcountLimit_of_over {s : State} {r : CtxRef} (h : s.npOver r = true) (hlive : (s.ctx r).st ≠ .free)
    (hstopped : (s.ctx r).st ≠ .stopped) :
    exec (.npcountLimit r) s = .next (s.endContext r 0x11 ((s.ctx r).npcount.setWidth 64)) := by
  simp [exec, execNpcountLimit, h, hlive, hstopped]

theorem exec_npcountLimit_of_within {s : State} {r : CtxRef} (h : ¬ s.npOver r = true) : exec (.npcountLimit r) s = .next s := by
  simp [exec, execNpcountLimit, h]

end Sys2Proof.Machine

namespace Sys2Proof.Machine

/-! ### The issue of the floor (R180) -/

theorem exec_floorIssue_of_owned {s : State} {r : CtxRef} (hst : (s.ctx r).st = .ready) (h : (s.core r.site r.core).owner ≠ none) :
    exec (.floorIssue r) s = .next { s with agenda := .issue r :: s.agenda } := by
  simp [exec, execFloorIssue, hst, Option.isSome_iff_ne_none, h]

theorem exec_floorIssue_of_not {s : State} {r : CtxRef} (h : (s.ctx r).st ≠ .ready ∨ (s.core r.site r.core).owner = none) :
    exec (.floorIssue r) s = .next s := by
  rcases h with h | h <;> simp [exec, execFloorIssue, h]

/-! ### The halt sequence (R198) -/

theorem exec_haltSequence_of_busy {s : State} {r : CtxRef} (h : (s.ctx r).st ≠ .halting ∨ s.quiet r = false) :
    exec (.haltSequence r) s = .next s :=
  if_pos (h.imp_right fun hquiet => by simp [hquiet])

theorem State.ctxs_billBallast (s : State) (r : CtxRef) (asid : BitVec 16) : (s.billBallast r asid).ctxs = s.ctxs := by
  unfold State.billBallast
  split <;> rfl

/-- Where the host holds nothing, a context that halts and has nothing outstanding gives its slot up. -/
theorem exec_haltSequence_of_quiet {s : State} {r : CtxRef} (hhost : HostFree s) (hst : (s.ctx r).st = .halting)
    (hquiet : s.quiet r = true) : ∃ t, exec (.haltSequence r) s = .next t ∧ t.ctx r = Ctx.reset := by
  obtain ⟨u, hrecs, -⟩ : ∃ u, s.recsReady (s.haltRecs r) = (u, true) ∧ _ := State.claimLines_of_hostFree hhost none _
  have hwork : ¬ ((s.ctx r).st ≠ .halting ∨ (!s.quiet r) = true) := by simp [hst, hquiet]
  simp only [exec, execHaltSequence]
  rw [if_neg hwork, hrecs]
  exact ⟨_, rfl, (State.ctxs_congr (State.ctxs_billBallast _ r _) r).trans (State.ctx_freeCtx _ r)⟩

/-! ### The timeout of a `gang` (R184) -/

/-- What a context's bundle is to find when its wait is over. -/
def State.fireds (s : State) : CtxRef → Option Nat := fun q => (s.ctx q).fired

section Fireds

variable (s : State)

theorem State.fireds_modCtx (r : CtxRef) {f : Ctx → Ctx} (hf : ∀ c, (f c).fired = c.fired) : (s.modCtx r f).fireds = s.fireds := by
  funext q
  by_cases h : CtxRef.key q = CtxRef.key r
  · rw [State.fireds, State.ctx_of_key h, State.ctx_modCtx_self, hf, ← State.ctx_of_key h]
    rfl
  · rw [State.fireds, s.ctx_modCtx_of_ne f h]
    rfl

theorem State.fireds_makeReady (r : CtxRef) : (s.makeReady r).fireds = s.fireds := by
  have hready : (s.modCtx r fun x => { x with st := .ready, wait := .none }).fireds = s.fireds := s.fireds_modCtx r fun _ => rfl
  unfold State.makeReady
  dsimp only
  split
  · exact hready
  · exact (State.fireds_modCtx _ r (f := fun x => { x with st := .running }) fun _ => rfl).trans hready

theorem State.fireds_rouse (r : CtxRef) : (s.rouse r).fireds = s.fireds := by
  have hunpark (u : State) : (u.unpark r).fireds = u.fireds := by
    unfold State.unpark
    dsimp only
    split
    · rfl
    · refine foldl_keeps State.fireds (fun m _ w => ?_) u
      split
      · exact w.fireds_makeReady m
      · rfl
  unfold State.rouse
  split
  · rfl
  · split
    · exact (hunpark _).trans (s.fireds_modCtx r fun _ => rfl)
    · exact s.fireds_makeReady r

theorem State.fireds_fire_self (r : CtxRef) (v : Nat) : (s.fire r v).fireds r = some v := by
  rw [State.fire, State.fireds_rouse, State.fireds, State.ctx_modCtx_self]

/-- A result stays while the same result goes to others. -/
theorem State.fireds_fire_of_fired {r : CtxRef} {v : Nat} (h : s.fireds r = some v) (o : CtxRef) : (s.fire o v).fireds r = some v := by
  rw [State.fire, State.fireds_rouse, State.fireds]
  by_cases hkey : CtxRef.key r = CtxRef.key o
  · rw [State.ctx_of_key hkey, State.ctx_modCtx_self]
  · rw [s.ctx_modCtx_of_ne _ hkey]
    exact h

end Fireds

theorem exec_gangTimeout_of_waiting {s : State} {r : CtxRef} (hst : (s.ctx r).st = .waiting) (hwait : (s.ctx r).wait = .gang) :
    ∃ t, exec (.gangTimeout r) s = .next t ∧ (t.ctx r).fired = some 2 ∧ t.mem = s.mem := by
  have hin : decide ((s.ctx r).waitsIn = true ∧ (s.ctx r).wait = .gang) = true := by simp [Ctx.waitsIn, hst, hwait]
  simp only [exec, execGangTimeout]
  rw [if_pos hin, List.filter_cons, if_pos hin, List.foldl_cons]
  refine ⟨_, rfl, ?fired, ?mem⟩
  case fired =>
    exact List.foldlRecOn (motive := fun u : State => u.fireds r = some 2) _ _ (State.fireds_fire_self _ r 2)
      fun u hu o _ => u.fireds_fire_of_fired hu o
  case mem =>
    have hlost := Reschedules.foldl
      (f := fun u o => if (u.ctx o).wait = .gangDone then (u.waitOver o).pendCause o 0x22 1 else u)
      (fun u o => Reschedules.ite ((Reschedules.waitOver u o).trans (Reschedules.pendCause _ o 0x22 1)) (Reschedules.refl u))
      (quadOthers r) s
    exact (hlost.trans ((Reschedules.fire _ r 2).trans (Reschedules.foldl (fun u o => Reschedules.fire u o 2) _ _))).mem

end Sys2Proof.Machine

/-! ## The save area

The image of a context is one list of pieces in ascending order; where no piece reaches into the next, each is read back. -/

namespace Sys2Proof.Machine

/-! ### Bytes of one save area (R18) -/

theorem State.canon_of_addressMap {s t : State} (h : t.addressMap = s.addressMap) (pa : Nat) : t.canon pa = s.canon pa := by
  have hplain : ∀ u : State, u.canon pa =
      let p := u.plain pa
      let reg := paRegion p
      if reg = 0 ∨ reg = 1 then mkPa reg (u.phys (paSite p)) (p % 4398046511104)
      else if reg = 3 then mkPa 3 (u.phys (paSite p)) (p % 134217728)
      else p := fun _ => rfl
  have hsites : t.sites = s.sites := congrArg Prod.fst h
  rw [hplain, hplain]
  simp only [State.plain_of_addressMap h, State.phys, hsites]

/-- Where memory and the places of addresses stay, every byte does. -/
theorem State.byte_of_addressMap {s t : State} (hmem : t.mem = s.mem) (h : t.addressMap = s.addressMap) (pa : Nat) : t.byte pa = s.byte pa := by
  rw [State.byte, State.byte, State.canon_of_addressMap h, hmem]

/-- A real context of a real site. -/
def PlacedCtx (r : CtxRef) : Prop := RealCtx r ∧ r.site < 64

theorem savePa_add (r : CtxRef) (off i : Nat) : savePa r off + i = savePa r (off + i) := by
  simp only [savePa, lmemPa, mkPa]
  omega

theorem PlacedCtx.canon_savePa {r : CtxRef} (h : PlacedCtx r) (s : State) {off : Nat} (hoff : off < 0x5000) :
    s.canon (savePa r off) = mkPa 3 (s.phys r.site) (r.core * 524288 + (saveBase r.ctx + off)) := by
  obtain ⟨⟨hctx, hcore⟩, hsite⟩ := h
  exact s.canon_lmemPa hsite hcore (by rw [saveBase]; omega)

theorem PlacedCtx.canon_savePa_inj {r : CtxRef} (h : PlacedCtx r) {s : State} {i j : Nat} (hi : i < 0x5000) (hj : j < 0x5000)
    (heq : s.canon (savePa r i) = s.canon (savePa r j)) : i = j := by
  rw [h.canon_savePa s hi, h.canon_savePa s hj, mkPa, mkPa] at heq
  omega

/-- The save area holds the bytes given, from an offset on. -/
def State.Holds (s : State) (r : CtxRef) (off : Nat) (bs : List Byte) : Prop := ∀ i, i < bs.length → s.byte (savePa r (off + i)) = bs.getD i 0

section Holds

variable {s t : State} {r : CtxRef} {off : Nat} {bs bs' : List Byte}

theorem State.Holds.congr (h : s.Holds r off bs) (hbyte : ∀ x, t.byte x = s.byte x) : t.Holds r off bs :=
  fun i hi => (hbyte _).trans (h i hi)

theorem State.Holds.left (h : s.Holds r off (bs ++ bs')) : s.Holds r off bs := fun i hi =>
  (h i (by simp only [List.length_append]; omega)).trans (List.getD_append _ _ _ _ hi)

theorem State.Holds.right (h : s.Holds r off (bs ++ bs')) : s.Holds r (off + bs.length) bs' := fun i hi => by
  have hbyte := h (bs.length + i) (by simp only [List.length_append]; omega)
  rwa [List.getD_append_right _ _ _ _ (Nat.le_add_right ..), Nat.add_sub_cancel_left, ← Nat.add_assoc] at hbyte

theorem State.Holds.bytes (h : s.Holds r off bs) : s.bytes (savePa r off) bs.length = bs := by
  refine List.ext_getElem (length_bytes ..) fun i hi hi' => ?_
  rw [← List.getD_eq_getElem (d := 0), ← List.getD_eq_getElem (d := 0), s.getD_bytes _ hi', savePa_add]
  exact h i hi'

variable (hr : PlacedCtx r)
include hr

theorem State.holds_setBytes (s : State) (hfits : off + bs.length ≤ 0x5000) : (s.setBytes (savePa r off) bs).Holds r off bs := fun i hi => by
  rw [← savePa_add]
  refine s.byte_setBytes_of_inj (fun j k hj hk heq => ?_) hi
  rw [savePa_add, savePa_add] at heq
  exact Nat.add_left_cancel (hr.canon_savePa_inj (by omega) (by omega) heq)

/-- A piece stays where later ones begin behind it. -/
theorem State.Holds.setBytes (h : s.Holds r off bs) {off' : Nat} (hfits : off' + bs'.length ≤ 0x5000) (hbehind : off + bs.length ≤ off') :
    (s.setBytes (savePa r off') bs').Holds r off bs := fun i hi => by
  refine (s.byte_setBytes_of_ne _ _ _ fun j hj heq => ?_).trans (h i hi)
  rw [savePa_add] at heq
  have := hr.canon_savePa_inj (by omega) (by omega) heq
  omega

end Holds

theorem ofBytes_toBytes (n x : Nat) : ofBytes (toBytes n x) = x % 256 ^ n := by
  induction n generalizing x with
  | zero => rw [pow_zero, Nat.mod_one]; rfl
  | succ n ih =>
    have hpow : 256 ^ (n + 1) = 256 * 256 ^ n := pow_succ' ..
    rw [toBytes, ofBytes, ih, BitVec.toNat_ofNat, hpow]
    exact Nat.mod_mul.symm

theorem ofBytes_toBytes_word {n w : Nat} (x : BitVec w) (hn : 256 ^ n = 2 ^ w) : ofBytes (toBytes n x.toNat) = x.toNat := by
  rw [ofBytes_toBytes, hn, Nat.mod_eq_of_lt x.isLt]

/-- Bytes of words of `n` bytes each, in order. -/
def wordBytes {w : Nat} (n : Nat) (ws : List (BitVec w)) : List Byte := ws.flatMap fun x => toBytes n x.toNat

theorem length_wordBytes {w : Nat} (n : Nat) (ws : List (BitVec w)) : (wordBytes n ws).length = n * ws.length := by
  induction ws with
  | nil => rfl
  | cons x ws ih =>
    have : (wordBytes n (x :: ws)).length = n + (wordBytes n ws).length := by
      rw [wordBytes, List.flatMap_cons, List.length_append, length_toBytes]
      rfl
    rw [this, ih, List.length_cons, Nat.mul_succ, Nat.add_comm]

section Words

variable {s : State} {r : CtxRef} {off w n : Nat} {ws : List (BitVec w)}

theorem State.Holds.word_bytes (h : s.Holds r off (wordBytes n ws)) {i : Nat} (hi : i < ws.length) :
    s.bytes (savePa r (off + n * i)) n = toBytes n (ws.getD i 0).toNat := by
  induction ws generalizing off i with
  | nil => exact absurd hi (Nat.not_lt_zero i)
  | cons x ws ih =>
    cases i with
    | zero =>
      have hx := State.Holds.bytes h.left
      rwa [length_toBytes] at hx
    | succ i =>
      have hrest := State.Holds.right h
      rw [length_toBytes] at hrest
      have hi' := ih (off := off + n) hrest (Nat.lt_of_succ_lt_succ hi)
      rwa [show off + n + n * i = off + n * (i + 1) by rw [Nat.mul_succ]; omega] at hi'

end Words

theorem State.Holds.dword {s : State} {r : CtxRef} {off : Nat} {ws : List W64} (h : s.Holds r off (wordBytes 8 ws)) {i : Nat}
    (hi : i < ws.length) : s.dword (savePa r (off + 8 * i)) = ws.getD i 0 := by
  rw [State.dword, h.word_bytes hi, ofBytes_toBytes_word _ (by decide), BitVec.ofNat_toNat, BitVec.setWidth_eq]

theorem State.Holds.word {s : State} {r : CtxRef} {off : Nat} {ws : List W32} (h : s.Holds r off (wordBytes 4 ws)) {i : Nat}
    (hi : i < ws.length) : s.word (savePa r (off + 4 * i)) = ws.getD i 0 := by
  rw [State.word, h.word_bytes hi, ofBytes_toBytes_word _ (by decide), BitVec.ofNat_toNat, BitVec.setWidth_eq]

/-! ### Pieces in ascending order -/

/-- Pieces are written in order. -/
def State.saveAll (s : State) (r : CtxRef) (l : List (Nat × List Byte)) : State := l.foldl (fun s e => s.setBytes (savePa r e.1) e.2) s

/-- Pieces that stand one behind the other, from an offset up to another. -/
def Ascending (lo hi : Nat) : List (Nat × List Byte) → Prop
  | [] => lo ≤ hi
  | e :: l => lo ≤ e.1 ∧ Ascending (e.1 + e.2.length) hi l

theorem Ascending.le {lo hi : Nat} {l : List (Nat × List Byte)} (h : Ascending lo hi l) : lo ≤ hi := by
  induction l generalizing lo with
  | nil => exact h
  | cons e l ih =>
    obtain ⟨hlo, hrest⟩ := h
    have := ih hrest
    omega

theorem Ascending.append {lo mid hi : Nat} {l l' : List (Nat × List Byte)} (h : Ascending lo mid l) (h' : Ascending mid hi l') :
    Ascending lo hi (l ++ l') := by
  induction l generalizing lo with
  | nil =>
    cases l' with
    | nil => exact Nat.le_trans h h'
    | cons e l' => exact ⟨Nat.le_trans h h'.1, h'.2⟩
  | cons e l ih => exact ⟨h.1, ih h.2⟩

/-- Pieces at equal steps, none longer than a step. -/
theorem ascending_steps {base step : Nat} {f : Nat → List Byte} (n : Nat) (hlen : ∀ i, (f i).length ≤ step) :
    Ascending base (base + step * n) ((List.range n).map fun i => (base + step * i, f i)) := by
  induction n with
  | zero => exact Nat.le_refl base
  | succ n ih =>
    have hlast : base + step * n + (f n).length ≤ base + step * (n + 1) := by
      have := hlen n
      rw [Nat.mul_succ]
      omega
    rw [List.range_succ, List.map_append]
    exact ih.append ⟨Nat.le_refl _, hlast⟩

section SaveAll

variable {s : State} {r : CtxRef} (hr : PlacedCtx r)
include hr

theorem State.Holds.saveAll {off lo hi : Nat} {bs : List Byte} {l : List (Nat × List Byte)} (h : s.Holds r off bs)
    (hbehind : off + bs.length ≤ lo) (hl : Ascending lo hi l) (hhi : hi ≤ 0x5000) : (s.saveAll r l).Holds r off bs := by
  induction l generalizing s lo with
  | nil => exact h
  | cons e l ih =>
    obtain ⟨hlo, hrest⟩ := hl
    have hend := hrest.le
    exact ih (h.setBytes hr (by omega) (by omega)) (by omega) hrest

/-- Pieces one behind the other are all read back. -/
theorem State.holds_saveAll (s : State) {lo hi : Nat} {l : List (Nat × List Byte)} (hl : Ascending lo hi l) (hhi : hi ≤ 0x5000)
    {e : Nat × List Byte} (he : e ∈ l) : (s.saveAll r l).Holds r e.1 e.2 := by
  induction l generalizing s lo with
  | nil => cases he
  | cons x l ih =>
    obtain ⟨-, hrest⟩ := hl
    have hend := hrest.le
    rcases List.mem_cons.mp he with rfl | he
    · exact (s.holds_setBytes hr (by omega)).saveAll hr (Nat.le_refl _) hrest hhi
    · exact ih (s.setBytes (savePa r x.1) x.2) hrest he

end SaveAll

/-! ### The image (R376) -/

/-- The pieces of a context's image ahead of masks, dictionary and vectors. -/
def Ctx.regPieces (c : Ctx) (q claim : Nat) (cp : Option CopyRun) (armed : Bool) : List (Nat × List Byte) :=
  [(0, wordBytes 8 (c.imageG ++ c.ls.toList ++ c.le.toList)), (0x140, wordBytes 4 c.lc.toList),
    (0x150, wordBytes 8 [c.ja0, c.ja1, c.lr, putBits c.pc 0 3 c.slot.toNat, c.imageFlags q claim, c.pend.image]),
    (0x180, wordBytes 8 c.imageRegs), (0x238, wordBytes 8 [c.pwrreq, c.energy]),
    (0x280, wordBytes 8 (c.savedSfu.flatMap (SfuReq.image sfuCode))), (0x480, wordBytes 8 (imageCopy c cp armed))]

/-- The pieces of a context's image. -/
def Ctx.pieces (c : Ctx) (q claim : Nat) (cp : Option CopyRun) (armed : Bool) : List (Nat × List Byte) :=
  c.regPieces q claim cp armed ++
  ((List.range 4).map fun i => (0x500 + 32 * i, imageMask ((c.m.toList.getD i []).take (32 * claim)))) ++
  [(0x800, wordBytes 8 ((List.range 256).map fun i => Table.get 0 c.dict i))] ++
  (List.range 16).map fun i => (0x1000 + 0x400 * i, wordBytes 4 ((c.v.toList.getD i []).take (32 * claim)))

/-- The save area before its image: unspecified bytes. -/
def State.saveFilled (s : State) (r : CtxRef) : State :=
  { (s.setDwords (savePa r 0) ((List.range 2560).map fun i => Config.freeWord (s.tick + i))) with tick := s.tick + 2560 }

theorem State.saveImage_eq (s : State) (r : CtxRef) (claim : Nat) (cp : Option CopyRun) (armed : Bool) :
    s.saveImage r claim cp armed = (s.saveFilled r).saveAll r ((s.ctx r).pieces (qpos r) claim cp armed) := by
  simp only [State.saveImage, Ctx.pieces, Ctx.regPieces, State.saveAll, List.foldl_append, List.foldl_map, List.foldl_cons, List.foldl_nil,
    State.setDwords, State.saveFilled, wordBytes, imageVec]

theorem length_imageCopy (c : Ctx) (cp : Option CopyRun) (armed : Bool) : (imageCopy c cp armed).length = 12 := by
  cases cp <;> rfl

theorem Ctx.length_imageG (c : Ctx) : c.imageG.length = 32 := by rw [Ctx.imageG, List.length_map, List.length_range]

theorem Ctx.length_imageRegs (c : Ctx) : c.imageRegs.length = 22 := by simp [Ctx.imageRegs]

/-- With eight blocks at most and no request of the special-function unit, the pieces stand one behind the other. -/
theorem Ctx.ascending_pieces {c : Ctx} {claim : Nat} (hclaim : claim ≤ 8) (hsfu : c.savedSfu = []) (q : Nat) (cp : Option CopyRun)
    (armed : Bool) : Ascending 0 0x5000 (c.pieces q claim cp armed) := by
  have hmask (i : Nat) : (imageMask ((c.m.toList.getD i []).take (32 * claim))).length ≤ 32 := by
    rw [imageMask, length_toBytes]
    have := List.length_take_le (32 * claim) (c.m.toList.getD i [])
    omega
  have hvec (i : Nat) : (wordBytes 4 ((c.v.toList.getD i []).take (32 * claim))).length ≤ 0x400 := by
    rw [length_wordBytes]
    have := List.length_take_le (32 * claim) (c.v.toList.getD i [])
    omega
  refine ((Ascending.append ?regs (ascending_steps 4 hmask)).append ?dict).append (ascending_steps 16 hvec)
  case regs => simp [Ctx.regPieces, Ascending, length_wordBytes, Ctx.length_imageG, Ctx.length_imageRegs, length_imageCopy, hsfu]
  case dict => simp [Ascending, length_wordBytes]

end Sys2Proof.Machine

/-! ## Pre-emption (R374 to R377) -/

namespace Sys2Proof.Machine

/-! ### What is drained and saved first -/

/-- Results written to general registers change those and the pending ones alone. -/
theorem Ctx.foldl_wg_pend {α : Type} (d : α → BitVec 5) (v : α → W64) (done : α → RegSet) (l : List α) (c : Ctx) :
    ∃ g pend, l.foldl (fun (c : Ctx) q => { c.wg (d q) (v q) with pend := c.pend.sub (done q) }) c = { c with g := g, pend := pend } := by
  induction l generalizing c with
  | nil => exact ⟨c.g, c.pend, rfl⟩
  | cons q l ih =>
    obtain ⟨g, pend, h⟩ := ih { c.wg (d q) (v q) with pend := c.pend.sub (done q) }
    refine ⟨g, pend, h.trans ?_⟩
    rw [Ctx.wg]
    split <;> rfl

section Drain

variable (s : State) (r : CtxRef)

theorem State.ctx_drainSfu : ∃ g pend l busy,
    (s.drainSfu r).ctx r = { s.ctx r with g := g, pend := pend, savedSfu := l, sfuBusy := busy } := by
  unfold State.drainSfu
  extract_lets o mine done left s1 s2 busy
  obtain ⟨g, pend, hdone⟩ := Ctx.foldl_wg_pend (fun q : SfuReq => q.d) (fun q => BitVec.ofNat 64 (sfuFp32 q.fn (bits q.a 0 32)))
    (fun q => rG [q.d]) done (s.ctx r)
  refine ⟨g, pend, left, busy, ?_⟩
  have hs2 : s2.ctx r = { s.ctx r with g := g, pend := pend } := (s1.ctx_modCtx_self r _).trans hdone
  rw [State.ctx_modCtx_self, hs2]

/-- A context without a request of the special-function unit keeps its registers. -/
theorem State.ctx_drainSfu_of_none (h : ∀ q ∈ (s.octet r.site (octetOf r.core)).sfuq, q.who ≠ r) : ∃ busy,
    (s.drainSfu r).ctx r = { s.ctx r with savedSfu := [], sfuBusy := busy } := by
  unfold State.drainSfu
  extract_lets o mine done left s1 s2 busy
  have hmine : mine = [] := List.filter_eq_nil_iff.mpr fun q hq => by simp [h q hq]
  have hdone : done = [] := by simp only [done, hmine, List.filter_nil]
  have hleft : left = [] := by simp only [left, hmine, List.filter_nil]
  have hs2 : s2.ctx r = s.ctx r := (s1.ctx_modCtx_self r _).trans (by rw [hdone]; rfl)
  exact ⟨busy, by rw [State.ctx_modCtx_self, hs2, hleft]⟩

theorem State.ctx_saveEngine : ∃ at_ mx ob sl,
    (s.saveEngine r).ctx r = { s.ctx r with saveAt := at_, savedMx := mx, savedObuf := ob, savedSlots := sl } := by
  unfold State.saveEngine
  extract_lets k slots cmds outs s1 types head prog s2 s3
  have hs2 : s2.ctxs = s1.ctxs := by
    simp only [s2]
    split
    · rfl
    · rw [foldl_keeps State.ctxs, foldl_keeps State.ctxs]
      · simp only [State.setDword, State.setDwords, State.setBytes_ctxs]
      · intro e _ w
        split
        · exact w.setBytes_ctxs _ _
        · rfl
      · exact fun j _ w => w.setBytes_ctxs _ _
  have hs3 : s3.ctx r = _ := s2.ctx_modCtx_self r _
  rw [State.ctxs_congr hs2, s.ctx_modCtx_self r _] at hs3
  exact ⟨_, _, _, _, hs3⟩

theorem State.ctxs_saveImage (claim : Nat) (cp : Option CopyRun) (armed : Bool) : (s.saveImage r claim cp armed).ctxs = s.ctxs := by
  have hwords (ws : List W64) : ({ (s.setDwords (savePa r 0) ws) with tick := s.tick + 2560 } : State).ctxs = s.ctxs :=
    s.setBytes_ctxs _ _
  have hfilled : (s.saveFilled r).ctxs = s.ctxs := hwords _
  rw [State.saveImage_eq, ← hfilled]
  exact foldl_keeps State.ctxs (fun e _ w => w.setBytes_ctxs _ _) (s.saveFilled r)

end Drain

/-! ### Bytes that stay -/

/-- Memory and the places of its bytes stay. -/
def SameBytes (s t : State) : Prop := t.mem = s.mem ∧ t.addressMap = s.addressMap

namespace SameBytes

variable {s t u : State}

theorem trans (h : SameBytes s t) (h' : SameBytes t u) : SameBytes s u := ⟨h'.1.trans h.1, h'.2.trans h.2⟩

theorem byte (h : SameBytes s t) (x : Nat) : t.byte x = s.byte x := State.byte_of_addressMap h.1 h.2 x

theorem dword (h : SameBytes s t) (pa : Nat) : t.dword pa = s.dword pa := State.dword_congr h.byte pa

theorem takeId (s : State) : SameBytes s s.takeId := ⟨rfl, rfl⟩

theorem bill (s : State) (site asid : Nat) : SameBytes s (s.bill site asid) := ⟨rfl, s.addressMap_modHub (s.phys site)
  (f := fun h => { h with energy := Table.set 0 h.energy asid (Table.get 0 h.energy asid + Config.energy s.tick) }) fun _ => rfl⟩

theorem billSave (s : State) (r : CtxRef) (hold : Bool) : SameBytes s (s.billSave r hold) := by
  unfold State.billSave
  split
  · exact bill s r.site 0
  · exact ⟨rfl, rfl⟩

end SameBytes

theorem Reschedules.sameBytes {s t : State} (h : Reschedules s t) : SameBytes s t :=
  ⟨h.mem, State.addressMap_congr h.sites h.hubs⟩

/-! ### The pre-emption of one context -/

theorem State.ctxs_billSave (s : State) (r : CtxRef) (hold : Bool) : (s.billSave r hold).ctxs = s.ctxs := by
  unfold State.billSave
  split <;> rfl

theorem State.ctx_takeId (s : State) (r : CtxRef) : s.takeId.ctx r = s.ctx r := rfl

theorem State.ctxs_reserveSlots (s : State) (r : CtxRef) : (s.reserveSlots r).ctxs = s.ctxs := by
  unfold State.reserveSlots
  dsimp only
  split
  · refine foldl_keeps State.ctxs ?_ s
    exact fun _ _ _ => rfl
  · rfl

/-- The context that is drained and saved in a pre-emption. -/
def State.unloaded (s : State) (r : CtxRef) : State := (s.drainSfu r).saveEngine r

/-- A pre-empted context is what was saved of it, without blocks, and of memory its image is the last that is written. -/
theorem State.preemptOne_saves (s : State) (r : CtxRef) (hold test : Bool) : ∃ cp armed order,
    (s.preemptOne r hold test).ctx r =
      { (s.unloaded r).ctx r with
        st := .preempted, wait := .none, held := [], savedClaim := (s.ctx r).claim, savedCp := cp, cpArmed := false, preOrder := order,
        hold := hold, testHold := test, chosen := !hold && !test, preReq := false, preHold := false, testReq := false } ∧
    ∀ x, (s.preemptOne r hold test).byte x = ((s.unloaded r).saveImage r (s.ctx r).claim cp armed).byte x := by
  unfold State.preemptOne
  extract_lets k active cp armed claim s2 s3 s4 s5
  refine ⟨cp, armed, s4.nextId, ?ctx, ?bytes⟩
  case ctx =>
    have hcore : s4.ctx r = s3.ctx r := State.ctxs_congr (s3.modCore_ctxs ..) r
    have hs4 : s4.ctx r = (s.unloaded r).ctx r := hcore.trans (State.ctxs_congr (s2.ctxs_saveImage r claim cp armed) r)
    rw [State.ctxs_congr (State.ctxs_reserveSlots _ r), State.ctxs_congr (State.ctxs_reserve _ _ _), (s5.leave_leaves r .preempted).ctx]
    simp only [s5]
    rw [State.ctxs_congr (State.ctxs_billSave _ r _), State.ctx_takeId, State.ctx_modCtx_self, hs4]
  case bytes =>
    have hcore : SameBytes s3 s4 := (Reschedules.modCore s3 _ _ _).sameBytes
    have hpost : SameBytes s4 s5 := (Reschedules.modCtx s4 r _).sameBytes.trans ((SameBytes.takeId _).trans (SameBytes.billSave _ r _))
    have hleave := (Reschedules.leave s5 r .preempted).trans ((Reschedules.reserve _ r.site (octetOf r.core)).trans (Reschedules.reserveSlots _ r))
    exact (hcore.trans (hpost.trans hleave.sameBytes)).byte

/-- What the save area then holds of a context whose requests the special-function unit has all answered. -/
theorem State.preemptOne_holds {s : State} {r : CtxRef} (hr : PlacedCtx r) (hclaim : (s.ctx r).claim ≤ 8)
    (hsfu : ∀ q ∈ (s.octet r.site (octetOf r.core)).sfuq, q.who ≠ r) (hold test : Bool) : ∃ c cp armed busy at_ mx ob sl,
    c = { s.ctx r with savedSfu := [], sfuBusy := busy, saveAt := at_, savedMx := mx, savedObuf := ob, savedSlots := sl } ∧
    ∀ e ∈ c.pieces (qpos r) (s.ctx r).claim cp armed, (s.preemptOne r hold test).Holds r e.1 e.2 := by
  obtain ⟨cp, armed, order, -, hbytes⟩ := s.preemptOne_saves r hold test
  obtain ⟨busy, hdrain⟩ := s.ctx_drainSfu_of_none r hsfu
  obtain ⟨at_, mx, ob, sl, hengine⟩ := (s.drainSfu r).ctx_saveEngine r
  rw [hdrain] at hengine
  refine ⟨(s.unloaded r).ctx r, cp, armed, busy, at_, mx, ob, sl, hengine, fun e he => ?_⟩
  have hempty : ((s.unloaded r).ctx r).savedSfu = [] := by rw [State.unloaded, hengine]
  refine State.Holds.congr ?_ hbytes
  rw [State.saveImage_eq]
  exact State.holds_saveAll hr _ (Ctx.ascending_pieces hclaim hempty (qpos r) cp armed) (Nat.le_refl _) he

/-! ### What the save area shows (R376) -/

/-- The words of a context's image that can be read back one by one. -/
def State.ShowsRegs (t : State) (r : CtxRef) (c : Ctx) : Prop :=
  (∀ i : BitVec 5, t.dword (savePa r (8 * i.toNat)) = c.rg i) ∧
    (∀ i, i < 4 → t.dword (savePa r (0x100 + 8 * i)) = c.ls.toList.getD i 0 ∧ t.dword (savePa r (0x120 + 8 * i)) = c.le.toList.getD i 0) ∧
    t.dword (savePa r 0x150) = c.ja0 ∧ t.dword (savePa r 0x158) = c.ja1 ∧ t.dword (savePa r 0x160) = c.lr ∧
    t.dword (savePa r 0x168) = putBits c.pc 0 3 c.slot.toNat ∧
    t.dword (savePa r 0x180) = c.asid.setWidth 64 ∧ t.dword (savePa r 0x188) = c.tcause ∧ t.dword (savePa r 0x190) = c.tval ∧
    t.dword (savePa r 0x198) = c.trappc ∧ t.dword (savePa r 0x1A0) = c.tstat ∧ t.dword (savePa r 0x1A8) = c.tvec ∧
    ∀ i, i < 256 → t.dword (savePa r (0x800 + 8 * i)) = Table.get 0 c.dict i

section Shows

variable {t : State} {r : CtxRef} {c : Ctx} {q claim : Nat} {cp : Option CopyRun} {armed : Bool}
  (h : ∀ e ∈ c.pieces q claim cp armed, t.Holds r e.1 e.2)
include h

theorem State.showsRegs_of_pieces : t.ShowsRegs r c := by
  have hmem (e : Nat × List Byte) (he : e ∈ c.regPieces q claim cp armed) : t.Holds r e.1 e.2 :=
    h e (List.mem_append_left _ (List.mem_append_left _ (List.mem_append_left _ he)))
  simp only [Ctx.regPieces, List.forall_mem_cons] at hmem
  obtain ⟨hregs, -, hflow, hsys, -⟩ := hmem
  have hdict := h (0x800, _) (List.mem_append_left _ (List.mem_append_right _ List.mem_cons_self))
  have hword (i : Nat) (hi : i < 22) := hsys.dword (i := i) (by rw [c.length_imageRegs]; exact hi)
  refine ⟨fun i => ?g, fun i hi => ⟨?ls, ?le⟩, hflow.dword (i := 0) (by simp), hflow.dword (i := 1) (by simp), hflow.dword (i := 2) (by simp),
    hflow.dword (i := 3) (by simp), hword 0 (by omega), hword 1 (by omega), hword 2 (by omega), hword 3 (by omega), hword 4 (by omega),
    hword 5 (by omega), fun i hi => ?dict⟩
  case g =>
    have hg := hregs.dword (i := i.toNat) (by simp [c.length_imageG]; omega)
    rw [Nat.zero_add] at hg
    have hlt : i.toNat < c.imageG.length := by rw [c.length_imageG]; omega
    rw [hg, List.append_assoc, List.getD_append _ _ _ _ hlt, List.getD_eq_getElem _ _ hlt]
    simp [Ctx.imageG]
  case ls =>
    have hls := hregs.dword (i := 32 + i) (by simp [c.length_imageG]; omega)
    rw [show 0 + 8 * (32 + i) = 0x100 + 8 * i by omega] at hls
    rw [hls, List.getD_append _ _ _ _ (by simp [c.length_imageG]; omega), List.getD_append_right _ _ _ _ (by simp [c.length_imageG]),
      c.length_imageG, Nat.add_sub_cancel_left]
  case le =>
    have hle := hregs.dword (i := 36 + i) (by simp [c.length_imageG]; omega)
    rw [show 0 + 8 * (36 + i) = 0x120 + 8 * i by omega] at hle
    rw [hle, List.getD_append_right _ _ _ _ (by simp [c.length_imageG])]
    simp [c.length_imageG]
  case dict =>
    rw [hdict.dword (i := i) (by simpa using hi)]
    simp [List.getD_eq_getElem?_getD, hi]

/-- Lanes of the blocks that were held are read back. -/
theorem State.word_of_pieces (x : BitVec 4) {i : Nat} (hi : i < 32 * claim) (hlen : i < (c.rv x).length) :
    t.word (savePa r (0x1000 + 0x400 * x.toNat + 4 * i)) = lane (c.rv x) i := by
  have hx : c.v.toList.getD x.toNat [] = c.rv x := by
    rw [List.getD_eq_getElem _ _ (by rw [Vector.length_toList]; exact x.isLt), Vector.getElem_toList]
    rfl
  have hvec : t.Holds r (0x1000 + 0x400 * x.toNat) (wordBytes 4 ((c.rv x).take (32 * claim))) := by
    rw [← hx]
    refine h (0x1000 + 0x400 * x.toNat, _) (List.mem_append_right _ (List.mem_map.mpr ⟨x.toNat, ?_, rfl⟩))
    exact List.mem_range.mpr x.isLt
  rw [hvec.word (by rw [List.length_take]; omega), lane]
  simp [List.getD_eq_getElem?_getD, hi]

end Shows

/-! ### The acceptance of a request (R187, R374) -/

/-- A pre-empted context keeps its pending asynchronous causes and its claim, gives its blocks back, and waits to be chosen unless it is
held. -/
structure Preempted (c c' : Ctx) : Prop where
  st : c'.st = .preempted
  pendAsync : c'.pendAsync = c.pendAsync
  held : c'.held = []
  savedClaim : c'.savedClaim = c.claim
  preReq : c'.preReq = false
  testReq : c'.testReq = false
  hold : c'.hold = (c.preReq && c.preHold)
  testHold : c'.testHold = c.testReq
  chosen : c'.chosen = (!(c.preReq && c.preHold) && !c.testReq)

section Accept

variable {s : State} {r : CtxRef}

/-- The acceptance of a context's own request. -/
def State.preemptAsked (s : State) (r : CtxRef) : State := s.preemptOne r ((s.ctx r).preReq && (s.ctx r).preHold) (s.ctx r).testReq

theorem State.preempted_preemptAsked (s : State) (r : CtxRef) : Preempted (s.ctx r) ((s.preemptAsked r).ctx r) := by
  obtain ⟨cp, armed, order, hctx, -⟩ := s.preemptOne_saves r ((s.ctx r).preReq && (s.ctx r).preHold) (s.ctx r).testReq
  obtain ⟨g, pend, l, busy, hdrain⟩ := s.ctx_drainSfu r
  obtain ⟨at_, mx, ob, sl, hengine⟩ := (s.drainSfu r).ctx_saveEngine r
  have hasync : ((s.unloaded r).ctx r).pendAsync = (s.ctx r).pendAsync := by rw [State.unloaded, hengine, hdrain]
  rw [State.preemptAsked, hctx]
  exact ⟨rfl, hasync, rfl, rfl, rfl, rfl, rfl, rfl, rfl⟩

variable (hgang : (s.ctx r).gang = false)
include hgang

theorem State.accepted_of_asked (hasked : (s.ctx r).preReq = true ∨ (s.ctx r).testReq = true) (hmay : s.mayPreempt r = true) :
    s.accepted r = some (s.preemptAsked r) := by
  rw [State.accepted_of_no_gang hgang, if_pos ⟨by simpa using hasked, hmay⟩]
  rfl

theorem exec_preemptionAccept_of_asked (hasked : (s.ctx r).preReq = true ∨ (s.ctx r).testReq = true) (hmay : s.mayPreempt r = true) :
    exec (.preemptionAccept r) s = .next (s.preemptAsked r) := by
  simp [exec, execPreemptionAccept, State.accepted_of_asked hgang hasked hmay]

theorem exec_preemptionAccept_of_not
    (h : ((s.ctx r).preReq = false ∧ (s.ctx r).testReq = false) ∨ s.mayPreempt r = false) : exec (.preemptionAccept r) s = .next s := by
  have hnone : s.accepted r = none := by
    rcases h with hunasked | hmay
    · exact State.accepted_of_unasked hgang hunasked
    · rw [State.accepted_of_no_gang hgang, if_neg (by simp [hmay])]
  simp [exec, execPreemptionAccept, hnone]

end Accept

end Sys2Proof.Machine

/-! ## Resumption (R378) -/

namespace Sys2Proof.Machine

theorem exec_resumption_of_not {s : State} {r : CtxRef} (h : (s.ctx r).st ≠ .preempted ∨ (s.ctx r).chosen = false) :
    exec (.resumption r) s = .next s := by
  rcases h with h | h <;> simp [exec, execResumption, h]

/-- Reservations are made before a context comes back. -/
def State.reservedFor (s : State) (r : CtxRef) : State := (s.reserve r.site (octetOf r.core)).reserveSlots r

theorem State.reservedFor_reschedules (s : State) (r : CtxRef) : Reschedules s (s.reservedFor r) :=
  (Reschedules.reserve s _ _).trans (Reschedules.reserveSlots _ r)

theorem exec_resumption_of_reserved {s : State} {r : CtxRef} (hgang : (s.ctx r).gang = false) (hst : (s.ctx r).st = .preempted)
    (hchosen : (s.ctx r).chosen = true) (hretired : (s.core r.site r.core).retired = false)
    (hreserved : (s.reservedFor r).reserved r = true) (hroom : (s.reservedFor r).resumeRoom [r] = true) :
    exec (.resumption r) s = .next ((s.reservedFor r).resumeOne r) := by
  rw [State.reservedFor] at hreserved hroom ⊢
  simp [exec, execResumption, hst, hchosen, hretired, s.members_of_no_gang hgang, hreserved, hroom]

/-! ### What comes back -/

/-- The registers that the image gives back word by word. -/
def Ctx.restored (c : Ctx) : Vector W64 32 × W64 × W64 × W64 × W64 × W64 × W64 × W64 :=
  (c.g, c.pc, c.lr, c.tcause, c.tval, c.trappc, c.tstat, c.tvec)

theorem Ctx.restored_held (c : Ctx) (l : List Nat) : ({ c with held := l } : Ctx).restored = c.restored := rfl

theorem Ctx.restored_dictOld (c : Ctx) (l : Table W64) : ({ c with dictOld := l } : Ctx).restored = c.restored := rfl

section Restored

variable (s : State) (r : CtxRef)

theorem State.restored_modCtx {f : Ctx → Ctx} (hf : ∀ c, (f c).restored = c.restored) :
    ((s.modCtx r f).ctx r).restored = (s.ctx r).restored := by rw [State.ctx_modCtx_self, hf]

theorem State.loadEngine_reschedules (from_ : Option Nat) : Reschedules s (s.loadEngine r from_) := by
  unfold State.loadEngine
  extract_lets c s1 cmds
  have hs1 : Reschedules s s1 := by
    simp only [s1]
    split
    · exact Reschedules.refl s
    · exact (Reschedules.foldl (fun u (x : Nat × Nat) => Reschedules.modSlot u r.site r.core x.1 _) _ s).trans (Reschedules.modCtx _ r _)
  exact hs1.trans (Reschedules.modCore s1 _ _ _)

theorem State.restored_loadEngine (from_ : Option Nat) : ((s.loadEngine r from_).ctx r).restored = (s.ctx r).restored := by
  unfold State.loadEngine
  extract_lets c s1 cmds
  have hs1 : (s1.ctx r).restored = (s.ctx r).restored := by
    simp only [s1]
    split
    · rfl
    · rw [State.restored_modCtx]
      · refine congrArg Ctx.restored (State.ctxs_congr ?_ r)
        rw [foldl_keeps State.ctxs]
        exact fun _ _ _ => rfl
      · exact fun _ => rfl
  exact (congrArg Ctx.restored (State.ctxs_congr (s1.modCore_ctxs ..) r)).trans hs1

/-- The words of the image that stand for those registers, without their reserved bits (R376). -/
def State.imageWords : Vector W64 32 × W64 × W64 × W64 × W64 × W64 × W64 × W64 :=
  (Vector.ofFn fun i : Fin 32 => s.dword (savePa r (8 * i.val)), putBits (s.dword (savePa r 0x168)) 0 3 0, s.dword (savePa r 0x160),
    s.dword (savePa r 0x188) &&& 0x7F, s.dword (savePa r 0x190), s.dword (savePa r 0x198) &&& 0xFFFFFFFFFFFFFFFB,
    s.dword (savePa r 0x1A0) &&& 7, s.dword (savePa r 0x1A8) &&& 0xFFFFFFFFFFFFFFF8)

theorem State.imageWords_of_sameBytes {s t : State} (h : SameBytes s t) (r : CtxRef) : t.imageWords r = s.imageWords r := by
  simp only [State.imageWords, h.dword]

theorem State.restored_loadImage (c : Ctx) (claim : Nat) : (s.loadImage r c claim).restored = s.imageWords r := by
  have hcause : imageMasks.getD 1 (ones 0 64) = 0x7F := by decide
  have hval : imageMasks.getD 2 (ones 0 64) = BitVec.allOnes 64 := by decide
  have hpc : imageMasks.getD 3 (ones 0 64) = 0xFFFFFFFFFFFFFFFB := by decide
  have hstat : imageMasks.getD 4 (ones 0 64) = 7 := by decide
  have hvec : imageMasks.getD 5 (ones 0 64) = 0xFFFFFFFFFFFFFFF8 := by decide
  simp only [Ctx.restored, State.imageWords, State.loadImage, State.saveDw, hcause, hval, hpc, hstat, hvec, BitVec.and_allOnes]

/-- A bank of the dictionary that is loaded again leaves those registers alone. -/
theorem Ctx.restored_loadBank (c : Ctx) (b : Nat) (img : List W64) : (c.loadBank b img).restored = c.restored := by
  refine foldl_keeps Ctx.restored (fun i _ c => ?_) c
  dsimp only
  split <;> rfl

theorem State.loadCopy_reschedules : Reschedules s (s.loadCopy r) := by
  unfold State.loadCopy
  exact Reschedules.modCtx s r _

theorem State.restored_loadCopy : ((s.loadCopy r).ctx r).restored = (s.ctx r).restored := by
  unfold State.loadCopy
  dsimp only
  rw [State.restored_modCtx]
  exact fun c => by simp only [Ctx.restored]

theorem SameBytes.charge (site asid nj : Nat) : SameBytes s (s.charge site asid nj) :=
  ⟨rfl, s.addressMap_modHub (s.phys site) (f := fun h => { h with energy := Table.set 0 h.energy asid (Table.get 0 h.energy asid + nj) })
    fun _ => rfl⟩

theorem SameBytes.billCtx : SameBytes s (s.billCtx r) := by
  unfold State.billCtx
  split
  · exact ⟨rfl, rfl⟩
  · exact (Reschedules.modCtx s r _).sameBytes.trans (SameBytes.bill _ _ _)

theorem SameBytes.paySave (asid : Nat) : SameBytes s (s.paySave r asid) := by
  unfold State.paySave
  split
  · exact ⟨rfl, rfl⟩
  · exact (Reschedules.modCore s r.site r.core _).sameBytes.trans (SameBytes.charge _ _ _ _)

theorem State.ctxs_paySave (asid : Nat) : (s.paySave r asid).ctxs = s.ctxs := by
  unfold State.paySave
  split <;> rfl

theorem State.ctx_bill (site asid : Nat) : (s.bill site asid).ctx r = s.ctx r := rfl

/-- Of its context a charge changes only what is due. -/
theorem State.ctx_billCtx : ∃ due, (s.billCtx r).ctx r = { s.ctx r with due := due } := by
  unfold State.billCtx
  split
  · exact ⟨(s.ctx r).due, rfl⟩
  · exact ⟨_, by rw [State.ctx_bill, State.ctx_modCtx_self]⟩

/-- What a context that has come back pays for leaves the context as it became READY. -/
theorem State.ctx_makeReady_billed (asid : Nat) :
    let c := (((s.makeReady r).billCtx r).paySave r asid).ctx r
    c.awake ∧ c.chosen = (s.ctx r).chosen ∧ c.restored = (s.ctx r).restored := by
  obtain ⟨due, hdue⟩ := (s.makeReady r).ctx_billCtx r
  have hready := s.awake_makeReady r
  dsimp only
  rw [State.ctxs_congr (State.ctxs_paySave _ r asid), hdue]
  rw [State.ctx_makeReady_self] at hready ⊢
  exact ⟨hready, rfl, rfl⟩

/-- A context that comes back can issue, is no longer chosen, and has the words of its image. -/
theorem State.resumeOne_resumes :
    let t := s.resumeOne r
    (t.ctx r).awake ∧ (t.ctx r).chosen = false ∧ SameBytes s t ∧ (t.ctx r).restored = s.imageWords r := by
  unfold State.resumeOne
  extract_lets o c engine held s2 load s3 s4 s5 s6 s7 s8
  clear_value load
  have h2 : Reschedules s s2 := Reschedules.modOctet s _ _ _
  have h3 : Reschedules s2 s3 ∧ (s3.ctx r).restored = s.imageWords r := by
    refine ⟨Reschedules.modCtx s2 r _, ?_⟩
    simp only [s3, State.ctx_modCtx_self]
    rw [Ctx.restored_held, State.restored_loadImage, State.imageWords_of_sameBytes h2.sameBytes]
  have h4 : Reschedules s3 s4 ∧ (s4.ctx r).restored = (s3.ctx r).restored := by
    simp only [s4]
    split
    · exact ⟨Reschedules.refl s3, rfl⟩
    · next d _ =>
      refine ⟨Reschedules.modCtx s3 r _, ?_⟩
      rw [State.ctx_modCtx_self, Ctx.restored_dictOld, Ctx.restored_loadBank]
  have h5 : Reschedules s4 s5 ∧ (s5.ctx r).restored = (s4.ctx r).restored := by
    by_cases hengine : engine = true
    · simp only [s5, hengine, if_true]
      exact ⟨s4.loadEngine_reschedules r _, s4.restored_loadEngine r _⟩
    · simp only [s5, hengine]
      exact ⟨Reschedules.refl s4, rfl⟩
  have h6 : Reschedules s5 s6 := Reschedules.modOctet s5 _ _ _
  have h7 : Reschedules s6 s7 := s6.loadCopy_reschedules r
  have h8 : Reschedules s7 s8 := Reschedules.modCtx s7 r _
  have hback := h2.trans (h3.1.trans (h4.1.trans (h5.1.trans (h6.trans (h7.trans (h8.trans (Reschedules.makeReady s8 r)))))))
  have hchosen8 : (s8.ctx r).chosen = false := by simp only [s8, State.ctx_modCtx_self]
  have hrestored8 : (s8.ctx r).restored = (s7.ctx r).restored := s7.restored_modCtx r fun _ => rfl
  have hr8 : (s8.ctx r).restored = s.imageWords r := calc
    (s8.ctx r).restored = (s7.ctx r).restored := hrestored8
    _ = (s6.ctx r).restored := s6.restored_loadCopy r
    _ = (s4.ctx r).restored := h5.2
    _ = (s3.ctx r).restored := h4.2
    _ = s.imageWords r := h3.2
  obtain ⟨hawake, hchosen, hwords⟩ := s8.ctx_makeReady_billed r (s8.ctx r).asid.toNat
  refine ⟨hawake, hchosen.trans hchosen8, ?_, hwords.trans hr8⟩
  exact hback.sameBytes.trans ((SameBytes.billCtx _ r).trans (SameBytes.paySave _ r _))

end Restored

end Sys2Proof.Machine

/-! ## The events together -/

namespace Sys2Proof.Machine

/-- A trap at a bundle boundary: the registers of R372, no other context touched, and the context as ready as it was. -/
def TrapTaken (s t : State) (r : CtxRef) (cause : Nat) (v : W64) : Prop :=
  (s.ctx r).Entered (t.ctx r) cause v ∧ OnlyCtxOf s t r ∧ (t.ctx r).st = (s.ctx r).st ∧ (t.ctx r).wait = (s.ctx r).wait

section Boundary

variable {s : State} {r : CtxRef} (hgang : (s.ctx r).gang = false) (hhidden : bits (s.die r.site).tqctl 0 3 = 0)
  (hin : (s.ctx r).inTrap = false) (hbound : (s.ctx r).bounded) (hparked : NoneParked s r)
include hgang hhidden hin hbound hparked

theorem runs_trapEntry_async (hunasked : (s.ctx r).preReq = false ∧ (s.ctx r).testReq = false) (hstore : (s.ctx r).pendStore = [])
    {code : Nat} {v : W64} (hmem : (code, v) ∈ (s.ctx r).pendAsync) (hlow : ∀ x ∈ (s.ctx r).pendAsync, x = (code, v) ∨ code < x.1) :
    Runs (.trapEntry r) s fun t => TrapTaken s t r (code % 64 + 64) v ∧ (∀ x ∈ (t.ctx r).pendAsync, x.1 ≠ code) ∧ (t.ctx r).pendStore = [] := by
  have hcause := State.boundaryCause_of_async hin hstore (lowestCause_of_lowest hmem hlow)
  obtain ⟨hctx, honly⟩ := State.takeBoundary_enters hcause hin hhidden hparked (true, code, v)
  refine ⟨_, exec_trapEntry_of_async hgang hbound hunasked hcause, ⟨?_, honly, ?_, ?_⟩, ?_, ?_⟩
  · rw [hctx]
    exact Ctx.entered_tookCause hin true code v
  · rw [hctx]
    rfl
  · rw [hctx]
    rfl
  · intro x hx
    rw [hctx] at hx
    simpa using (List.mem_filter.mp hx).2
  · rw [hctx]
    exact hstore

theorem runs_trapEntry_store {code : Nat} {v : W64} {rest : List (Nat × W64)} (hstore : (s.ctx r).pendStore = (code, v) :: rest)
    (hlow : ∀ x ∈ rest, code ≤ x.1) :
    Runs (.trapEntry r) s fun t => TrapTaken s t r (code % 64) v ∧ (t.ctx r).pendStore = rest ∧ (t.ctx r).pendAsync = (s.ctx r).pendAsync := by
  have hcause := State.boundaryCause_of_store hin (hstore ▸ lowestCause_cons hlow)
  obtain ⟨hctx, honly⟩ := State.takeBoundary_enters hcause hin hhidden hparked (false, code, v)
  refine ⟨_, exec_trapEntry_of_store hgang hbound hcause, ⟨?_, honly, ?_, ?_⟩, ?_, ?_⟩
  · rw [hctx]
    exact Ctx.entered_tookCause hin false code v
  · rw [hctx]
    rfl
  · rw [hctx]
    rfl
  · rw [hctx]
    exact (congrArg (List.erase · (code, v)) hstore).trans (List.erase_cons_head ..)
  · rw [hctx]
    rfl

end Boundary

/-- Settles O46: each event is read off the operation that it ends in. -/
theorem contextEvents : Obligations.ContextEvents := by
  intro s r code v
  refine ⟨?trapAsync, ?trapStore, ?trapNothing, ?trapPreempted, ?ends, ?noFatal, ?npOver, ?npWithin, ?accepts, ?refuses, ?resumes,
    ?stays, ?halts, ?notHalting, ?gang, ?girth, ?waita, ?waitaForever, ?notified, ?polled, ?floor, ?noFloor⟩
  case trapAsync =>
    intro ⟨hgang, hhidden, hin⟩ hbound hparked hunasked hstore hmem hlow
    obtain ⟨t, hexec, ⟨hentered, honly, hst, hwait⟩, hasync, hstore'⟩ :=
      runs_trapEntry_async hgang hhidden hin hbound hparked hunasked hstore hmem hlow
    exact ⟨t, hexec, hentered, honly, hst, hwait, hasync, hstore'⟩
  case trapStore =>
    intro rest ⟨hgang, hhidden, hin⟩ hbound hparked hstore hlow
    obtain ⟨t, hexec, ⟨hentered, honly, hst, hwait⟩, hstore', hasync⟩ :=
      runs_trapEntry_store hgang hhidden hin hbound hparked hstore hlow
    exact ⟨t, hexec, hentered, honly, hst, hwait, hstore', hasync⟩
  case trapNothing => exact fun hgang hunasked hstore hasync => exec_trapEntry_of_nothing hgang hunasked hstore hasync
  case trapPreempted =>
    intro hgang hbound hasked hmay hstore
    have hpre := s.preempted_preemptAsked r
    exact ⟨_, exec_trapEntry_of_accepted hgang hbound hstore (State.accepted_of_asked hgang hasked hmay), hpre.st, hpre.pendAsync⟩
  case ends =>
    exact fun hfatal hlive hquiet => ⟨_, exec_endContext_of_fatal hfatal hlive, State.endContext_endOf hquiet code v⟩
  case noFatal => exact exec_endContext_of_no_fatal
  case npOver =>
    exact fun hsec hlim hlive hstopped hquiet =>
      ⟨_, exec_npcountLimit_of_over ((s.npOver_iff r).mpr ⟨hsec, hlim⟩) hlive hstopped, State.endContext_endOf hquiet _ _⟩
  case npWithin =>
    refine fun h => exec_npcountLimit_of_within fun hover => ?_
    obtain ⟨hsec, hlim⟩ := (s.npOver_iff r).mp hover
    rcases h with hlt | hno
    · exact absurd hlim (Nat.not_le_of_lt hlt)
    · exact Bool.false_ne_true (hno.symm.trans hsec)
  case accepts =>
    intro hgang hasked hmay
    have hpre := s.preempted_preemptAsked r
    refine ⟨_, exec_preemptionAccept_of_asked hgang hasked hmay, hpre.st, hpre.held, hpre.savedClaim, hpre.preReq, hpre.testReq, hpre.hold,
      hpre.testHold, hpre.chosen, fun hreal hsite hclaim hsfu => ?_⟩
    obtain ⟨c, cp, armed, busy, at_, mx, ob, sl, rfl, hpieces⟩ :=
      State.preemptOne_holds ⟨hreal, hsite⟩ hclaim hsfu ((s.ctx r).preReq && (s.ctx r).preHold) (s.ctx r).testReq
    obtain ⟨hg, hloops, hja0, hja1, hlr, hpc, hasid, hcause, hval, htrappc, hstat, hvec, hdict⟩ := State.showsRegs_of_pieces hpieces
    exact ⟨hg, hloops, hja0, hja1, hlr, hpc, hasid, hcause, hval, htrappc, hstat, hvec, hdict,
      fun x _ hi hlen => State.word_of_pieces hpieces x hi hlen⟩
  case refuses => exact exec_preemptionAccept_of_not
  case resumes =>
    intro hgang hst hchosen hretired hreserved hroom
    obtain ⟨hawake, hchosen', hbytes, hwords⟩ := (s.reservedFor r).resumeOne_resumes r
    rw [State.imageWords_of_sameBytes (s.reservedFor_reschedules r).sameBytes] at hwords
    simp only [Ctx.restored, State.imageWords, Prod.mk.injEq] at hwords
    obtain ⟨hg, hpc, hlr, hcause, hval, htrappc, hstat, hvec⟩ := hwords
    refine ⟨_, exec_resumption_of_reserved hgang hst hchosen hretired hreserved hroom, hawake, hchosen',
      hbytes.1.trans (s.reservedFor_reschedules r).mem, fun i => ?_, hpc, hlr, hcause, hval, htrappc, hstat, hvec⟩
    rw [Ctx.rg, hg, Vector.getElem_ofFn]
  case stays => exact exec_resumption_of_not
  case halts => exact fun hhost hst hquiet => exec_haltSequence_of_quiet hhost hst hquiet
  case notHalting => exact exec_haltSequence_of_busy
  case gang => exact exec_gangTimeout_of_waiting
  case girth =>
    intro g ⟨hgang, hhidden, hin⟩ hst hwait hto
    exact ⟨_, exec_girthTimeout_of_waiting hst hwait hto, State.trapAll_of_waiting hgang hin hhidden hst hwait (by decide) _⟩
  case waita =>
    intro k hgang hst hwait hk
    exact ⟨_, exec_waitaTimeout_of_waiting hst hwait hk, State.fire_of_waiting hgang hst (by rw [hwait]; nofun) 4⟩
  case waitaForever => exact exec_waitaTimeout_of_zero
  case notified =>
    intro i k hgang hst hwait hseen
    exact ⟨_, exec_watchNotify_of_seen (Ctx.inWaita_of hst hwait) hseen, State.fire_of_waiting hgang hst (by rw [hwait]; nofun) i⟩
  case polled =>
    intro i k hgang hready hst hwait hdiffers
    exact ⟨_, exec_watchPoll_of_differs (Ctx.inWaita_of hst hwait) hready hdiffers, State.fire_of_waiting hgang hst (by rw [hwait]; nofun) i⟩
  case floor => exact fun hst howner => ⟨_, exec_floorIssue_of_owned hst howner, rfl⟩
  case noFloor => exact exec_floorIssue_of_not

end Sys2Proof.Machine
